-- ==== Sys2Proof/Word.lean ====
section
/-! DEFINITION. Words, identifiers and the operand types of the Eokater's commands. -/
namespace Sys2Proof

abbrev Byte := BitVec 8
abbrev Half := BitVec 16
/-- 32 bits: a register, a scratchpad word (04 R119). -/
abbrev Word := BitVec 32
abbrev DWord := BitVec 64

/-- Identifiers of 01 Table 1.4 and the counts of 01 Tables 1.1 to 1.3. -/
abbrev CoreId := Fin 8192
abbrev TileId := Fin 512
/-- A physical tile, numbered py * 24 + px as HEALTH_READ numbers it (09 R341). -/
abbrev PhysId := Fin 576
abbrev SectorId := Fin 16
abbrev CtxId := Fin 16
abbrev FnId := Fin 16
abbrev PortId := Fin 16
abbrev EngineId := Fin 32
abbrev RegionId := Fin 32
abbrev QueueId := Fin 16
abbrev SlotId := Fin 16
abbrev BindId := Fin 32
abbrev ActorId := Fin 16
/-- A memory channel as HEALTH_READ numbers it (09 R341): HBM3E 0-127, LPDDR5X 128 + s. -/
abbrev ChannelId := Fin 144
abbrev XReg := Fin 32

/-- A table: entries by number, sorted; a number not listed has the table's default entry. -/
abbrev Tab (α : Type) := List (Nat × α)

/-- A set of numbers as half-open intervals. -/
abbrev ISet := List (Nat × Nat)

/-- Where the scalar unit is: its core, the address of the instruction, and whether the
instruction is a 16-bit form (RV32C, 01 Table 1.1). -/
structure At where
  core : CoreId
  pc : Word
  short : Bool := false
  deriving DecidableEq, Repr

/-- Who makes a register access (04 R127, R147; 05 R162; 09 R316, R319). -/
inductive Agent where
  /-- The core's own scalar unit, through its local addresses (04 Table 4.3). -/
  | core (a : At)
  /-- Another core or engine, through a REG_WR or REG_RD control packet (06 Table 6.6). -/
  | net
  /-- Module firmware or a sector controller. -/
  | firmware
  /-- The debug window of BAR0 (09 R319). -/
  | debug
  /-- A host function, through BAR0 (09 Table 9.2). -/
  | host (f : FnId)
  /-- The BMC, through the SMBus Plumb port (09 R325). -/
  | bmc
  deriving DecidableEq, Repr

/-- The width of a scalar access (04 R127). -/
inductive Width where
  | byte | half | word
  deriving DecidableEq, Repr

/-- A scalar load or store of RV32I. -/
inductive ScalarOp where
  | load (w : Width) (signed : Bool)
  | store (w : Width)
  deriving DecidableEq, Repr

/-- A scalar atomic of RV32A (04 R128). -/
inductive AmoOp where
  | lr | sc | swap | add | xor | and | or | min | max | minu | maxu
  deriving DecidableEq, Repr

/-- The two router networks that switch packets (06 Table 6.1). -/
inductive Net where
  | bulk | control
  deriving DecidableEq, Repr

/-- A router's links: four mesh links and four Baseline links (06 R203). -/
inductive Dir where
  | n | e | s | w | bn | be | bs | bw
  deriving DecidableEq, Repr

/-- What the SECDED check of a router finds on a packet (06 R216). -/
inductive FlitError where
  | none | single
  /-- Uncorrectable, in a data flit; in the header flit or the route word. -/
  | data | header
  deriving DecidableEq, Repr

/-- The side of a circular region (04 R135). -/
inductive Side where
  | producer | consumer
  deriving DecidableEq, Repr

/-- The route word of 06 Table 6.2. -/
structure RouteWord where
  px : BitVec 5 := 0
  py : BitVec 5 := 0
  destTile : BitVec 9 := 0
  memPort : Bool := false
  ctx : BitVec 4 := 0
  gen : BitVec 12 := 0
  age : BitVec 8 := 0
  defl : BitVec 6 := 0
  esc : Bool := false
  deriving DecidableEq, Repr

/-- A control packet (06 R201): the 48-bit header, four words and the tag, beside its route word. -/
structure CtlPacket where
  route : RouteWord := {}
  header : BitVec 48 := 0
  word0 : Word := 0
  word1 : Word := 0
  word2 : Word := 0
  word3 : Word := 0
  tag : Half := 0
  deriving DecidableEq, Repr

/-- The fields of a bulk header (06 Table 6.3) with the payload bytes of its data flits. -/
structure BulkPacket where
  route : RouteWord := {}
  kind : BitVec 4 := 0
  nflits : BitVec 4 := 0
  bytes : BitVec 10 := 0
  last : Bool := false
  status : BitVec 2 := 0
  cast : BitVec 2 := 0
  bcnt : BitVec 6 := 0
  addr : BitVec 48 := 0
  raddr : BitVec 48 := 0
  rbcnt : BitVec 6 := 0
  smask : BitVec 16 := 0
  imask : BitVec 32 := 0
  data : List Byte := []
  deriving DecidableEq, Repr

/-- A packet of one of the two switched networks. -/
inductive Packet where
  | bulk (p : BulkPacket)
  | control (p : CtlPacket)
  deriving DecidableEq, Repr

/-- A request at a sector store (07 R239, R241): who asks, for which context and generation. -/
structure StoreRequest where
  ctx : CtxId
  gen : BitVec 12
  addr : Nat
  /-- Bytes to read; ignored by a write. -/
  len : Nat := 0
  /-- `some bytes` writes, `none` reads. -/
  data : Option (List Byte) := none
  /-- A WRITE of status POISONED (07 R242). -/
  poisoned : Bool := false
  /-- The engine and place that receive the answer (07 R250). -/
  engine : EngineId := 0
  place : Fin 2 := 0
  deriving DecidableEq, Repr

/-- A Mirura link packet (08 Table 8.3) with its payload and trailer. -/
structure LinkPacket where
  dest : BitVec 14 := 0
  src : BitVec 14 := 0
  cls : BitVec 2 := 0
  level : Bool := false
  kind : BitVec 4 := 0
  fseq : Half := 0
  len : BitVec 10 := 0
  status : BitVec 2 := 0
  job : Word := 0
  epoch : Half := 0
  xtag : Half := 0
  addr : BitVec 48 := 0
  period : Half := 0
  payload : List Byte := []
  trailer : Word := 0
  deriving DecidableEq, Repr

/-- What a COL_DATA packet says of its collective (08 R306): Table 8.3 gives these fields no bits of
their own (log 40). -/
structure ColTag where
  group : Fin 32
  /-- The sender's rank. -/
  rank : Nat
  /-- The collective's number in its group. -/
  seq : Nat
  digest : Word
  deriving DecidableEq, Repr

/-- The data of a codeword on a link (08 R272): ten 64-byte units, each with its unit-type bit, set for
a SYN unit, and ten bits of lane-control state. -/
structure Codeword where
  units : List (Bool × List Byte) := []
  control : BitVec 10 := 0
  deriving DecidableEq, Repr

/-- A SYN message (08 Table 8.7). -/
structure SynMsg where
  kind : BitVec 4 := 0
  group : BitVec 6 := 0
  src : BitVec 14 := 0
  job : Word := 0
  epoch : Half := 0
  payload : DWord := 0
  deriving DecidableEq, Repr

/-- A sync message (06 Table 6.9) with the fence word that travels beside it (06 R221). -/
structure SyncMsg where
  kind : BitVec 4
  id : BitVec 6 := 0
  payload : BitVec 22 := 0
  ctx : BitVec 4 := 0
  gen : BitVec 12 := 0
  isGlobal : Bool := false
  deriving DecidableEq, Repr

/-- Who sent a Delash request: a mailbox, or the BMC's MCTP endpoint (09 R314, R327). -/
inductive Src where
  | mailbox (f : FnId)
  | bmc
  deriving DecidableEq, Repr

/-- The physical test of a tile at its release: the MISR signatures of its LBIST runs, in the order of 11
Table 11.6, and its failing memory words; and whether a core failed to fetch its image. -/
structure TileTest where
  tile : PhysId
  misr : List (BitVec 64) := []
  memFails : Nat := 0
  coreFails : Bool := false
  deriving DecidableEq, Repr

/-- Why a migration starts (11 R400). `eccCe n` brings n corrected errors found just now in the tile's
scratchpad, ACM and private memory (11 Table 11.10). -/
inductive Trigger where
  | eccCe (errors : Nat) | droop | mismatch
  deriving DecidableEq, Repr

/-- How the copy of a migration goes (11 R401, R403, R404): `targetFails n` is a copy whose first
n targets fail before one succeeds. -/
inductive MigrationOutcome where
  | done | sourceLost | targetFails (n : Nat)
  deriving DecidableEq, Repr

/-- A unit of the scrub's pending-zero state in one tile (10 R379). -/
inductive ZeroUnit where
  | spad (kib : Nat)
  | acm (core : Fin 16) (slot : Fin 16)
  | priv (core : Fin 16) (kib : Fin 64)
  deriving DecidableEq, Repr

/-- What a patrol visit or a read finds on a line (07 R243). -/
inductive LineState where
  | clean | corrected | uncorrectable
  deriving DecidableEq, Repr

/-- A sampled output block of a TMM that the checker holds (11 R406, R412, R413): the producing
core and physical tile, the tag of the descriptor its kernel runs for, the block, and the tile's
reading at the block's last step. -/
structure XchkSample where
  core : Nat
  producer : Nat
  tag : Half
  b : Nat
  m : Nat
  n : Nat
  temp : Nat
  /-- What the producer sent the checker: MODE, ANCHOR, the two descriptors, the block's operand rows as
  element codes with their scale bytes, and the 256 elements of the slot. -/
  mode : BitVec 3 := 0
  anchor : Byte := 0
  tda : BitVec 128 := 0
  tdb : BitVec 128 := 0
  rows : List (List (Nat × Nat)) := []
  cols : List (List (Nat × Nat)) := []
  elems : List (BitVec 128) := []
  deriving DecidableEq, Repr

/-- A sensor reading (14, Thermal throttle and trip). -/
inductive Sensor where
  | tile (p : PhysId) | ioDie (d : Fin 2) | gaffer | stack (h : Fin 8)
  deriving DecidableEq, Repr

/-- What a fence takes out of the on-die networks (06 R229). -/
inductive FenceUnit where
  | router (p : PhysId)
  | link (net : Net) (p : PhysId) (d : Dir)
  deriving DecidableEq, Repr

/-- The rails of 14 Table 14.6 that R495 watches. -/
inductive Rail where
  | main54 | aux12
  deriving DecidableEq, Repr

/-- A register that REGISTER_WRITE names (00 R8): through an address port, or of the scalar unit. -/
inductive RegTarget where
  /-- A device address of the register space (01 Table 1.12). -/
  | device (addr : Nat)
  /-- A core local address (04 Table 4.3). -/
  | local (addr : Word)
  /-- A BAR0 offset of the agent's function (09 Table 9.2). -/
  | bar0 (offset : Nat)
  /-- A scalar register, written by an RV32IMAC instruction outside the table. -/
  | xreg (r : XReg)
  /-- A machine CSR by its RISC-V number, written by an instruction outside the table. -/
  | csr (n : BitVec 12)
  /-- SR-IOV NumVFs of the PF, in PCIe configuration space (09 Table 9.1). -/
  | numVfs
  /-- Resizable BAR2 in PCIe configuration space: the log2 size of the PF's or of every VF's (09
  Table 9.1). -/
  | bar2Size (vf : Bool)
  deriving DecidableEq, Repr

end Sys2Proof
end

