-- ==== Sys2Proof/Syntax.lean ====
section
/-! DEFINITION. The commands of the Eokater: one constructor per row of the table of operations
and events, with the operands the row's rule names. -/
namespace Sys2Proof

/-- A command: an instruction of a core, a register write, a host command, an event inside the
device or on a pin (spec/95 and the table of operations). -/
inductive Instr where
  /-- TMM (R93). -/
  | tmm (a : At) (w : Word)
  /-- ACM_INIT (R101). -/
  | acmInit (a : At) (w : Word)
  /-- ACM_STORE (R102). -/
  | acmStore (a : At) (w : Word)
  /-- VRED (R103). -/
  | vred (a : At) (w : Word)
  /-- VCVT (R104). -/
  | vcvt (a : At) (w : Word)
  /-- TFENCE (R105). -/
  | tfence (a : At) (w : Word)
  /-- TSTAT_SLOT (R106). -/
  | tstatSlot (a : At) (w : Word)
  /-- TSTAT_PIPE (R106). -/
  | tstatPipe (a : At) (w : Word)
  /-- TD_LD (R107). -/
  | tdLd (a : At) (w : Word)
  /-- TD_SD (R107). -/
  | tdSd (a : At) (w : Word)
  /-- TD_SETW (R107). -/
  | tdSetw (a : At) (w : Word)
  /-- TD_GETW (R107). -/
  | tdGetw (a : At) (w : Word)
  /-- BTX_HELD_ISSUE (R110). -/
  | btxHeldIssue (c : CoreId)
  /-- BTX_RETIRE (R88). -/
  | btxRetire (c : CoreId) (id : Nat)
  /-- SCALAR_SPD_ACCESS (R128). -/
  | scalarSpdAccess (a : At) (op : ScalarOp) (addr : Word) (r : XReg)
  /-- SCALAR_SPD_ATOMIC (R128). -/
  | scalarSpdAtomic (a : At) (op : AmoOp) (addr : Word) (rd rs2 : XReg)
  /-- SPD_RGN_BASE_WRITE (R132). -/
  | spdRgnBaseWrite (g : Agent) (t : TileId) (n : RegionId) (v : Word)
  /-- SPD_RGN_SIZE_WRITE (R130). -/
  | spdRgnSizeWrite (g : Agent) (t : TileId) (n : RegionId) (v : Word)
  /-- SPD_RGN_OWNER_WRITE (R130). -/
  | spdRgnOwnerWrite (g : Agent) (t : TileId) (n : RegionId) (v : Word)
  /-- SPD_RGN_HEAD_WRITE (R132). -/
  | spdRgnHeadWrite (g : Agent) (t : TileId) (n : RegionId) (v : Word)
  /-- SPD_RGN_TAIL_WRITE (R132). -/
  | spdRgnTailWrite (g : Agent) (t : TileId) (n : RegionId) (v : Word)
  /-- REGION_WRITE_RELEASE (R131). -/
  | regionWriteRelease (t : TileId) (n : RegionId)
  /-- CLAIM_GRANT (R136). -/
  | claimGrant (t : TileId) (n : RegionId) (side : Side)
  /-- CLAIM_COMMIT (R137). -/
  | claimCommit (t : TileId) (n : RegionId) (side : Side) (id : Nat)
  /-- CHN_BIND_WRITE (R143). -/
  | chnBindWrite (g : Agent) (c : CoreId) (i : BindId) (v : Word)
  /-- BIND_WRITE_TAKE_EFFECT (R145). -/
  | bindWriteTakeEffect (c : CoreId) (i : BindId)
  /-- CHN_TX_CMD (R146). -/
  | chnTxCmd (a : At) (v : Word)
  /-- SEND_RELEASE (R146). -/
  | sendRelease (c : CoreId)
  /-- CHAN_MSG (R148). -/
  | chanMsg (p : CtlPacket)
  /-- VA_VB_MEM_STORE (R153). -/
  | vaVbMemStore (c : CoreId) (q : QueueId)
  /-- ACC_ADDEND_APPLY (R153). -/
  | accAddendApply (c : CoreId) (q : QueueId)
  /-- CREDIT (R152). -/
  | credit (p : CtlPacket)
  /-- CHN_RX_POP (R157). -/
  | chnRxPop (a : At) (v : Word)
  /-- CHN_QHEAD_LOAD (R156). -/
  | chnQheadLoad (a : At) (q : QueueId) (i : Fin 6) (rd : XReg)
  /-- TIL_ACT_WRITE (R162). -/
  | tilActWrite (g : Agent) (c : CoreId) (n : ActorId) (v : Word)
  /-- INMASK_WRITE_RELEASE (R163). -/
  | inmaskWriteRelease (c : CoreId) (n : ActorId)
  /-- TIL_SPILL_CFG_WRITE (R162). -/
  | tilSpillCfgWrite (g : Agent) (c : CoreId) (v : Word)
  /-- TIL_FIRE_LOAD (R168). -/
  | tilFireLoad (a : At) (rd : XReg)
  /-- TIL_FIRE_RETIRE (R169). -/
  | tilFireRetire (a : At) (v : Word)
  /-- TIL_PERF_SNAP (R193). -/
  | tilPerfSnap (g : Agent) (c : CoreId) (v : Word)
  /-- PROBE_ROUND (R185). -/
  | probeRound (k : CtxId)
  /-- PACKET_INJECT (R206). -/
  | packetInject (net : Net) (p : PhysId)
  /-- ROUTER_HEADER (R204). -/
  | routerHeader (net : Net) (p : PhysId) (ecc : List FlitError)
  /-- STARVE (R207). -/
  | starve (net : Net) (p : PhysId)
  /-- TIL_BCNT_WRITE (R219). -/
  | tilBcntWrite (g : Agent) (t : TileId) (n : Fin 64) (target : Bool) (v : Word) (credit : Nat)
  /-- ON_DIE_FENCE (R229). -/
  | onDieFence (u : FenceUnit)
  /-- TIL_SYNC_ARRIVE (R223). -/
  | tilSyncArrive (a : At) (v : Word)
  /-- SYNC_BAR_ARRIVE (R223). -/
  | syncBarArrive (k : CtxId) (gen : BitVec 12) (t : TileId) (b : Fin 64)
  /-- SEM_POST (R224). -/
  | semPost (a : At) (v : Word)
  /-- SEM_WAIT (R224). -/
  | semWait (a : At) (v : Word)
  /-- SEM_GRANT (R224). -/
  | semGrant (k : CtxId) (gen : BitVec 12) (sem : Fin 64)
  /-- TIL_BAR_MASK_WRITE (R223). -/
  | tilBarMaskWrite (g : Agent) (t : TileId) (j : Fin 32) (v : Word)
  /-- TIME_TRIPLE (R226). -/
  | timeTriple
  /-- TIL_TIME_LO_READ (R226). -/
  | tilTimeLoRead (g : Agent) (t : TileId) (rd : XReg)
  /-- PLB_TIME_LO_READ (R321). -/
  | plbTimeLoRead (g : Agent)
  /-- MEM_HOME_HOME (R235). -/
  | memHomeHome (src : Src)
  /-- MEM_HOME_RELEASE (R235). -/
  | memHomeRelease (src : Src)
  /-- MEM_HOME_SET_GLOBAL (R233). -/
  | memHomeSetGlobal (src : Src)
  /-- MEM_HOME_SET_SECTOR (R233). -/
  | memHomeSetSector (src : Src)
  /-- BACKGROUND_ZERO_GRANULE (R236). -/
  | backgroundZeroGranule (u : Nat)
  /-- SECTOR_STORE_REQUEST (R241). -/
  | sectorStoreRequest (r : StoreRequest)
  /-- PATROL_SCRUB (R243). -/
  | patrolScrub (line : Nat) (found : LineState)
  /-- ROW_REPAIR (R244). -/
  | rowRepair (ch : ChannelId) (granule : Nat) (spareRow : Bool)
  /-- RECALIBRATION (R245). -/
  | recalibration (ch : ChannelId)
  /-- LIVE_RETRAIN (R245). -/
  | liveRetrain (ch : ChannelId) (ok : Bool)
  /-- DMA (R251). -/
  | dma (f : FnId) (slot : SlotId) (id : Nat)
  /-- TILEFEED (R252). -/
  | tilefeed (f : FnId) (slot : SlotId) (id : Nat)
  /-- TILEFEED_SCALE_WRITE (R252). -/
  | tilefeedScaleWrite (e : EngineId) (place : Fin 2)
  /-- DMA_ACK (R250). -/
  | dmaAck (p : CtlPacket)
  /-- ATOM_FADD (R256). -/
  | atomFadd (a : At) (v : Word)
  /-- ATOM_CSWAP (R256). -/
  | atomCswap (a : At) (v : Word)
  /-- ATOM_SMIN (R256). -/
  | atomSmin (a : At) (v : Word)
  /-- ATOM_SMAX (R256). -/
  | atomSmax (a : At) (v : Word)
  /-- ATOM_UMIN (R256). -/
  | atomUmin (a : At) (v : Word)
  /-- ATOM_UMAX (R256). -/
  | atomUmax (a : At) (v : Word)
  /-- ATOM_CLAIM (R261). -/
  | atomClaim (a : At) (v : Word)
  /-- ATOM_COMMIT (R261). -/
  | atomCommit (a : At) (v : Word)
  /-- ATOM_RETRY (R259). -/
  | atomRetry (a : At) (v : Word)
  /-- ATOM_REQ (R260). -/
  | atomReq (p : CtlPacket)
  /-- ATOM_CAS64 (R260). -/
  | atomCas64 (p : CtlPacket)
  /-- ATOMIC_REQ (R257). -/
  | atomicReq (p : BulkPacket)
  /-- ATOM_RSP (R258). -/
  | atomRsp (p : CtlPacket)
  /-- ATOM_REISSUE_TIMEOUT (R259). -/
  | atomReissueTimeout (c : CoreId)
  /-- LANE_FAILURE (R267). -/
  | laneFailure (p : PortId) (lane : Fin 9)
  /-- CODEWORD (R273). -/
  | codeword (p : PortId) (symbolErrors : Nat) (cw : Codeword)
  /-- FLIT (R275). -/
  | flit (p : PortId) (bytes : List Byte)
  /-- LINK_DOWN (R277). -/
  | linkDown (p : PortId)
  /-- LINK_RETRAIN_END (R269). -/
  | linkRetrainEnd (p : PortId) (rxLanes txLanes : BitVec 9) (peer : BitVec 14) (delay : Half)
  /-- LINK_PACKET_RECEIVE (R279). -/
  | linkPacketReceive (p : PortId) (pkt : LinkPacket)
  /-- LINK_PACKET_EGRESS (R280). -/
  | linkPacketEgress (p : PortId)
  /-- TACK (R294). -/
  | tack (p : PortId) (src : BitVec 14) (cls : BitVec 2) (cum : Half) (bitmap : DWord)
  /-- RETRANSMIT (R295). -/
  | retransmit (cls : BitVec 2) (node : BitVec 14)
  /-- FLOW_TEARDOWN (R296). -/
  | flowTeardown (cls : BitVec 2) (node : BitVec 14)
  /-- FLOW_RECLAIM (R297). -/
  | flowReclaim (cls : BitVec 2) (node : BitVec 14)
  /-- ROUTE_HOLD_COMPLETE (R291). -/
  | routeHoldComplete
  /-- ROUTE_HOLD_TIMEOUT (R291). -/
  | routeHoldTimeout
  /-- ROUTE_HOLD_EXPIRE (R342). -/
  | routeHoldExpire
  /-- SYN_ABORT (R302). -/
  | synAbort (p : PortId) (m : SynMsg)
  /-- SYN_TIME (R304). -/
  | synTime (p : PortId) (m : SynMsg)
  /-- SYN_BAR_ARRIVE (R300). -/
  | synBarArrive (p : PortId) (m : SynMsg)
  /-- SYN_BAR_RELEASE (R300). -/
  | synBarRelease (p : PortId) (m : SynMsg)
  /-- ABORT_REPEAT (R301). -/
  | abortRepeat
  /-- TIME_BEACON_SEND (R304). -/
  | timeBeaconSend
  /-- ALLREDUCE (R308). -/
  | allreduce (f : FnId) (slot : SlotId) (id : Nat)
  /-- REDUCE_SCATTER (R308). -/
  | reduceScatter (f : FnId) (slot : SlotId) (id : Nat)
  /-- ALLGATHER (R307). -/
  | allgather (f : FnId) (slot : SlotId) (id : Nat)
  /-- BROADCAST (R307). -/
  | broadcast (f : FnId) (slot : SlotId) (id : Nat)
  /-- PUT (R309). -/
  | putRemote (f : FnId) (slot : SlotId) (id : Nat)
  /-- GET (R309). -/
  | getRemote (f : FnId) (slot : SlotId) (id : Nat)
  /-- COLLECTIVE_BARRIER (R309). -/
  | collectiveBarrier (f : FnId) (slot : SlotId) (id : Nat)
  /-- COL_DATA (R306). -/
  | colData (p : PortId) (pkt : LinkPacket) (tag : ColTag)
  /-- FLR (R315). -/
  | flr (f : FnId)
  /-- MBX_APT_CTX_WRITE (R317). -/
  | mbxAptCtxWrite (f : FnId) (v : Word)
  /-- BAR2_READ (R318). -/
  | bar2Read (f : FnId) (off len : Nat)
  /-- BAR2_WRITE (R318). -/
  | bar2Write (f : FnId) (off : Nat) (data : List Byte)
  /-- DEBUG_WINDOW_READ (R319). -/
  | debugWindowRead (off : Nat)
  /-- DEBUG_WINDOW_WRITE (R319). -/
  | debugWindowWrite (off : Nat) (v : Word)
  /-- DEBUG_LATE (R320). -/
  | debugLate (write : Bool)
  /-- PLB_ALERT_WRITE (R323). -/
  | plbAlertWrite (g : Agent) (v : Word) (events : BitVec 7)
  /-- PLB_ALERT_EN_WRITE (R323). -/
  | plbAlertEnWrite (g : Agent) (v : Word)
  /-- SMBUS_BLOCK_READ (R325). -/
  | smbusBlockRead (code : Byte) (pec : Bool)
  /-- SMBUS_BLOCK_WRITE (R325). -/
  | smbusBlockWrite (code count : Byte) (data : List Byte) (pec : Option Byte) (events : BitVec 7)
  /-- ALERT_RESPONSE_ADDRESS (R325). -/
  | alertResponseAddress
  /-- MCTP_MESSAGE (R327). -/
  | mctpMessage (bytes : List Byte)
  /-- MBX_GO (R328). -/
  | mbxGo (f : FnId) (v : Word)
  /-- POLL (R331). -/
  | poll (src : Src)
  /-- LONG_OP_COMPLETE (R331). -/
  | longOpComplete (f : FnId) (id : Nat)
  /-- HEARTBEAT (R322). -/
  | heartbeat
  /-- MBX_SQ_TAIL (R354). -/
  | mbxSqTail (f : FnId) (slot : SlotId) (v : Word)
  /-- MBX_CQ_HEAD (R355). -/
  | mbxCqHead (f : FnId) (slot : SlotId) (v : Word)
  /-- DEV_IDENTIFY (R2). -/
  | devIdentify (src : Src)
  /-- DEV_STATUS (R338). -/
  | devStatus (src : Src)
  /-- DEV_SET_PROFILE (R475). -/
  | devSetProfile (src : Src)
  /-- CTX_CREATE (R339). -/
  | ctxCreate (src : Src)
  /-- CTX_DESTROY (R376). -/
  | ctxDestroy (src : Src)
  /-- CTX_ABORT (R428). -/
  | ctxAbort (src : Src)
  /-- CTX_SET_PERIOD (R368). -/
  | ctxSetPeriod (src : Src)
  /-- Q_CREATE (R353). -/
  | qCreate (src : Src)
  /-- Q_DESTROY (R338). -/
  | qDestroy (src : Src)
  /-- PLACE_LOAD (R175). -/
  | placeLoad (src : Src)
  /-- PLACE_DRAIN (R180). -/
  | placeDrain (src : Src)
  /-- PLACE_RESUME (R182). -/
  | placeResume (src : Src)
  /-- LINK_CONFIG_NODE (R338). -/
  | linkConfigNode (src : Src)
  /-- LINK_CONFIG_PORTS (R270). -/
  | linkConfigPorts (src : Src)
  /-- LINK_CONFIG_SYN_GROUP (R300). -/
  | linkConfigSynGroup (src : Src)
  /-- LINK_CONFIG_COL_GROUP (R286). -/
  | linkConfigColGroup (src : Src)
  /-- LINK_CONFIG_DELETE (R338). -/
  | linkConfigDelete (src : Src)
  /-- ROUTE_UPDATE_HOLD (R291). -/
  | routeUpdateHold (src : Src)
  /-- ROUTE_UPDATE_WRITE_RELEASE (R342). -/
  | routeUpdateWriteRelease (src : Src)
  /-- ROUTE_UPDATE_BOTH (R291). -/
  | routeUpdateBoth (src : Src)
  /-- LINK_RETRAIN (R269). -/
  | linkRetrain (src : Src)
  /-- HEALTH_READ (R341). -/
  | healthRead (src : Src)
  /-- HEALTH_CLEAR (R415). -/
  | healthClear (src : Src)
  /-- TRAVERSE_CTL_STATUS (R385). -/
  | traverseCtlStatus (src : Src)
  /-- TRAVERSE_CTL_PAUSE (R391). -/
  | traverseCtlPause (src : Src)
  /-- TRAVERSE_CTL_RESUME (R391). -/
  | traverseCtlResume (src : Src)
  /-- TRAVERSE_CTL_INTERVAL (R390). -/
  | traverseCtlInterval (src : Src)
  /-- XCHK_CTL_STATUS (R412). -/
  | xchkCtlStatus (src : Src)
  /-- XCHK_CTL_ENABLE (R406). -/
  | xchkCtlEnable (src : Src)
  /-- XCHK_CTL_DISABLE (R406). -/
  | xchkCtlDisable (src : Src)
  /-- XCHK_CTL_RATE (R406). -/
  | xchkCtlRate (src : Src)
  /-- DIAG_BIST_RUN (R418). -/
  | diagBistRun (src : Src) (misr : List DWord)
  /-- DIAG_DUMP_READ (R343). -/
  | diagDumpRead (src : Src) (hostOk : Bool)
  /-- SECTOR_RESET (R431). -/
  | sectorReset (src : Src)
  /-- ESCALATION_CFG (R448). -/
  | escalationCfg (src : Src)
  /-- FW_UPDATE_BEGIN (R468). -/
  | fwUpdateBegin (src : Src) (slow : Bool)
  /-- FW_UPDATE_WRITE (R468). -/
  | fwUpdateWrite (src : Src) (host : Option (List Byte)) (slow : Bool)
  /-- FW_UPDATE_COMMIT (R468). -/
  | fwUpdateCommit (src : Src) (slow : Bool)
  /-- FW_UPDATE_ACTIVATE (R468). -/
  | fwUpdateActivate (src : Src)
  /-- FW_UPDATE_CANCEL (R468). -/
  | fwUpdateCancel (src : Src) (slow : Bool)
  /-- LIC_INSTALL (R464). -/
  | licInstall (src : Src) (host : Option (List Byte)) (slow : Bool)
  /-- CFG_WRITE (R471). -/
  | cfgWrite (src : Src) (host : Option (List Byte)) (slow : Bool)
  /-- DESCRIPTOR_FETCH (R359). -/
  | descriptorFetch (f : FnId) (slot : SlotId) (bytes : List Byte)
  /-- KERNEL (R366). -/
  | kernel (f : FnId) (slot : SlotId) (id : Nat)
  /-- BARRIER (R361). -/
  | barrierQueue (f : FnId) (slot : SlotId) (id : Nat)
  /-- SIGNAL (R361). -/
  | signalEvent (f : FnId) (slot : SlotId) (id : Nat)
  /-- WAIT (R361). -/
  | waitEvent (f : FnId) (slot : SlotId) (id : Nat)
  /-- PERIOD_MARK (R361). -/
  | periodMark (f : FnId) (slot : SlotId) (id : Nat)
  /-- TIL_KRN_NEXT (R366). -/
  | tilKrnNext (a : At) (rd : XReg)
  /-- TIL_KRN_DONE (R367). -/
  | tilKrnDone (a : At) (v : Word)
  /-- KERNEL_WATCHDOG (R425). -/
  | kernelWatchdog (f : FnId) (slot : SlotId) (id : Nat)
  /-- PERIOD_BOUNDARY (R370). -/
  | periodBoundary (k : CtxId)
  /-- CTX_TXN_ZERO (R376). -/
  | ctxTxnZero (k : CtxId)
  /-- TEARDOWN_TIMEOUT (R376). -/
  | teardownTimeout (k : CtxId)
  /-- BACKGROUND_ZERO_TILE (R379). -/
  | backgroundZeroTile (t : TileId) (u : ZeroUnit)
  /-- TRAVERSE_STEP (R391). -/
  | traverseStep (s : SectorId) (how : MigrationOutcome)
  /-- LBIST_RUN (R395). -/
  | lbistRun (p : PhysId) (slice : Fin 4) (margin : Bool) (misr : DWord)
  /-- LEHR_VISIT_END (R397). -/
  | lehrVisitEnd (p : PhysId) (memFails : Nat)
  /-- SCAN_NO_ANSWER (R398). -/
  | scanNoAnswer (p : PhysId)
  /-- MIGRATION_TRIGGER (R400). -/
  | migrationTrigger (p : PhysId) (why : Trigger) (how : MigrationOutcome)
  /-- CROSS_CHECK_COMPARE (R408). -/
  | crossCheckCompare (s : SectorId) (flips : List (Nat × BitVec 128)) (how : MigrationOutcome)
  /-- TILE_HARD_FAILURE (R388). -/
  | tileHardFailure (p : PhysId)
  /-- CADASTRE_FLASH_WRITE (R383). -/
  | cadastreFlashWrite (s : SectorId)
  /-- TIL_CORE_FAULT_WRITE (R424). -/
  | tilCoreFaultWrite (a : At) (v : Word)
  /-- TRAP_UNHANDLED (R423). -/
  | trapUnhandled (a : At) (cause tval : Word)
  /-- SECCTL_WATCHDOG (R426). -/
  | secctlWatchdog (s : SectorId) (imageOk busy : Bool)
  /-- GAFFER_WATCHDOG (R427). -/
  | gafferWatchdog
  /-- LOCKSTEP_MISMATCH (R41). -/
  | lockstepMismatch (pair : Fin 2)
  /-- GAFFER_RESTART_END (R427). -/
  | gafferRestartEnd
  /-- GAFFER_RESTART_TIMEOUT (R427). -/
  | gafferRestartTimeout
  /-- SECTOR_RESET_COMPLETE (R431). -/
  | sectorResetComplete (s : SectorId)
  /-- SECTOR_TRAINING_FAIL (R435). -/
  | sectorTrainingFail (s : SectorId) (ch : ChannelId)
  /-- PERST_ASSERT (R438). -/
  | perstAssert
  /-- HOT_RESET (R438). -/
  | hotReset
  /-- PERST_RELEASE (R456). -/
  | perstRelease
  /-- ABORT_IN (R439). -/
  | abortIn
  /-- SYN_PORT_DOWN (R441). -/
  | synPortDown (p : PortId)
  /-- TIME_LOST (R441). -/
  | timeLost
  /-- AUX_POWER_UP (R456). -/
  | auxPowerUp
  /-- AUX_POWER_LOSS (R495). -/
  | auxPowerLoss
  /-- SECTOR_TRAINING_DONE (R459). -/
  | sectorTrainingDone (s : SectorId) (failures : Nat)
  /-- RELEASE_WAVE (R460). -/
  | releaseWave (tests : List TileTest)
  /-- TRAIN_MEMORY (R466). -/
  | trainMemory
  /-- RELEASE_TILES (R466). -/
  | releaseTiles
  /-- FETCH_IMAGES (R466). -/
  | fetchImages
  /-- TRAIN_PORTS (R466). -/
  | trainPorts
  /-- FINISH (R466). -/
  | finish
  /-- SEQ_STEP_END (R466). -/
  | seqStepEnd (tests : List TileTest) (failed : BitVec 16)
  /-- FW_PROMOTION (R470). -/
  | fwPromotion
  /-- PROFILE_PIN_SAMPLE (R474). -/
  | profilePinSample (pins : BitVec 2)
  /-- POWER_CAP_STEP (R483). -/
  | powerCapStep (watts : Nat)
  /-- PWRBRK_ASSERT (R485). -/
  | pwrbrkAssert
  /-- PWRBRK_RELEASE (R485). -/
  | pwrbrkRelease
  /-- THERMAL_SAMPLE (R486). -/
  | thermalSample (readings : List (Sensor × Nat))
  /-- DROOP_TRIP (R480). -/
  | droopTrip (p : PhysId) (cycles : Nat)
  /-- DROOP_REVIEW (R481). -/
  | droopReview (p : PhysId)
  /-- RAIL_FAULT (R495). -/
  | railFault (r : Rail)
  /-- MAIN_RAILS_UP (R494). -/
  | mainRailsUp
  /-- REGISTER_WRITE (R8); `events` are the RW1C bits that hardware sets in the same cycle (R10). -/
  | registerWrite (g : Agent) (t : RegTarget) (v events : Word)
  /-- READ_TO_CLEAR (R11); a core's load writes rd. -/
  | readToClear (g : Agent) (t : RegTarget) (event : Bool) (rd : XReg)
  /-- SECTOR_HW (R431). -/
  | sectorHw (s : SectorId)
  /-- FABRIC_DOMAIN (R436). -/
  | fabricDomain (s : SectorId)
  /-- IO_DIE (R436). -/
  | ioDie (d : Fin 2)
  /-- TACK_SEND (R294). -/
  | tackSend (cls : BitVec 2) (node : BitVec 14)
  /-- ABORT_IN_RELEASE (R439). -/
  | abortInRelease
  /-- MEIP_INTERRUPT (R222). -/
  | meipInterrupt (c : CoreId)
  /-- MRET (R424). -/
  | mret (a : At)
  /-- WFI (R222). -/
  | wfi (a : At)
  /-- TIL_ATOM_RES_LO_LOAD (R258). -/
  | tilAtomResLoLoad (a : At) (rd : XReg)
  deriving DecidableEq, Repr

end Sys2Proof
end

