-- ==== Sys2Proof/WellFormed.lean ====
section
/-! DEFINITION. What a command's operands must be like to be a command of the interface the spec
describes: the lengths of its byte strings and the ranges of its numbers. -/
namespace Sys2Proof

/-- A link packet: LEN is the payload's length, at most 512 bytes (08 Table 8.3, R279). -/
def LinkPacket.wf (p : LinkPacket) : Bool :=
  decide (p.payload.length = p.len.toNat) && decide (p.payload.length ≤ 512)

/-- A bulk packet: its data flits hold its bytes (06 Table 6.3). -/
def BulkPacket.wf (p : BulkPacket) : Bool :=
  decide (p.data.length ≤ 512) && (p.data.isEmpty || decide (p.data.length = p.bytes.toNat))

/-- A request at a sector store stays in one 48-bit address space and is at most 512 bytes long
(07 R241). -/
def StoreRequest.wf (r : StoreRequest) : Bool :=
  decide (r.addr < 2 ^ 48) && decide (r.len ≤ 512) &&
    match r.data with
    | none => true
    | some d => decide (d.length ≤ 512)

/-- A unit of pending-zero state lies in its memory (10 R379). -/
def ZeroUnit.wf : ZeroUnit → Bool
  | .spad kib => decide (kib < 3072)
  | .acm _ _ => true
  | .priv _ _ => true

/-- The operands of a command are as its interface has them. -/
def Instr.wf : Instr → Bool
  | .codeword _ _ cw => decide (cw.units.length = 10) && cw.units.all fun u => decide (u.2.length = 64)
  | .flit _ bytes => decide (bytes.length = 256)
  | .linkPacketReceive _ pkt => pkt.wf
  | .atomicReq p => p.wf
  | .sectorStoreRequest r => r.wf
  | .patrolScrub line _ => decide (line < 2 ^ 41)
  | .rowRepair _ g _ => decide (g < 2 ^ 27)
  | .backgroundZeroGranule u => decide (u < 2 ^ 36)
  | .backgroundZeroTile _ u => u.wf
  | .colData _ pkt _ => pkt.wf
  | .bar2Read _ _ len => decide (1 ≤ len) && decide (len ≤ 4096)
  | .bar2Write _ _ data => decide (1 ≤ data.length) && decide (data.length ≤ 4096)
  | .smbusBlockWrite _ _ data _ _ => decide (data.length ≤ 32)
  | .mctpMessage bytes => decide (bytes.length ≤ 256)
  | .descriptorFetch _ _ bytes => decide (bytes.length = 64)
  | .tilBcntWrite _ _ _ _ _ n => decide (n < 2 ^ 32)
  | .diagBistRun _ misr => decide (misr.length ≤ 4)
  | _ => true

end Sys2Proof
end

