-- ==== Sys2Proof/Decode.lean ====
section
/-! DEFINITION. The command that a word spells by the table of operations. -/
namespace Sys2Proof

/-- No row of the table of operations gives bits: the commands are events of the block, not words.
So no word spells a command. The 32-bit words of the BTX instructions (03 Table 3.5) are operands
of their commands, and Machine/Tensor.lean reads their fields. -/
def decodeTableWord (_nbits _w : Nat) : Option Instr := none

end Sys2Proof
end

