-- ==== Sys2Proof/Config.lean ====
section
/-! DEFINITION. What an implementation fixes and the spec leaves open: free values and constants
without a body, so that no proof can rest on one of their values. -/
namespace Sys2Proof

/-- DESIGN CHOICE (log 1). The n-th free value of width w: any value. -/
opaque Config.free (w n : Nat) : BitVec w

/-- DESIGN CHOICE (log 1). The free value of byte `addr` of a range scrambled with stamp `n`. -/
opaque Config.freeByte (n addr : Nat) : Byte

/-- The module's SERIAL (09 Table 9.10), fused at manufacture. -/
opaque Config.serial : DWord

/-- Whether an ECDSA P-384 licence signature verifies against the fused key (13 R462). -/
opaque Config.licenceSignature (blob : List Byte) : Bool

/-- Whether the ECDSA P-384 signature of a firmware header's first 0xD0 bytes verifies against the fused key
(13 R458, Table 13.11). -/
opaque Config.firmwareSignature (header : List Byte) : Bool

/-- The Benchmark signature of a slice, held in ROM (11, Lehr visits). -/
opaque Config.benchmark (slice : Nat) : DWord

/-- V(f) of a physical tile in mV, from its fused voltage-frequency table (14 R481). -/
opaque Config.voltage (tile mhz : Nat) : Nat

/-- The fused maximum voltage of a physical tile in mV (14 R481). -/
opaque Config.maxVoltage (tile : Nat) : Nat

/-- The escape table that firmware computes around fenced routers and links (06 R208): the output
at a router for a destination, none for ejection. -/
opaque Config.escape (routers : List Nat) (links : List (Nat × Dir)) (router dest : Nat) : Option Dir

/-- Whether the generator of a sector draws its n-th block for the cross-check, with probability 2^-rate
(11 R406 names no generator). -/
opaque Config.xchkDraw (seed : BitVec 64) (n rate : Nat) : Bool

/-- The chunk of an element when COUNT is no multiple of the rank count (08 R308 does not say). -/
opaque Config.chunkOf (count ranks elem : Nat) : Nat

/-- The parent of a rank in the tree of a TREE group (08 R308 does not give its shape). -/
opaque Config.treeParent (ranks rank : Nat) : Nat

/-- The digest of a collective's fields (08 R306 does not give it). -/
opaque Config.colDigest (op dtype redop count peer : Nat) : BitVec 32

/-- Check symbol i, from 0 to 29, of RS(544,514) for a codeword's 514 data symbols (08 R272 names the code and
not its generator). -/
opaque Config.rsCheck (dataSymbols : List (BitVec 10)) (i : Fin 30) : BitVec 10

/-- The lane-control bits that a port sends with a set of active lanes (08 R272 gives no encoding). -/
opaque Config.laneControl (active : List Nat) : BitVec 10

/-- The lane whose failure the peer's lane-control bits name, if they name one (08 R272, log 36). -/
opaque Config.peerLane (control : BitVec 10) : Option (Fin 9)

/-- The SR seed at another rank of a collective, which is that rank's context's own (08 R308, 02 R54). -/
opaque Config.peerSeed (job : BitVec 32) (rank : Nat) : BitVec 64

/-- The srseq with which a collective's results are rounded, the same at every rank (08 R308 names none). -/
opaque Config.colSrseq (job : BitVec 32) (group seq : Nat) : BitVec 27

/-- MAX or MIN of FP32 values of which one is a NaN, in a collective (08 R308 does not say). -/
opaque Config.colNan (isMax : Bool) (a b : BitVec 32) : BitVec 32

/-- MAX or MIN of raw elements of which one is the NaN marker, in a collective. -/
opaque Config.colExactNan (isMax : Bool) (a b : BitVec 128) : BitVec 128

/-- FW_PATCH of the firmware the module ships with (09 Table 9.10; the spec gives 4.1 only). -/
opaque Config.factoryPatch : Half

end Sys2Proof
end

