-- ==== Sys2Proof/Machine/State.lean ====
section
/-! DEFINITION. The state of the Eokater block as plain data, and the state after reset. -/
namespace Sys2Proof.Machine

/-- The model stops on no command: every rule the block's commands follow gives an effect. -/
inductive Fault where
  deriving DecidableEq, Repr

/-- Why the model gives a command no meaning. -/
inductive Refusal where
  /-- Raised by exec for a command whose meaning is not written; safe: nothing is claimed of it. -/
  | notModelled (mnemonic : String)
  deriving DecidableEq, Repr

/-! ### Tile scratchpad (04) -/

/-- A region pointer (04 Table 4.8): the offset from BASE and the WRAP bit. -/
structure Ptr where
  off : Nat := 0
  wrap : Bool := false
  deriving DecidableEq, Repr

/-- Who holds a claim on a circular region (04 R135). -/
inductive Claimant where
  | btx (core id : Nat)
  | port (core queue : Nat)
  | engine (engine place : Nat)
  | spill (core : Nat)
  deriving DecidableEq, Repr

/-- A claim: granted claims have their start, waiting ones do not use it (04 R135, R136). -/
structure Claim where
  id : Nat
  words : Nat
  start : Ptr := {}
  done : Bool := false
  who : Claimant
  deriving DecidableEq, Repr

/-- A claim seen from its claimant. -/
structure ClaimRef where
  tile : Nat
  region : Nat
  side : Side
  id : Nat
  deriving DecidableEq, Repr

/-- The region registers whose writes may be held (04 R131, R114). -/
inductive RgnReg where
  | base | size | owner | head | tail
  deriving DecidableEq, Repr

structure HeldRgn where
  reg : RgnReg
  value : Word
  privileged : Bool
  /-- The number of the tile's next claim when the write arrived: claims from it on wait behind. -/
  stamp : Nat := 0
  deriving DecidableEq, Repr

/-- A region descriptor (04 Tables 4.4 to 4.9). -/
structure Region where
  base : Nat := 0
  circular : Bool := false
  size : Nat := 0
  owner : BitVec 16 := 0
  ctx : Nat := 0
  head : Ptr := {}
  tail : Ptr := {}
  /-- Words that TAIL has passed, counted without end: the model's own, to tell when a strip is behind
  TAIL (07 R252). -/
  taken : Nat := 0
  rhead : Ptr := {}
  rtail : Ptr := {}
  headInit : Ptr := {}
  tailInit : Ptr := {}
  /-- Granted and uncommitted claims, oldest first. -/
  pClaims : List Claim := []
  cClaims : List Claim := []
  /-- Waiting claims, oldest first. -/
  pWait : List Claim := []
  cWait : List Claim := []
  held : List HeldRgn := []
  deriving DecidableEq, Repr

/-- A byte counter (06 Table 6.8). -/
structure Bcnt where
  count : Nat := 0
  target : Nat := 0
  err : Bool := false
  deriving DecidableEq, Repr

/-- The state of a logical tile outside its cores. -/
structure Tile where
  regions : Tab Region := []
  nextClaim : Nat := 0
  badWrite : Bool := false
  conflict : Tab Nat := []
  bcnt : Tab Bcnt := []
  misroute : Nat := 0
  defl : Nat := 0
  timeHi : Word := 0
  barMask : Tab (BitVec 16) := []
  barArrived : Tab (BitVec 16) := []
  /-- Barriers for which the tile has sent its BAR_ARRIVE (06 R223). -/
  barSent : List Nat := []
  heldMask : List (Nat × Word) := []
  /-- Scratchpad reservations of lr.w, by core (04 R128). -/
  resv : Tab Nat := []
  deriving DecidableEq, Repr

/-! ### Cores (02 to 05, 07, 10, 12) -/

/-- The BTX instructions that count as in flight (03 R110), decoded (03 Tables 3.5 and 3.7). -/
inductive BtxOp where
  | tmm (slot : Nat) (mode : BitVec 3) (out : Bool) (tda tdb tdc : Nat) (ctrl : Word)
  | acmInit (slot : Nat) (anchor : BitVec 8)
  | acmStore (slot tdd : Nat) (rnd zero : Bool)
  | vred (tdd tds : Nat) (op : BitVec 3) (rnd : Bool)
  | vcvt (tdd tds : Nat) (rnd : Bool)
  deriving DecidableEq, Repr

/-- An ACM slot (02 Tables 2.5 and 2.6). Elements beyond the list are zero. -/
structure Slot where
  anchor : BitVec 8 := 0
  mode : BitVec 3 := 0
  inexact : Bool := false
  overrange : Bool := false
  invalid : Bool := false
  cvtSat : Bool := false
  elems : List (BitVec 128) := []
  deriving DecidableEq, Repr

/-- A progress record (03 R115): the position (b, visit index, k) at which an instruction stopped, and what it
leaves in the slots and the words that it goes on to write. -/
structure Progress where
  b : Nat := 0
  visit : Nat := 0
  k : Nat := 0
  slots : List (Nat × Slot) := []
  words : List (Nat × Word) := []
  deriving DecidableEq, Repr

/-- An in-flight instruction and its progress record (03 R110, R115): the descriptors it read at
issue (R81), its rounding sequence number, its claims and whether it has taken effect. -/
structure InFlight where
  id : Nat
  op : BtxOp
  td1 : BitVec 128 := 0
  td2 : BitVec 128 := 0
  td3 : BitVec 128 := 0
  srseq : BitVec 27 := 0
  /-- Its claims, one for each streamed descriptor in the order A or D, B or S, C. -/
  claims : List ClaimRef := []
  executed : Bool := false
  /-- Where a drain stopped it; none while it runs (R115). -/
  position : Option Progress := none
  samples : List (Nat × Nat × Nat) := []
  deriving DecidableEq, Repr

/-- A queue entry (04 R142). `spill` is the region and the word offset of its spill record (05 R189);
`uid` is the number of its arrival at the core, by which the model tells entries apart. -/
structure Entry where
  words : List Word
  nw : Nat
  tag : Half
  port : BitVec 3
  param : BitVec 5
  src : Nat
  bind : Nat
  seq : Byte
  spill : Option (Nat × Nat) := none
  uid : Nat := 0
  deriving DecidableEq, Repr

/-- A tracked channel (04 R148). -/
structure Chan where
  src : Nat
  bind : Nat
  expect : Byte
  deriving DecidableEq, Repr

/-- An inbound queue (04 R142, R148, Table 4.15). -/
structure InQueue where
  vis : List Entry := []
  early : List Entry := []
  chans : List Chan := []
  overrun : Bool := false
  portErr : Bool := false
  deriving DecidableEq, Repr

/-- A held write of a binding: its value, and whether the core's own store waits for it (04 R145). -/
structure HeldBind where
  word : Word
  own : Bool
  deriving DecidableEq, Repr

/-- A binding (04 Tables 4.11 and 4.13), with its held writes, oldest first (R145). -/
structure Binding where
  word : Word := 0
  avail : Nat := 0
  nextSeq : Byte := 0
  held : List HeldBind := []
  deriving DecidableEq, Repr

/-- A token (05 R164): the queue and the number of its entry, and its words. -/
structure Token where
  queue : Nat
  uid : Nat
  tag : Half
  words : List Word
  tagOnly : Bool
  deriving DecidableEq, Repr

/-- A matching store entry (05 R165, R166); `ready` is its place in the order of readiness. A fired
entry keeps its handler's address and whether its actor was ORDERED when it fired (R163, R170). -/
structure MsEntry where
  actor : Nat
  tag : Half
  tokens : List Token
  ready : Option Nat := none
  fired : Bool := false
  entry : Nat := 0
  inTurn : Bool := false
  deriving DecidableEq, Repr

/-- A queued kernel call (10 R366) and the descriptor it belongs to. -/
structure Call where
  pc : Half
  args : List Word
  desc : Nat
  deriving DecidableEq, Repr

/-- A request of a core's atomic unit (07 R259). -/
structure AtomLast where
  op : BitVec 3
  size : Bool
  addr : BitVec 48
  opA : DWord
  opB : DWord
  tgl : Bool
  deriving DecidableEq, Repr

/-- A core's atomic unit (07 Table 7.9, R259). -/
structure AtomUnit where
  addr : BitVec 48 := 0
  opA : DWord := 0
  opB : DWord := 0
  busy : Bool := false
  status : BitVec 4 := 0
  tries : Nat := 0
  res : DWord := 0
  toggles : BitVec 16 := 0
  last : Option AtomLast := none
  deriving DecidableEq, Repr

/-- What holds a scalar unit (05 Table 5.10; 03 R105, R106, R110; 04 R145, R146, R156, R157;
05 R163, R168; 07 R258; 10 R366). -/
inductive Wait where
  | fire (rd : Nat)
  | qhead (q i rd : Nat)
  | pop (q : Nat)
  | wfi
  | krnNext (rd : Nat)
  | send (cmd : Word)
  | btxIssue (w : Word)
  | tfence (mask : BitVec 16) (spd : Bool) (upTo : Nat)
  | tstatSlot (slot rd upTo : Nat)
  | bindWrite (i : Nat)
  | inmask (n : Nat) (value : Word)
  | atomCmd (cmd : Word)
  | atomRes (rd : Nat)
  deriving DecidableEq, Repr

inductive RunState where
  /-- Halted: no image, a fault, a boundary or an abort. -/
  | halted
  | running
  /-- Stopped by a drain (05 Table 5.8). -/
  | drained
  deriving DecidableEq, Repr

/-- Machine CSRs of the scalar unit (12 R423, 03 R109, 06 R222). -/
structure Csrs where
  mstatus : Word := 0
  mie : Word := 0
  mtvec : Word := 0
  mscratch : Word := 0
  mepc : Word := 0
  mcause : Word := 0
  mtval : Word := 0
  deriving DecidableEq, Repr

/-- Performance counters (05 Table 5.13), live or as last snapshot. -/
structure Perf where
  count : Tab Nat := []
  qWait : Tab Nat := []
  qFull : Tab Nat := []
  deriving DecidableEq, Repr

/-- The dataflow part of a core (05). -/
structure Dataflow where
  act : Tab Word := []
  actNext : Tab Half := []
  ms : List MsEntry := []
  /-- Tokens that wait unindexed, oldest first. -/
  unindexed : List Token := []
  readyCtr : Nat := 0
  spillCfg : BitVec 6 := 0
  /-- The spill records the core holds, consumed or not: region and word offset (05 R189). -/
  spillRecs : List (Nat × Nat) := []
  badWrite : Bool := false
  /-- Held INMASK writes that no scalar unit waits for (R163). -/
  heldAct : Tab Word := []
  live : Perf := {}
  snap : Perf := {}
  deriving DecidableEq, Repr

/-- The kernel registers of a core (10 Table 10.7). -/
structure Kernels where
  calls : List Call := []
  pc : Half := 0
  args : List Word := []
  /-- The descriptor of the running kernel; RUNNING is set while it is present. -/
  running : Option Nat := none
  deriving DecidableEq, Repr

/-- The sync registers of a core (06 Table 6.10). -/
structure Sync where
  barRel : Bool := false
  semGrant : Bool := false
  barOut : Option Nat := none
  semOut : Option Nat := none
  cfg : BitVec 9 := 0
  deriving DecidableEq, Repr

/-- What a placement load keeps for period boundaries (10 Table 10.8 step 6). -/
structure Kept where
  hasImage : Bool := false
  startPc : Word := 0
  td : Tab (BitVec 128) := []
  next : Tab Half := []
  deriving DecidableEq, Repr

/-- A logical core. -/
structure Core where
  run : RunState := .halted
  pc : Word := 0
  x : Tab Word := []
  csr : Csrs := {}
  inTrap : Bool := false
  wait : Option Wait := none
  /-- The form of the held instruction is 16 bits long. -/
  waitShort : Bool := false
  /-- The core made progress since the last probe round (05 R184). -/
  prog : Bool := false
  td : Tab (BitVec 128) := []
  srseq : BitVec 27 := 0
  btx : List InFlight := []
  nextBtx : Nat := 0
  queues : Tab InQueue := []
  /-- The number of the next entry that arrives. -/
  nextEntry : Nat := 0
  binds : Tab Binding := []
  txData : Tab Word := []
  chnBadWrite : Bool := false
  df : Dataflow := {}
  krn : Kernels := {}
  atom : AtomUnit := {}
  sync : Sync := {}
  kept : Kept := {}
  deriving DecidableEq, Repr

/-! ### Memory (07) -/

/-- A range of bytes whose contents are unpredictable, with the stamp of its free values. -/
structure Scramble where
  lo : Nat
  hi : Nat
  stamp : Nat
  deriving DecidableEq, Repr

/-- A line that a slice of a sector store holds (07 R240): the number of its place, and whether memory has
yet to take it. Its bytes are those of the tier memory, which every access meets through the store. -/
structure CacheLine where
  line : Nat
  dirty : Bool
  deriving DecidableEq, Repr

/-- A memory channel's trouble counters (11 Table 11.10) and its last hold (07 R245). -/
structure MemChannel where
  ce : Nat := 0
  ue : Nat := 0
  rowRepair : Nat := 0
  retrain : Nat := 0
  lastRecal : DWord := 0
  deriving DecidableEq, Repr

/-! ### Contexts and queues (10) -/

inductive CtxState where
  | free | ready | running | drained | aborted | teardown
  deriving DecidableEq, Repr

/-- A context (10 Tables 10.1 and 10.2, R350). -/
structure Ctx where
  st : CtxState := .free
  /-- The queue served last: function and slot as one number (10 R364). -/
  servedQueue : Nat := 255
  sectors : BitVec 16 := 0
  gen : BitVec 12 := 0
  epoch : Half := 0
  fn : Nat := 0
  job : Word := 0
  seed : DWord := 0
  watchdogMs : Nat := 0
  dumpConsent : Bool := false
  global1 : Bool := false
  global2 : Bool := false
  /-- Granules HOMED to the context in SECTOR mode, by number (07 R234). -/
  homed : ISet := []
  periodUs : Nat := 0
  nextBoundary : DWord := 0
  nextPeriodUs : Nat := 0
  periodSeq : Word := 0
  events : Tab Word := []
  sems : Tab Nat := []
  /-- Semaphore waits in the order they reached the root: semaphore and core (06 R224). -/
  semWaits : List (Nat × Nat) := []
  /-- Barriers and the tiles whose BAR_ARRIVE reached the roots (06 R223). -/
  barAt : Tab (List Nat) := []
  placed : Bool := false
  quiesceUs : Nat := 50
  /-- Logical tiles with a tile record in the placement (11 R388). -/
  tileRecs : List Nat := []
  /-- The last probe round that found progress or a core not blocked, or the first round of all (05 R185). -/
  probeSince : Option DWord := none
  progressed : Bool := false
  /-- The teardown step reached (10 Table 10.10), 0 when none. -/
  tdStep : Nat := 0
  drainedAt : Option DWord := none
  /-- Whether the abort in progress or done was adopted from a beacon (12 R428). -/
  dropped : Nat := 0
  aborts : Nat := 0
  deriving DecidableEq, Repr

/-- A descriptor in flight (10 R364): from its fetch until its record is written. -/
structure Desc where
  /-- The number of its fetch over the device. -/
  id : Nat
  bytes : List Byte
  gen : BitVec 12
  period : Word
  sqHead : Nat
  dispatched : Bool := false
  tStart : DWord := 0
  /-- Cores of a KERNEL that have not stored TIL_KRN_DONE (10 R367). -/
  coresLeft : List Nat := []
  firstCode : Byte := 0
  codes : Nat := 0
  /-- Drained time not counted by the kernel watchdog (12 R425). -/
  drainedNs : Nat := 0
  deriving DecidableEq, Repr

/-- A submission and completion ring pair (10 R353 to R356). -/
structure HostQueue where
  present : Bool := false
  ctx : Nat := 0
  sqEntries : Nat := 0
  cqEntries : Nat := 0
  vector : Nat := 0
  sqAddr : DWord := 0
  cqAddr : DWord := 0
  sqHead : Nat := 0
  sqTail : Nat := 0
  cqHead : Nat := 0
  cqTail : Nat := 0
  phase : Bool := true
  /-- Records written and not yet returned by the host. -/
  unreturned : Nat := 0
  stopped : Bool := false
  descs : List Desc := []
  deriving DecidableEq, Repr

/-! ### Delash and the Plumb window (09) -/

/-- The response kept for a reissue (09 R333). -/
structure Saved where
  opcode : Half
  seq : Word
  check : Word
  rsp : List Byte
  deriving DecidableEq, Repr

structure Mailbox where
  req : List Byte := []
  rsp : List Byte := []
  /-- 0 IDLE, 1 PENDING, 2 DONE. -/
  state : Nat := 0
  overrun : Bool := false
  doneEn : Bool := false
  done : Bool := false
  /-- The Gaffer's copy of the request (09 R328). -/
  buf : Option (List Byte) := none
  deriving DecidableEq, Repr

/-- What a long operation waits for (09 R331). -/
inductive Work where
  | teardown (ctx gen : Nat)
  | sectorReset (mask : BitVec 16)
  | linkRetrain (mask : BitVec 16)
  | qDestroy (f slot : Nat)
  /-- Work whose outcome is decided and that takes longer than 10 ms: a placement load with preloads (05
  Table 5.14). -/
  | timed (status : Nat) (payload : List Byte)
  /-- Flash work whose outcome is decided (13 R454). -/
  | flash (status : Nat) (payload : List Byte)
  /-- FW_UPDATE ACTIVATE behind flash work: the restart that it starts (13 Table 13.12). -/
  | activate
  /-- A self-test run of a tile (11 R394, R418), which was a SPARE, which was powered; the runs that fail. -/
  | bist (tile fails : Nat) (spare powered : Bool) (payload : List Byte)
  deriving DecidableEq, Repr

structure LongOp where
  fn : Nat
  id : Half
  opcode : Half
  work : Work
  /-- The context the operation is on, if one (09 R332). -/
  ctx : Option Nat := none
  /-- Status and payload once the work has ended. -/
  final : Option (Byte × List Byte) := none
  deriving DecidableEq, Repr

/-- Aperture registers of a function (09 Table 9.3). -/
structure Aperture where
  base : Nat := 0
  ctx : Nat := 0
  valid : Bool := false
  deriving DecidableEq, Repr

structure Delash where
  mbx : Tab Mailbox := []
  saved : Tab Saved := []
  bmcBuf : Option (List Byte) := none
  /-- Requests in the order of their GO (09 R329). -/
  order : List Src := []
  /-- The context whose queues were served last (10 R364). -/
  servedCtx : Nat := 15
  ops : List LongOp := []
  nextOp : Half := 1
  apt : Tab Aperture := []
  dbgBase : Nat := 0
  dbgLate : Bool := false
  /-- NumVFs and the log2 sizes of BAR2, as the host set them in configuration space (09 Table 9.1);
  a BAR2 it has not resized has the default of the Parison. -/
  numVfs : Nat := 0
  bar2Pf : Option Nat := none
  bar2Vf : Option Nat := none
  /-- Doorbell registers as last written (09 Table 9.6). -/
  sqTail : Tab Word := []
  cqHead : Tab Word := []
  deriving DecidableEq, Repr

/-- PLB_GAFFER.STATE (09 Table 9.4). -/
inductive GafferState where
  | boot | running | restarting | halted | waitHost
  deriving DecidableEq, Repr

/-- The Plumb registers that no other unit's state gives (09 Table 9.4). -/
structure Plumb where
  rev : Word := 0
  /-- PLB_LIFECYCLE.STATE as last placed. -/
  lifecycle : BitVec 3 := 0
  /-- FW_PATCH of the firmware that runs (09 Table 9.10). -/
  fwPatch : Half := 0
  heartbeat : Word := 0
  gaffer : GafferState := .boot
  restarts : Nat := 0
  lastCause : Nat := 0
  cfgDefaulted : Bool := false
  licInvalid : Bool := false
  routeDefaulted : Bool := false
  profileDefaulted : Bool := false
  fwSlotB : Bool := false
  fwFallback : Bool := false
  outOfService : Bool := false
  profile : BitVec 2 := 0
  pins : BitVec 2 := 0
  lastClass : BitVec 3 := 0
  lastSector : BitVec 4 := 0
  lastSectorValid : Bool := false
  faultSeq : Half := 0
  alert : BitVec 7 := 0
  alertEn : BitVec 7 := 0
  /-- Latched TIME_HI by requester: function f, or 16 for the BMC. -/
  timeHi : Tab Word := []
  tjMax : Nat := 0
  hotSector : Nat := 0
  throttle : Nat := 0
  powerW : Nat := 0
  capActive : Bool := false
  deriving DecidableEq, Repr

/-! ### DMA and atomics (07) -/

/-- A READ_REQ whose response an engine awaits (07 R247, R249): its 512 bytes of the place's staging half,
where the bytes go, and whether they are the descriptor's last. -/
structure EngineRead where
  slot : Nat
  dst : Nat
  bytes : Nat
  last : Bool
  deriving DecidableEq, Repr

/-- A place of a DMA engine (07 R247, R254, R255). -/
structure Place where
  /-- Function, slot and descriptor number. -/
  desc : Option (Nat × Nat × Nat) := none
  /-- Rows or strips already taken. -/
  row : Nat := 0
  /-- Packets of the row or strip already issued, and its bytes written. -/
  pkt : Nat := 0
  rowWritten : Nat := 0
  rowsDone : Bool := false
  reads : List EngineRead := []
  /-- For each outstanding WRITE, oldest first, the acknowledgements still due: one for each member. -/
  writes : List Nat := []
  /-- Acknowledgements of refused READ_REQs still due (R250). -/
  readAcks : Nat := 0
  /-- A response came while the descriptor was paused: its row is done again (R255). -/
  redo : Bool := false
  unacked : Nat := 0
  written : Nat := 0
  status : Nat := 0
  paused : Bool := false
  /-- Granted claims not yet committed. -/
  claims : List ClaimRef := []
  /-- A waiting claim of the next row or strip. -/
  waiting : Option ClaimRef := none
  /-- The TILEFEED visit whose scale strip is still to be written, and the start of its element
  strip (07 R252). -/
  scaleDue : Option (Nat × Ptr) := none
  /-- For each visit so far, the count of words passed at which TAIL is behind its strip (07 R252). -/
  strips : List (Nat × Nat) := []
  deriving DecidableEq, Repr

structure Engine where
  p0 : Place := {}
  p1 : Place := {}
  deriving DecidableEq, Repr

/-- A replay cache entry (07 R260). -/
structure Replay where
  tgl : Bool := false
  res : DWord := 0
  status : BitVec 4 := 0
  deriving DecidableEq, Repr

/-! ### On-die networks (06) -/

/-- A translation table entry (06 R198, R214, R227); all sixteen copies are equal. -/
structure Trans where
  phys : Nat := 0
  hold : Bool := false
  withdrawn : Bool := false
  deriving DecidableEq, Repr

/-- A packet in a router's input slot, or at the source (06 R202, R206). -/
structure Transit where
  net : Net
  at_ : Nat
  /-- The input it arrived on; none for a packet that waits at its source. -/
  via : Option Dir := none
  /-- At the source: the local port (0 and 1 the tile's, 2 the sector store's or controller's). -/
  port : Nat := 0
  /-- At the source: the router could not inject it when last tried (04 R146, R206), first at `since`. -/
  blocked : Bool := false
  since : DWord := 0
  /-- Members of a multicast that it passed because their port was full (R213). -/
  later : List Nat := []
  pkt : Packet
  deriving DecidableEq, Repr

structure OnDie where
  trans : Tab Trans := []
  fencedRouters : List Nat := []
  fencedLinks : List (Net × Nat × Dir) := []
  /-- The fences that the escape tables as written go around (R208), and since when every source is held
  for a change of the tables (R228). -/
  escapeFor : List Nat × List (Net × Nat × Dir) := ([], [])
  escapeHold : Option DWord := none
  /-- Packets in input slots, oldest first. -/
  slots : List Transit := []
  /-- Packets waiting at their source, oldest first. -/
  sources : List Transit := []
  /-- Control packets ejected and not yet taken by their receiver. -/
  ejected : List CtlPacket := []
  /-- Atomic requests ejected at a sector store port and not yet performed. -/
  ejectedBulk : List BulkPacket := []
  /-- Routers that saw STARVE and start no new packet on these outputs for one cycle (R207). -/
  starved : List (Net × Nat × Dir) := []
  /-- When a router last asserted STARVE (R207). -/
  starveAt : List (Net × Nat × DWord) := []
  /-- Link uses: network, router, output, context, time (R229). -/
  uses : List (Net × Nat × Dir × Nat × DWord) := []
  /-- Uncorrectable errors of a link within the last second (R216). -/
  linkErrs : List (Net × Nat × Dir × DWord) := []
  deriving DecidableEq, Repr

/-! ### Mirura Link (08) -/

inductive PortState where
  | down | training | up | disabled
  deriving DecidableEq, Repr

/-- A packet at an egress port (08 R280): its context and generation at the source. -/
structure Egress where
  pkt : LinkPacket
  /-- The local context and its generation; none for a packet in transit. -/
  owner : Option (Nat × BitVec 12) := none
  /-- The collective of a COL packet of this module. -/
  col : Option ColTag := none
  /-- It has been counted in LNK_FLOW_FULL (R297). -/
  counted : Bool := false
  deriving DecidableEq, Repr

structure Port where
  st : PortState := .down
  width : Nat := 0
  laneGood : BitVec 9 := 0
  /-- The active lanes, and whether the spare carries traffic. -/
  active : List Nat := []
  spareUsed : Bool := false
  peer : BitVec 14 := 0
  peerValid : Bool := false
  wentDown : Bool := false
  narrowed : Bool := false
  noRouteEv : Bool := false
  noRoute : Nat := 0
  delayNs : Half := 0
  enabled : Bool := false
  heldDown : Bool := false
  crcErr : Nat := 0
  replayCtr : Nat := 0
  laneSpared : Nat := 0
  retrain : Nat := 0
  stomped : Nat := 0
  txSeq : BitVec 12 := 0
  rxExpect : BitVec 12 := 0
  /-- A data flit has been accepted since the link came up: ACK is meaningful (08 Table 8.2). -/
  rxAny : Bool := false
  /-- Replay buffer: sent data flits not yet acknowledged (R275). -/
  replay : List (List Byte) := []
  rxStream : List Byte := []
  /-- Flit units of the flit that is arriving, none where the unit is bad (R273). -/
  rxUnits : List (Option (List Byte)) := []
  /-- Flits joined from their four units and not yet taken, none where a unit was bad (R273). -/
  rxFlits : List (Option (List Byte)) := []
  /-- Messages of good SYN units not yet taken (R298). -/
  rxSyn : List SynMsg := []
  /-- The lane-control bits of the last good codeword (R272). -/
  rxCtl : BitVec 10 := 0
  badCodewords : List DWord := []
  lastGood : DWord := 0
  downSince : Option DWord := none
  /-- Credits held per ingress buffer of the peer, in 64-byte units (R283). -/
  credits : Tab Nat := []
  /-- Bytes in the local ingress buffers (R283). -/
  used : Tab Nat := []
  synQueue : List SynMsg := []
  egress : List Egress := []
  /-- Packet bytes that do not fill a flit yet: the next packet follows them (R274). -/
  txTail : List Byte := []
  /-- A packet being forwarded by cut-through whose rest has not arrived: the port it comes in on,
  and what has come of it, all of it in the stream (R276). -/
  openPkt : Option (Nat × LinkPacket) := none
  /-- COL packets whose credits are still out, oldest first: group (32: none of this module's) and
  units (R286). -/
  colOut : List (Nat × Nat) := []
  /-- COL bytes reserved, 16 KiB per group (R286). -/
  colReserved : Nat := 0
  deriving DecidableEq, Repr

/-- A packet kept in the transport store until a TACK covers it (08 R293, R295). -/
structure Kept1 where
  pkt : LinkPacket
  sentAt : DWord
  /-- The next retransmission interval in µs. -/
  interval : Nat := 20
  owner : Option (Nat × BitVec 12) := none
  col : Option ColTag := none
  /-- The I/O die whose transport store holds it (R293). -/
  die : Nat := 0
  deriving DecidableEq, Repr

/-- The send side of a flow (08 R293 to R297). -/
structure Flow where
  cls : BitVec 2
  dest : BitVec 14
  nextSeq : Half := 0
  kept : List Kept1 := []
  lastTack : DWord := 0
  lastUse : DWord := 0
  /-- The context that owns the flow, if one. -/
  ctx : Option Nat := none
  /-- The acknowledgement record reserved for the flow's TACK packets: the last one (R284). -/
  tackRec : Option (Half × DWord) := none
  deriving DecidableEq, Repr

/-- The receive side of a flow (08 R294). -/
structure RxFlow where
  cls : BitVec 2
  src : BitVec 14
  /-- Lowest FSEQ not yet accepted. -/
  base : Half := 0
  /-- Bit i: base + i has been accepted. -/
  bitmap : DWord := 0
  /-- Accepted packets that no TACK covers yet, and since when. -/
  tackDue : Option DWord := none
  lastUse : DWord := 0
  /-- The context whose job the flow's first packet named, if one held it (R297). -/
  ctx : Option Nat := none
  deriving DecidableEq, Repr

/-- A SYN group (08 R300). -/
structure SynGroup where
  up : Option Nat
  down : BitVec 16
  job : Word
  /-- Barriers begun on the group by this module (R309, log 40). -/
  barSeq : Half := 0
  deriving DecidableEq, Repr

/-- A collective group (08 R305). -/
structure ColGroup where
  ctx : Nat
  tree : Bool
  synGroup : Nat
  rank : Nat
  ranks : List Nat
  seq : Nat := 0
  /-- The ports of its paths, at which it holds a reservation (R286). -/
  ports : List Nat := []
  deriving DecidableEq, Repr

/-- A running collective (08 R306 to R309). -/
structure Collective where
  f : Nat
  slot : Nat
  desc : Nat
  group : Nat
  seq : Nat
  op : Nat
  digest : Word
  /-- Bytes received from each rank, by rank, and which of them. -/
  contrib : Tab (List Byte) := []
  got : Tab ISet := []
  /-- PUT and GET: packets still to be answered, the highest-ranked error. -/
  left : Nat := 0
  status : Nat := 0
  /-- PUT and GET: packets not yet issued, address and bytes, and those that hold room for their answers
  in the engine's 1 MiB reply store (R284). -/
  todo : List (Nat × Nat) := []
  issued : List (Nat × Nat) := []
  /-- BARRIER: its number in the SYN group. -/
  bar : Half := 0
  /-- Bytes written so far. -/
  written : Nat := 0
  deriving DecidableEq, Repr

/-- A piece of a contribution that came before this rank's own descriptor (08 R286, R306). -/
structure ColPiece where
  group : Nat
  rank : Nat
  seq : Nat
  digest : Word
  offset : Nat
  data : List Byte
  deriving DecidableEq, Repr

/-- A route update held (08 R291, R342). -/
structure HeldRoute where
  classes : Byte
  first : Nat
  entries : List Word
  since : DWord
  done : Bool := false
  /-- PHASE BOTH writes and releases at once (R291). -/
  both : Bool := false
  src : Src
  /-- The request that the hold or the release answers. -/
  req : List Byte := []
  deriving DecidableEq, Repr

/-- An accepted ABORT that is repeated (08 R301). -/
structure AbortRep where
  group : Nat
  msg : SynMsg
  left : Nat
  deriving DecidableEq, Repr

structure Fabric where
  ports : Tab Port := []
  routes : Tab (BitVec 14) := []
  held : Option HeldRoute := none
  flows : List Flow := []
  rxFlows : List RxFlow := []
  flowFull : Nat := 0
  syn : Tab (Option SynGroup) := []
  col : Tab (Option ColGroup) := []
  node : Option (BitVec 14) := none
  timeMaster : Option (BitVec 14) := none
  /-- BAR_ARRIVE copies combined per group and sequence: the ports and the module itself. -/
  barSeen : List (Nat × Half × List Nat) := []
  /-- BAR_RELEASE copies accepted per group and sequence. -/
  relSeen : List (Nat × Half) := []
  lastTime : DWord := 0
  lastTimeAt : Option DWord := none
  repeats : List AbortRep := []
  running : List Collective := []
  early : List ColPiece := []
  /-- Packets that wait at their engines for a flow entry or a held route (R291, R297). -/
  waiting : List Egress := []
  /-- Link packets received whole from flits and not yet handled, by port; 16: this module's own
  packets to itself (R290). -/
  arrived : List (Nat × LinkPacket) := []
  /-- Packets received that wait for a flow entry and have been counted (R297). -/
  fullSeen : List LinkPacket := []
  deriving DecidableEq, Repr

/-! ### Self-test and healing (11) -/

inductive CadState where
  | good | spare | lehr | cullet | factoryBad
  deriving DecidableEq, Repr

/-- A Lehr visit in progress (11 R396, R397). -/
structure Visit where
  retest : Bool := false
  /-- Runs passed or failed so far in this phase: slice and whether the margin run. -/
  runs : List (Nat × Bool) := []
  retestRuns : Nat := 0
  anyFail : Bool := false
  nominalFail : Bool := false
  retestFail : Bool := false
  abandoned : Bool := false
  /-- The visit is to start once the tile is below thermal level 2 (14 R487). -/
  waits : Bool := false
  deriving DecidableEq, Repr

/-- A physical tile (11 Tables 11.1, 11.2, 11.10; 14 Table 14.1). -/
structure Phys where
  cad : CadState := .good
  checker : Bool := false
  visited : Bool := false
  marginOnly : Bool := false
  fails : Nat := 0
  index : Option Nat := none
  drift : Byte := 0
  /-- Readings of the last 60 s, newest first: TAVG is their mean (11 Table 11.2). -/
  tempLog : List (DWord × Nat) := []
  fuseBad : Bool := false
  fuseCullet : Bool := false
  lbistFail : Nat := 0
  xchkMismatch : Nat := 0
  eccCe : Nat := 0
  /-- The additions to ECC_CE and to DROOP_EVENT within the last second, newest first (11 R400). -/
  ceTimes : List DWord := []
  droopTimes : List DWord := []
  eccUe : Nat := 0
  /-- Misrouted packets at a tile that carries no logical tile (06 R214). -/
  misroute : Nat := 0
  deflEscape : Nat := 0
  droopEvent : Nat := 0
  spill : Nat := 0
  mismatchAt : List DWord := []
  visit : Option Visit := none
  /-- A run of DIAG_BIST_RUN is in progress, so many mV below nominal voltage (R418). -/
  diag : Option Nat := none
  powered : Bool := false
  temp : Nat := 0
  peak : Nat := 0
  thermLevel : Nat := 0
  droopMv : Nat := 0
  droopMark : Nat := 0
  lastDroop : DWord := 0
  stretched : Nat := 0
  deriving DecidableEq, Repr

/-- PLB_SECTOR_s.STATE (09 Table 9.4). -/
inductive SectorSt where
  | off | up | fenced | resetting | degraded | out
  deriving DecidableEq, Repr

/-- A sector reset in progress (12 R431, R435). -/
structure ResetProg where
  attempts : Nat := 1
  trainFails : Nat := 0
  cause : Half
  deriving DecidableEq, Repr

/-- A fault record (12 Table 12.2). -/
structure FaultRec where
  seq : Word := 0
  cls : Nat
  action : Nat := 0
  cause : Half
  time : DWord := 0
  ctx : Byte := 0xFF
  sector : Byte := 0xFF
  gen : BitVec 12 := 0
  job : Word := 0
  epoch : Half := 0
  unit : Half := 0xFFFF
  lcore : Half := 0xFFFF
  dump : Half := 0
  detail : List Byte := []
  deriving DecidableEq, Repr

/-- A copy of a sector's Cadastre flash record (11 R383): whether its check word matches, and its
tiles by local number; a tile that is not listed is as it left the factory. -/
structure CadRecord where
  valid : Bool := true
  tiles : List (Nat × Phys) := []
  deriving DecidableEq, Repr

structure Sector where
  st : SectorSt := .off
  noSpare : Bool := false
  owner : Option Nat := none
  /-- The owner that PLB_SECTOR_s shows from a module reset until the boot writes it anew (09 R321). -/
  shownOwner : Option Nat := none
  usable : Nat := 0
  resets : Nat := 0
  enabled : Bool := false
  paused : Bool := false
  phase : Nat := 0
  phaseTile : Nat := 0
  cycles : Nat := 0
  intervalMs : Nat := 250
  lastStep : DWord := 0
  xSampled : Nat := 0
  xSkipped : Nat := 0
  xMismatch : Nat := 0
  /-- The seed of the sector's generator, taken at boot, and the blocks it has decided on (11 R406). -/
  xSeed : DWord := 0
  xDraws : Nat := 0
  /-- Sampled blocks held by the checker (11 R408). -/
  drawn : List XchkSample := []
  /-- A migration trigger that waits (11 R400). -/
  migrWait : List (Nat × Trigger) := []
  deferred : Nat := 0
  swapDue : Bool := false
  reset : Option ResetProg := none
  held : List FaultRec := []
  withdrawn : BitVec 32 := 0
  lastWatchdog : Option DWord := none
  rec0 : CadRecord := {}
  rec1 : CadRecord := {}
  cadDirty : Bool := false
  /-- The dump in the sector's dump area, by number (12 R445). -/
  dumpArea : Option Nat := none
  deriving DecidableEq, Repr

/-- Cross-check control (11 R406, R412). -/
structure Xchk where
  enabled : Bool := false
  rateLog2 : Nat := 12
  bins : Tab Nat := []
  deriving DecidableEq, Repr

/-! ### Faults (12) -/

structure Dump where
  num : Nat
  sectors : List Nat
  cause : Half
  cls : Nat
  time : DWord
  ctxs : List Byte
  gens : List (BitVec 12)
  consent : List Bool
  /-- Were the tier-2 packages powered? -/
  tier2 : Bool
  faultSeq : Word
  stamp : Nat
  deriving DecidableEq, Repr

structure Faults where
  /-- The fault log by s mod 1,024 (12 R421). -/
  log : Tab FaultRec := []
  nextSeq : Word := 1
  /-- Records held by the always-on domain (12 R422). -/
  held : List FaultRec := []
  dumps : List Dump := []
  nextDump : Nat := 1
  /-- A dump that firmware takes once it runs again: the sectors, the cause and the record's SEQ (12 R437). -/
  dumpDue : Option (List Nat × Half × Word) := none
  gafferRestarts : List DWord := []
  restartAt : DWord := 0
  /-- LAST_CAUSE that the restart in progress will set (12 R427). -/
  restartCause : Nat := 0
  modFault : Bool := false
  abortIn : Bool := false
  thermTrip : Bool := false
  escOn : Bool := false
  escN : Nat := 3
  escWindow : Nat := 600
  escSince : DWord := 0
  /-- Times at which sector resets began since the mode was turned on (12 R448). -/
  escStarts : List DWord := []
  deriving DecidableEq, Repr

/-! ### Bring-up, flash, power (13, 14) -/

/-- A firmware slot (13 R458, Table 13.11): the image's bytes and what its header says. -/
structure FwSlot where
  bytes : List Byte := []
  authentic : Bool := false
  svn : Nat := 0
  major : Byte := 0
  minor : Byte := 0
  patch : Half := 0
  raiseFloor : Bool := false
  deriving DecidableEq, Repr

/-- A FW_UPDATE session (13 R468). -/
structure FwSession where
  length : Nat
  written : Nat := 0
  committed : Bool := false
  /-- ACTIVATE has been answered; the restart follows (13 Table 13.12). -/
  activating : Bool := false
  deriving DecidableEq, Repr

/-- The trouble counters of ports, memory channels and context IDs, and the cross-check bins, as they are saved
with the Cadastre's records (11 R383, R416). -/
structure CtrRecord where
  ports : Tab Port := []
  channels : Tab MemChannel := []
  ctxs : Tab Ctx := []
  bins : Tab Nat := []
  deriving DecidableEq, Repr

structure Flash where
  slotA : FwSlot := {}
  slotB : FwSlot := {}
  parison0 : List Byte := []
  parison1 : List Byte := []
  lic0 : List Byte := []
  lic1 : List Byte := []
  route0 : List Byte := []
  route1 : List Byte := []
  prof0 : List Byte := []
  prof1 : List Byte := []
  svnFloor : Nat := 0
  session : Option FwSession := none
  /-- Firmware has run from slot B since this time (13 R470). -/
  runningSince : DWord := 0
  activated : Bool := false
  /-- Slot A holds the running release (13 R468). -/
  copied : Bool := true
  counters : CtrRecord := {}
  deriving DecidableEq, Repr

/-- The Parison in use (13 Table 13.3, Default column). -/
structure Parison where
  generation : Word := 0
  smbusAddr : Byte := 0x5C
  mctpAddr : Byte := 0x5D
  vfTotal : Nat := 15
  bar2Log2 : Nat := 36
  vfBar2Log2 : Nat := 32
  waveGapMs : Nat := 2
  trainStaggerMs : Nat := 100
  xchkEnable : Bool := true
  xchkRate : Nat := 12
  traverseMs : Nat := 250
  sectorDisable : BitVec 16 := 0
  portDisable : BitVec 16 := 0
  deriving DecidableEq, Repr

/-- The licence in use (13 Tables 13.2 and 13.6). -/
structure Licence where
  tier : Nat := 0
  sectorMask : BitVec 16 := 0x00FF
  seq : Nat := 0
  deriving DecidableEq, Repr

structure Boot where
  auxOn : Bool := true
  railsOk : Bool := false
  regulators : Bool := false
  perst : Bool := true
  /-- PERST# was released before the regulators were up (14 R494). -/
  bootWaits : Bool := false
  licence : Licence := {}
  parison : Parison := {}
  routeGen : Word := 0
  profGen : Word := 0
  trained : BitVec 16 := 0
  released : BitVec 16 := 0
  imageDone : BitVec 16 := 0
  failed : BitVec 16 := 0
  /-- When the last release wave began (13 R460). -/
  waveAt : Option DWord := none
  /-- The Cadastre of these sectors is being rebuilt (11 R384). -/
  rebuild : BitVec 16 := 0
  portsUp : BitVec 16 := 0
  /-- Ports whose boot training is still to end. -/
  portsTraining : BitVec 16 := 0
  seqSectors : BitVec 16 := 0
  seqPorts : BitVec 16 := 0
  /-- The boot ROM has started firmware since the last module reset (13 Table 13.5 step 4). -/
  begun : Bool := false
  /-- Bring-up is host-sequenced and has not ended (R465): what WAIT_HOST shows. -/
  hostSeq : Bool := false
  seqBusy : Bool := false
  /-- The units of the step that runs. -/
  seqMask : BitVec 16 := 0
  seqActive : Bool := false
  seqRefused : Bool := false
  seqLast : BitVec 4 := 0
  seqResult : Byte := 0
  deriving DecidableEq, Repr

/-- The states of the TAP controller (14 Table 14.5: IEEE 1149.1). -/
inductive TapState where
  | testLogicReset | runTestIdle
  | selectDr | captureDr | shiftDr | exit1Dr | pauseDr | exit2Dr | updateDr
  | selectIr | captureIr | shiftIr | exit1Ir | pauseIr | exit2Ir | updateIr
  deriving DecidableEq, Repr

/-- The TAP: its state, what it drives on TDO, none while that is high-impedance (14 R493), and whether TRST# is
asserted (Table 14.5). -/
structure Tap where
  st : TapState := .testLogicReset
  tdo : Option Bool := none
  trst : Bool := false
  deriving DecidableEq, Repr

structure Power where
  tap : Tap := {}
  pinForce : BitVec 2 := 0
  requested : BitVec 2 := 2
  maxProfile : BitVec 2 := 0
  limitW : Nat := 0
  ceil : Nat := 1000
  gate : Nat := 16
  calm : Nat := 0
  recovering : Bool := false
  pwrbrk : Bool := false
  refresh2x : BitVec 8 := 0
  halved : BitVec 8 := 0
  deriving DecidableEq, Repr

/-! ### The whole block -/

/-- What the block drives outward, newest first. -/
inductive Output where
  | msix (f vector : Nat)
  | hostWrite (f : Nat) (addr : DWord) (bytes : List Byte)
  | pcieData (f : Nat) (bytes : List Byte)
  | pciePoisoned (f : Nat)
  | pcieUnsupported (f : Nat)
  | regData (g : Agent) (v : Word)
  | debugData (v : Word)
  | smbusData (bytes : List Byte)
  | smbusAck
  | smbusNack
  | mctpNack
  | mctpResponse (bytes : List Byte)
  | flit (port : Nat) (bytes : List Byte)
  | syn (port : Nat) (m : SynMsg)
  | colData (group seq : Nat) (digest : Word) (data : List Byte)
  deriving DecidableEq, Repr

/-- The state of the block (INVENTORY.md, State). -/
structure State where
  pending : List Instr := []
  freeCtr : Nat := 0
  out : List Output := []
  deviceTime : DWord := 0
  /-- Slew still to be added, in ns (08 R304). -/
  slewAhead : Nat := 0
  /-- Slew still to be given back at half rate, in ns (08 R304). -/
  slewBack : Nat := 0
  slewPhase : Nat := 0
  /-- The tiles' copy of device time as their last TIME triple set it, and device time then (06 R226). -/
  tileTime : DWord := 0
  tileTimeAt : DWord := 0
  lifecycle : BitVec 3 := 0
  tiles : Tab Tile := []
  cores : Tab Core := []
  slots : Tab Slot := []
  mem : List Host.Cell := []
  priv : List Host.Cell := []
  tierPz : ISet := []
  spadPz : ISet := []
  acmPz : ISet := []
  privPz : ISet := []
  poison : ISet := []
  scrambled : List Scramble := []
  retired : ISet := []
  retireMark : ISet := []
  /-- The sets of the sector stores by sector, slice and set: at most 16 ways, the most recently used
  first (07 R240). -/
  caches : Tab (List CacheLine) := []
  channels : Tab MemChannel := []
  ctxs : Tab Ctx := []
  queues : Tab HostQueue := []
  fetchCtr : Nat := 0
  delash : Delash := {}
  plumb : Plumb := {}
  engines : Tab Engine := []
  replay : Tab Replay := []
  net : OnDie := {}
  fabric : Fabric := {}
  phys : Tab (Option Phys) := []
  sectors : Tab Sector := []
  xchk : Xchk := {}
  faults : Faults := {}
  flash : Flash := {}
  boot : Boot := {}
  power : Power := {}
  deriving DecidableEq, Repr

/-- Slot A as shipped: firmware release 4.1 (00 R1), authentic (log 11). -/
def State.factorySlot : FwSlot where
  authentic := true
  major := 4
  minor := 1
  patch := Config.factoryPatch

/-- The block right after the always-on domain has left reset: every register at the reset value
of its table, PERST# asserted, nothing booted, no command waiting. -/
def State.reset : State where
  flash := { slotA := State.factorySlot }

end Sys2Proof.Machine
end

