-- ==== Sys2Proof/Machine/Clock.lean ====
section
/-! DEFINITION. Device time: one tick of the always-on domain's clock, and its slew (08 R304). -/
namespace Sys2Proof.Machine

/-- The clock's state after a tick of one nanosecond. It runs while the always-on domain is powered (01
R31). Slew ahead adds one part in 1,000, which is
1 ns in every 1,000 (08 R304); slew back lets every second tick pass without a count, so the clock
runs at half rate until the excess is gone. -/
def tick (s : State) : State :=
  if !s.boot.auxOn then s
  else if s.slewAhead ≠ 0 then
    if s.slewPhase + 1 = 1000 then
      { s with deviceTime := s.deviceTime + 2, slewPhase := 0, slewAhead := s.slewAhead - 1 }
    else { s with deviceTime := s.deviceTime + 1, slewPhase := s.slewPhase + 1 }
  else if s.slewBack ≠ 0 then
    if s.slewPhase = 0 then { s with slewPhase := 1, slewBack := s.slewBack - 1 }
    else { s with deviceTime := s.deviceTime + 1, slewPhase := 0 }
  else { s with deviceTime := s.deviceTime + 1, slewPhase := 0 }

/-- What a step does on an empty queue. -/
def idle (s : State) : State := tick s

end Sys2Proof.Machine
end

