-- ==== Sys2Proof/Machine/Store.lean ====
section
/-! DEFINITION. Tables, interval sets, byte memory, byte orders and check words. -/
namespace Sys2Proof.Machine

/-! ### Tables -/

/-- The entry of number `k`, or the table's default. -/
def Tab.get {α : Type} (d : α) : Tab α → Nat → α
  | [], _ => d
  | (j, v) :: t, k => if j = k then v else Tab.get d t k

/-- The table with entry `k` set. -/
def Tab.set {α : Type} : Tab α → Nat → α → Tab α
  | [], k, v => [(k, v)]
  | (j, u) :: t, k, v =>
    if k < j then (k, v) :: (j, u) :: t
    else if j = k then (k, v) :: t
    else (j, u) :: Tab.set t k v

/-- The table with entry `k` changed by `f`. -/
def Tab.mod {α : Type} (d : α) (t : Tab α) (k : Nat) (f : α → α) : Tab α :=
  Tab.set t k (f (Tab.get d t k))

/-- Change the entries of a list of numbers, one after another. -/
def Tab.modAll {α : Type} (d : α) (t : Tab α) (ks : List Nat) (f : Nat → α → α) : Tab α :=
  ks.foldl (fun t k => Tab.mod d t k (f k)) t

/-! ### Interval sets -/

def ISet.mem : ISet → Nat → Bool
  | [], _ => false
  | (lo, hi) :: t, x => (decide (lo ≤ x) && decide (x < hi)) || ISet.mem t x

/-- Take the numbers lo ≤ x < hi out. -/
def ISet.remove (lo hi : Nat) : ISet → ISet
  | [] => []
  | (a, b) :: t =>
    let rest := ISet.remove lo hi t
    let left := if a < min b lo then [(a, min b lo)] else []
    let right := if max a hi < b then [(max a hi, b)] else []
    left ++ right ++ rest

/-- Put the numbers lo ≤ x < hi in. -/
def ISet.insert (lo hi : Nat) (s : ISet) : ISet :=
  if lo < hi then (lo, hi) :: ISet.remove lo hi s else s

/-- Is every number lo ≤ x < hi in? -/
def ISet.covers (s : ISet) (lo hi : Nat) : Bool :=
  (s.foldl (fun left i => ISet.remove i.1 i.2 left) (if lo < hi then [(lo, hi)] else [])).isEmpty

/-- Is any number lo ≤ x < hi in? -/
def ISet.meets (s : ISet) (lo hi : Nat) : Bool :=
  s.any fun i => decide (max i.1 lo < min i.2 hi)

/-- How many numbers are in, when no two intervals meet. -/
def ISet.count (s : ISet) : Nat := (s.map fun i => i.2 - i.1).sum

/-! ### Byte memory in its one canonical form: addresses rising, no entry equal to zero -/

/-- The byte at an address; an address that is not listed reads 0. -/
def Cells.read : List Host.Cell → Nat → Byte
  | [], _ => 0
  | (j, b) :: t, a => if j = a then b else Cells.read t a

/-- Write one byte, keeping the canonical form. -/
def Cells.write : List Host.Cell → Nat → Byte → List Host.Cell
  | [], a, b => if b = 0 then [] else [(a, b)]
  | (j, c) :: t, a, b =>
    if a < j then (if b = 0 then (j, c) :: t else (a, b) :: (j, c) :: t)
    else if j = a then (if b = 0 then t else (a, b) :: t)
    else (j, c) :: Cells.write t a b

/-- The canonical form, for a list whose addresses are at least `lo`. -/
def Cells.wfFrom (lo : Nat) : List Host.Cell → Bool
  | [] => true
  | (j, b) :: t => decide (lo ≤ j) && (b != 0) && Cells.wfFrom (j + 1) t

/-- The canonical form. -/
def Cells.wf (m : List Host.Cell) : Bool := Cells.wfFrom 0 m

/-- Write bytes at rising addresses. -/
def Cells.writeAll (m : List Host.Cell) (a : Nat) : List Byte → List Host.Cell
  | [] => m
  | b :: bs => Cells.writeAll (Cells.write m a b) (a + 1) bs

/-- Clear the bytes lo ≤ a < hi. -/
def Cells.clear (m : List Host.Cell) (lo hi : Nat) : List Host.Cell :=
  m.filter fun c => !(decide (lo ≤ c.1) && decide (c.1 < hi))

/-! ### Bytes (00 R7: little-endian) -/

/-- The value of bytes, least significant first. -/
def leVal : List Byte → Nat
  | [] => 0
  | b :: bs => b.toNat + 256 * leVal bs

/-- `n` bytes of a value, least significant first. -/
def leBytes : Nat → Nat → List Byte
  | 0, _ => []
  | n + 1, v => BitVec.ofNat 8 v :: leBytes n (v / 256)

/-- The field of `size` bytes at `off`; bytes beyond the list read zero. -/
def field (bs : List Byte) (off size : Nat) : Nat := leVal ((bs.drop off).take size)

/-- Are all bytes from `off` on, `size` of them, zero? -/
def zeroBytes (bs : List Byte) (off size : Nat) : Bool := ((bs.drop off).take size).all (· == 0)

/-- Pad with zero bytes, or cut, to `n` bytes. -/
def fit (n : Nat) (bs : List Byte) : List Byte := bs.take n ++ List.replicate (n - bs.length) 0

/-- Replace the bytes from `off` on. -/
def patch (bs : List Byte) (off : Nat) (new : List Byte) : List Byte :=
  fit off bs ++ new ++ bs.drop (off + new.length)

/-! ### Check words -/

/-- One bit of the reflected CRC-32C. -/
def crc32cBit (c : BitVec 32) : BitVec 32 :=
  if c.getLsbD 0 then (c >>> 1) ^^^ 0x82F63B78#32 else c >>> 1

def crc32cByte (c : BitVec 32) (b : Byte) : BitVec 32 :=
  (List.range 8).foldl (fun c _ => crc32cBit c) (c ^^^ b.setWidth 32)

/-- CRC-32C (09 Table 9.7: of no bytes it is 0). PRESUMED (log 13): the Castagnoli polynomial,
reflected, with all-ones start and final inversion. -/
def crc32c (bs : List Byte) : BitVec 32 := ~~~(bs.foldl crc32cByte 0xFFFFFFFF#32)

def crc64Bit (c : BitVec 64) : BitVec 64 :=
  if c.getLsbD 63 then (c <<< 1) ^^^ 0x42F0E1EBA9EA3693#64 else c <<< 1

def crc64Byte (c : BitVec 64) (b : Byte) : BitVec 64 :=
  (List.range 8).foldl (fun c _ => crc64Bit c) (c ^^^ (b.setWidth 64 <<< 56))

/-- CRC-64 with the polynomial of ECMA-182 (08 Table 8.2). PRESUMED (log 13): not reflected, start
zero, no final inversion. -/
def crc64 (bs : List Byte) : BitVec 64 := bs.foldl crc64Byte 0#64

/-! ### Small helpers -/

/-- A saturating count (00, trouble counters; 05 R193). -/
def satAdd (limit a b : Nat) : Nat := min limit (a + b)

/-- Bits [hi:lo] of a number. -/
def bits (v hi lo : Nat) : Nat := (v / 2 ^ lo) % 2 ^ (hi + 1 - lo)

/-- The numbers of the bits that are set, lowest first. -/
def setBits {w : Nat} (m : BitVec w) : List Nat := (List.range w).filter fun i => m.getLsbD i

/-- The number of bits set. -/
def popCount {w : Nat} (m : BitVec w) : Nat := (setBits m).length

/-- The ceiling of log2; 0 for 0 and 1 (03 R97). -/
def ceilLog2 (n : Nat) : Nat := if n ≤ 1 then 0 else Nat.log2 (n - 1) + 1

/-- Sign extension of the low `w` bits of a number. -/
def signed (w v : Nat) : Int :=
  let v := v % 2 ^ w
  if v < 2 ^ (w - 1) then (v : Int) else (v : Int) - 2 ^ w

/-- A number as a mask with one bit. -/
def oneBit (w n : Nat) : BitVec w := BitVec.ofNat w (2 ^ n)

/-- 1 or 0. -/
def bit (b : Bool) : Nat := if b then 1 else 0

end Sys2Proof.Machine
end

