-- ==== Sys2Proof/Machine/Ops.lean ====
section
/-! DEFINITION. The named operations over the parts of the state: cores, tiles, contexts, memory,
outputs, alerts and free values. -/
namespace Sys2Proof.Machine

/-- Every meaning answers a next state through this. -/
abbrev Answer := Host.Outcome State Fault Refusal

/-! ### The parts of the state by number -/

def State.core (s : State) (c : Nat) : Core := Tab.get {} s.cores c
def State.setCore (s : State) (c : Nat) (x : Core) : State := { s with cores := Tab.set s.cores c x }
def State.modCore (s : State) (c : Nat) (f : Core → Core) : State := s.setCore c (f (s.core c))

def State.tile (s : State) (t : Nat) : Tile := Tab.get {} s.tiles t
def State.setTile (s : State) (t : Nat) (x : Tile) : State := { s with tiles := Tab.set s.tiles t x }
def State.modTile (s : State) (t : Nat) (f : Tile → Tile) : State := s.setTile t (f (s.tile t))

def State.region (s : State) (t n : Nat) : Region := Tab.get {} (s.tile t).regions n
def State.setRegion (s : State) (t n : Nat) (r : Region) : State :=
  s.modTile t fun x => { x with regions := Tab.set x.regions n r }
def State.modRegion (s : State) (t n : Nat) (f : Region → Region) : State :=
  s.setRegion t n (f (s.region t n))

def State.ctx (s : State) (k : Nat) : Ctx := Tab.get {} s.ctxs k
def State.setCtx (s : State) (k : Nat) (x : Ctx) : State := { s with ctxs := Tab.set s.ctxs k x }
def State.modCtx (s : State) (k : Nat) (f : Ctx → Ctx) : State := s.setCtx k (f (s.ctx k))

def State.sector (s : State) (n : Nat) : Sector := Tab.get {} s.sectors n
def State.setSector (s : State) (n : Nat) (x : Sector) : State :=
  { s with sectors := Tab.set s.sectors n x }
def State.modSector (s : State) (n : Nat) (f : Sector → Sector) : State :=
  s.setSector n (f (s.sector n))

/-- The queue of slot `j` of function `f`. -/
def State.queue (s : State) (f j : Nat) : HostQueue := Tab.get {} s.queues (f * 16 + j)
def State.setQueue (s : State) (f j : Nat) (x : HostQueue) : State :=
  { s with queues := Tab.set s.queues (f * 16 + j) x }
def State.modQueue (s : State) (f j : Nat) (g : HostQueue → HostQueue) : State :=
  s.setQueue f j (g (s.queue f j))

def State.port (s : State) (p : Nat) : Port := Tab.get {} s.fabric.ports p
def State.setPort (s : State) (p : Nat) (x : Port) : State :=
  { s with fabric := { s.fabric with ports := Tab.set s.fabric.ports p x } }
def State.modPort (s : State) (p : Nat) (f : Port → Port) : State := s.setPort p (f (s.port p))

def State.engine (s : State) (e : Nat) : Engine := Tab.get {} s.engines e
def State.setEngine (s : State) (e : Nat) (x : Engine) : State :=
  { s with engines := Tab.set s.engines e x }

def Engine.place (e : Engine) (i : Nat) : Place := if i = 0 then e.p0 else e.p1
def Engine.setPlace (e : Engine) (i : Nat) (p : Place) : Engine :=
  if i = 0 then { e with p0 := p } else { e with p1 := p }
def State.place (s : State) (e i : Nat) : Place := (s.engine e).place i
def State.modPlace (s : State) (e i : Nat) (f : Place → Place) : State :=
  s.setEngine e ((s.engine e).setPlace i (f (s.place e i)))

def State.mailbox (s : State) (f : Nat) : Mailbox := Tab.get {} s.delash.mbx f
def State.modMailbox (s : State) (f : Nat) (g : Mailbox → Mailbox) : State :=
  { s with delash := { s.delash with mbx := Tab.mod {} s.delash.mbx f g } }

def State.channel (s : State) (n : Nat) : MemChannel := Tab.get {} s.channels n
def State.modChannel (s : State) (n : Nat) (f : MemChannel → MemChannel) : State :=
  { s with channels := Tab.mod {} s.channels n f }

def State.modPlumb (s : State) (f : Plumb → Plumb) : State := { s with plumb := f s.plumb }
def State.modDelash (s : State) (f : Delash → Delash) : State := { s with delash := f s.delash }
def State.modNet (s : State) (f : OnDie → OnDie) : State := { s with net := f s.net }
def State.modFabric (s : State) (f : Fabric → Fabric) : State := { s with fabric := f s.fabric }
def State.modFaults (s : State) (f : Faults → Faults) : State := { s with faults := f s.faults }
def State.modBoot (s : State) (f : Boot → Boot) : State := { s with boot := f s.boot }
def State.modPower (s : State) (f : Power → Power) : State := { s with power := f s.power }
def State.modFlash (s : State) (f : Flash → Flash) : State := { s with flash := f s.flash }

/-! ### Numbers of units (01 Tables 1.1 to 1.4, R18, R19) -/

def tileOf (core : Nat) : Nat := core / 16
def sectorOfTile (t : Nat) : Nat := t / 32
def sectorOfCore (core : Nat) : Nat := core / 512
/-- The logical cores of a tile. -/
def coresOfTile (t : Nat) : List Nat := (List.range 16).map (t * 16 + ·)
/-- The logical tiles of a sector. -/
def tilesOfSector (n : Nat) : List Nat := (List.range 32).map (n * 32 + ·)

def physX (p : Nat) : Nat := p % 24
def physY (p : Nat) : Nat := p / 24
def physAt (px py : Nat) : Nat := py * 24 + px
/-- The sector that contains a physical tile (01, Physical and logical tiles). -/
def sectorOfPhys (p : Nat) : Nat := (physY p / 6) * 4 + physX p / 6
/-- Its local number n = ly * 6 + lx (11 R384). -/
def localOfPhys (p : Nat) : Nat := (physY p % 6) * 6 + physX p % 6
/-- The physical tile with local number n of a sector. -/
def physOfLocal (sec n : Nat) : Nat :=
  physAt ((sec % 4) * 6 + n % 6) ((sec / 4) * 6 + n / 6)

/-- The Cadastre a module leaves the factory with (log 9). -/
def Phys.init (p : Nat) : Phys :=
  if localOfPhys p < 32 then { cad := .good, index := some (localOfPhys p) } else { cad := .spare }

def State.phy (s : State) (p : Nat) : Phys := (Tab.get none s.phys p).getD (Phys.init p)
def State.modPhy (s : State) (p : Nat) (f : Phys → Phys) : State :=
  { s with phys := Tab.set s.phys p (some (f (s.phy p))) }

/-- The physical tiles of a sector, by local number. -/
def physOfSector (sec : Nat) : List Nat := (List.range 36).map (physOfLocal sec)

/-- The logical tile a physical tile carries (11 R382). -/
def State.logicalOf (s : State) (p : Nat) : Option Nat :=
  let x := s.phy p
  match x.cad, x.index with
  | .good, some i => some (sectorOfPhys p * 32 + i)
  | _, _ => none

/-- The physical tile that carries a logical tile. -/
def State.carrier (s : State) (t : Nat) : Option Nat :=
  (physOfSector (sectorOfTile t)).find? fun p => s.logicalOf p == some t

/-! ### Contexts -/

/-- The context that owns a sector. -/
def State.owner (s : State) (sec : Nat) : Option Nat := (s.sector sec).owner
def State.ownerOfTile (s : State) (t : Nat) : Option Nat := s.owner (sectorOfTile t)
def State.ownerOfCore (s : State) (c : Nat) : Option Nat := s.owner (sectorOfCore c)

/-- The sectors of a context, lowest first. -/
def State.sectorsOf (s : State) (k : Nat) : List Nat := setBits (s.ctx k).sectors
def State.tilesOf (s : State) (k : Nat) : List Nat := (s.sectorsOf k).flatMap tilesOfSector
def State.coresOf (s : State) (k : Nat) : List Nat := (s.tilesOf k).flatMap coresOfTile

/-- Does the context own the sector? -/
def State.owns (s : State) (k sec : Nat) : Bool := s.owner sec == some k

/-- Change every core that State lists and the test holds of. The changes used here leave the
default core as it is, so an unlisted core has nothing to change. -/
def State.modCores (s : State) (p : Nat → Bool) (f : Nat → Core → Core) : State :=
  { s with cores := s.cores.map fun e => (e.1, if p e.1 then f e.1 e.2 else e.2) }
def State.modTiles (s : State) (p : Nat → Bool) (f : Nat → Tile → Tile) : State :=
  { s with tiles := s.tiles.map fun e => (e.1, if p e.1 then f e.1 e.2 else e.2) }

/-- Is the core, the tile, in a sector of the context? -/
def State.coreIn (s : State) (k c : Nat) : Bool := s.owner (sectorOfCore c) == some k
def State.tileIn (s : State) (k t : Nat) : Bool := s.owner (sectorOfTile t) == some k

/-! ### Free values, outputs, alerts -/

/-- Take the next free value: its number and the state that has used it (log 1). -/
def State.fresh (s : State) : Nat × State := (s.freeCtr, { s with freeCtr := s.freeCtr + 1 })

def State.emit (s : State) (o : Output) : State := { s with out := o :: s.out }

/-- The bits of PLB_ALERT that are enabled and set. -/
def Plumb.raised (p : Plumb) : BitVec 7 := p.alert &&& p.alertEn

/-- Change PLB_ALERT or its enables; a new enabled bit raises PF vector 1 once (09 R323). -/
def State.setAlerts (s : State) (alert en : BitVec 7) : State :=
  let before := s.plumb.raised
  let s := s.modPlumb fun p => { p with alert := alert, alertEn := en }
  if s.plumb.raised &&& ~~~before = 0 then s else s.emit (.msix 0 1)

/-- Set a bit of PLB_ALERT (09 Table 9.4). -/
def State.alert (s : State) (bit : Nat) : State :=
  s.setAlerts (s.plumb.alert ||| oneBit 7 bit) s.plumb.alertEn

def alertFault : Nat := 0
def alertThermal : Nat := 1
def alertPower : Nat := 2
def alertSector : Nat := 3
def alertLink : Nat := 4
def alertGaffer : Nat := 5
def alertConfig : Nat := 6

/-- Set PLB_SECTOR_s.STATE. -/
def State.setSectorSt (s : State) (n : Nat) (st : SectorSt) : State :=
  if (s.sector n).st = st then s
  else (s.modSector n fun x => { x with st := st }).alert alertSector

/-- Since when a port has been down, once its STATE becomes `st` at `now`: a port that trains after its link
was lost is still down (12 R441, Table 12.10). -/
def downFrom (st : PortState) (since : Option DWord) (now : DWord) : Option DWord :=
  match st with
  | .down => some (since.getD now)
  | .training => since
  | .up | .disabled => none

/-- Set a port's STATE and WIDTH. -/
def State.setPortSt (s : State) (p : Nat) (st : PortState) (width : Nat) : State :=
  let old := (s.port p).st
  let s := s.modPort p fun x => { x with st := st, width := width, downSince := downFrom st x.downSince s.deviceTime }
  if old = st then s else s.alert alertLink

/-- Does firmware serve commands (09 R322, R330)? -/
def State.gafferUp (s : State) : Bool :=
  s.plumb.gaffer == .running || s.plumb.gaffer == .waitHost

/-- May a new Traverse step, check or repair of firmware begin (01 R42)? -/
def State.gafferRuns (s : State) : Bool := s.plumb.gaffer == .running

/-! ### Time -/

/-- Has `ns` passed since `t`? -/
def State.passed (s : State) (t : DWord) (ns : Nat) : Bool :=
  decide (t.toNat + ns ≤ s.deviceTime.toNat)

/-! ### The device address map (01 Table 1.12, R36 to R40) -/

def tier1Size : Nat := 0x4800000000
def tier2Base : Nat := 0x10000000000
def tier2Size : Nat := 0xC000000000
def spadBase : Nat := 0xE0000000000
def regBase : Nat := 0xF0000000000

inductive AddrKind where
  | tier1
  | tier2
  /-- The scratchpad of a logical tile: tile and byte offset. -/
  | spad (tile off : Nat)
  /-- Register space: the offset from its base. -/
  | reg (off : Nat)
  | unpopulated
  deriving DecidableEq, Repr

/-- Has the module tier-2 (01 R39, 13: licence tiers)? -/
def State.hasTier2 (s : State) : Bool := decide (1 ≤ s.boot.licence.tier)

def State.addrKind (s : State) (a : Nat) : AddrKind :=
  if a < tier1Size then .tier1
  else if tier2Base ≤ a ∧ a < tier2Base + tier2Size then
    if s.hasTier2 then .tier2 else .unpopulated
  else if spadBase ≤ a ∧ a < spadBase + 512 * 0x400000 then
    let off := (a - spadBase) % 0x400000
    if off < 0x300000 then .spad ((a - spadBase) / 0x400000) off else .unpopulated
  else if regBase ≤ a ∧ a < regBase + 0x10000000000 then .reg (a - regBase)
  else .unpopulated

def AddrKind.isTier : AddrKind → Bool
  | .tier1 | .tier2 => true
  | _ => false

/-- The device address of byte `off` of a tile's scratchpad. -/
def spadAddr (tile off : Nat) : Nat := spadBase + tile * 0x400000 + off

/-! ### Byte memory: tiers, scratchpads, private memories -/

/-- The number of the pending-zero unit of a scratchpad byte (10 R379). -/
def spadUnit (tile off : Nat) : Nat := tile * 3072 + off / 1024

/-- Is the byte at a device address pending zero (07 R236, 10 R379)? -/
def State.isPending (s : State) (a : Nat) : Bool :=
  if spadBase ≤ a then ISet.mem s.spadPz (spadUnit ((a - spadBase) / 0x400000) ((a - spadBase) % 0x400000))
  else ISet.mem s.tierPz (a / 4096)

/-- The byte at a device address. -/
def State.readByte (s : State) (a : Nat) : Byte :=
  if s.isPending a then 0
  else match s.scrambled.find? fun r => decide (r.lo ≤ a) && decide (a < r.hi) with
    | some r => Config.freeByte r.stamp a
    | none => Cells.read s.mem a

def State.readBytes (s : State) (a n : Nat) : List Byte := (List.range n).map fun i => s.readByte (a + i)

/-- Take a range out of the scrambled ranges. -/
def cutScramble (lo hi : Nat) (rs : List Scramble) : List Scramble :=
  rs.flatMap fun r =>
    (if r.lo < min r.hi lo then [{ r with hi := min r.hi lo }] else []) ++
    (if max r.lo hi < r.hi then [{ r with lo := max r.lo hi }] else [])

/-- Zero a range of tier memory or scratchpad. -/
def State.clearBytes (s : State) (lo hi : Nat) : State :=
  { s with mem := Cells.clear s.mem lo hi, scrambled := cutScramble lo hi s.scrambled }

/-- Before a write, zero the pending unit that holds byte `a` and clear its bit (10 R379). The zeros cover
every line of a tier unit, so none of them stays poisoned (07 R242). -/
def State.settle (s : State) (a : Nat) : State :=
  if s.isPending a then
    if spadBase ≤ a then
      let t := (a - spadBase) / 0x400000
      let off := (a - spadBase) % 0x400000
      let lo := spadAddr t (off / 1024 * 1024)
      { s.clearBytes lo (lo + 1024) with
        spadPz := ISet.remove (spadUnit t off) (spadUnit t off + 1) s.spadPz }
    else
      { s.clearBytes (a / 4096 * 4096) (a / 4096 * 4096 + 4096) with
        tierPz := ISet.remove (a / 4096) (a / 4096 + 1) s.tierPz
        poison := ISet.remove (a / 4096 * 32) (a / 4096 * 32 + 32) s.poison }
  else s

/-- A write to a scratchpad word ends the reservations on it (04 R128; PRESUMED, log 19). -/
def State.endReservations (s : State) (a : Nat) : State :=
  if spadBase ≤ a then
    let t := (a - spadBase) / 0x400000
    let w := (a - spadBase) % 0x400000 / 4
    s.modTiles (· == t) fun _ x => { x with resv := x.resv.filter fun r => r.2 != w }
  else s

/-- Write one byte at a device address. -/
def State.writeByte (s : State) (a : Nat) (b : Byte) : State :=
  let s := (s.settle a).endReservations a
  { s with mem := Cells.write s.mem a b, scrambled := cutScramble a (a + 1) s.scrambled }

def State.writeBytes (s : State) (a : Nat) : List Byte → State
  | [] => s
  | b :: bs => (s.writeByte a b).writeBytes (a + 1) bs

/-- A range becomes unpredictable: every byte is a free value until it is written (log 1). -/
def State.scramble (s : State) (lo hi : Nat) : State :=
  let (n, s) := s.fresh
  { s with mem := Cells.clear s.mem lo hi
           scrambled := ⟨lo, hi, n⟩ :: cutScramble lo hi s.scrambled }

/-- A scratchpad word of a tile (04 R119). -/
def State.readWord (s : State) (t w : Nat) : Word :=
  BitVec.ofNat 32 (leVal (s.readBytes (spadAddr t (4 * w)) 4))
def State.writeWord (s : State) (t w : Nat) (v : Word) : State :=
  s.writeBytes (spadAddr t (4 * w)) (leBytes 4 v.toNat)

/-- Private memory of a core, by byte offset. -/
def State.readPriv (s : State) (c off : Nat) : Byte :=
  if ISet.mem s.privPz (c * 64 + off / 1024) then 0 else Cells.read s.priv (c * 65536 + off)
def State.readPrivBytes (s : State) (c off n : Nat) : List Byte :=
  (List.range n).map fun i => s.readPriv c (off + i)

def State.writePriv (s : State) (c off : Nat) (b : Byte) : State :=
  let u := c * 64 + off / 1024
  let s := if ISet.mem s.privPz u then
      { s with priv := Cells.clear s.priv (u * 1024) (u * 1024 + 1024)
               privPz := ISet.remove u (u + 1) s.privPz }
    else s
  { s with priv := Cells.write s.priv (c * 65536 + off) b }

def State.writePrivBytes (s : State) (c off : Nat) : List Byte → State
  | [] => s
  | b :: bs => (s.writePriv c off b).writePrivBytes c (off + 1) bs

/-! ### Accumulator slots (02 R59, R60; 10 R379) -/

def State.slot (s : State) (c k : Nat) : Slot :=
  let x := Tab.get {} s.slots (c * 16 + k)
  if ISet.mem s.acmPz (c * 16 + k) then { x with elems := [] } else x

/-- Write a slot: a pending slot is zeroed first, which `State.slot` has read already. -/
def State.setSlot (s : State) (c k : Nat) (x : Slot) : State :=
  { s with slots := Tab.set s.slots (c * 16 + k) x
           acmPz := ISet.remove (c * 16 + k) (c * 16 + k + 1) s.acmPz }

/-- Change the slot's state word only; its elements and their pending bit stay. -/
def State.modSlotState (s : State) (c k : Nat) (f : Slot → Slot) : State :=
  { s with slots := Tab.mod {} s.slots (c * 16 + k) f }

def Slot.elem (x : Slot) (i : Nat) : BitVec 128 := x.elems.getD i 0

/-- The sixteen by sixteen elements written out. -/
def Slot.dense (x : Slot) : List (BitVec 128) := (List.range 256).map x.elem

/-- TIL_ACM_SLOT_STATE (02 Table 2.6). -/
def Slot.word (x : Slot) : Word :=
  BitVec.ofNat 32 (x.anchor.toNat + 2 ^ 8 * x.mode.toNat + 2 ^ 12 * bit x.inexact
    + 2 ^ 13 * bit x.overrange + 2 ^ 14 * bit x.invalid + 2 ^ 15 * bit x.cvtSat)

/-! ### The scalar unit -/

/-- Read a scalar register; x0 reads zero. -/
def Core.reg (x : Core) (r : Nat) : Word := if r = 0 then 0 else Tab.get 0 x.x r

/-- Write a scalar register; a write of x0 is discarded. -/
def Core.setReg (x : Core) (r : Nat) (v : Word) : Core :=
  if r = 0 then x else { x with x := Tab.set x.x r v }

/-- Does the core execute: running, and not held by an earlier instruction? -/
def Core.canIssue (x : Core) : Bool := x.run == .running && x.wait.isNone

/-- The instruction at `pc` completes: the scalar unit goes on after it. -/
def Core.advance (x : Core) (pc : Word) (short : Bool) : Core :=
  { x with pc := pc + (if short then 2 else 4), wait := none, waitShort := false, prog := true }

/-- The instruction at `pc` holds the scalar unit. -/
def Core.hold (x : Core) (pc : Word) (short : Bool) (w : Wait) : Core :=
  { x with pc := pc, wait := some w, waitShort := short }

/-- The held instruction completes. -/
def Core.release (x : Core) : Core := x.advance x.pc x.waitShort

/-- Is the trap vector absent (12 R423)? -/
def Core.noVector (x : Core) : Bool := x.csr.mtvec.toNat < 4

/-- Trap entry of RV32 machine mode (PRESUMED, log 15: the RISC-V privileged architecture): mepc,
mcause, mtval saved, MIE moved to MPIE and cleared, MPP set; a vectored mtvec adds 4 x cause for an
interrupt. IN_TRAP is set (12 Table 12.4). -/
def Core.enterTrap (x : Core) (pc cause tval : Word) : Core :=
  let st := x.csr.mstatus
  let mie := st.getLsbD 3
  let st := (st &&& ~~~(0x1888#32)) ||| (if mie then 0x80#32 else 0) ||| 0x1800#32
  let base := x.csr.mtvec &&& ~~~(3#32)
  let target := if cause.getLsbD 31 && x.csr.mtvec.getLsbD 0
    then base + ((cause &&& 0x7FFFFFFF#32) <<< 2) else base
  { x with pc := target, inTrap := true, wait := none, waitShort := false,
           csr := { x.csr with mstatus := st, mepc := pc, mcause := cause, mtval := tval } }

/-- MRET: the status is restored and the scalar unit goes on at mepc; IN_TRAP clears. -/
def Core.returnTrap (x : Core) : Core :=
  let st := x.csr.mstatus
  let mpie := st.getLsbD 7
  let st := (st &&& ~~~(0x1888#32)) ||| (if mpie then 0x8#32 else 0) ||| 0x1880#32
  { x with pc := x.csr.mepc, inTrap := false, csr := { x.csr with mstatus := st } }

/-- Exception codes of RV32 (PRESUMED, log 15). -/
def exIllegal : Word := 2
def exLoadMisaligned : Word := 4
def exLoadAccess : Word := 5
def exStoreMisaligned : Word := 6
def exStoreAccess : Word := 7
/-- mcause of a BTX fault (03 R109). -/
def exBtx : Word := 24
/-- mcause of the machine external interrupt. -/
def irqMei : Word := 0x8000000B

/-! ### Performance counters (05 Table 5.13) -/

/-- Add to a live counter, saturating (05 R193). -/
def Core.count (x : Core) (n : Nat) (k : Nat := 1) : Core :=
  { x with df := { x.df with live := { x.df.live with
      count := Tab.mod 0 x.df.live.count n (satAdd 0xFFFFFFFF · k) } } }

end Sys2Proof.Machine
end

