-- ==== Sys2Proof/Machine/Address.lean ====
section
/-! DEFINITION. Where the byte of a tier address is kept: under the SECTOR-mode device address of its
place in a sector's memory (07 R232; 01 R40). -/
namespace Sys2Proof.Machine

/-! ### Address decoding (07 R232; 01 R40) -/

def sectorBytes1 : Nat := 0x480000000
def sectorBytes2 : Nat := 0xC00000000
def granuleBytes : Nat := 0x200000

/-- Is an address a tier-2 address? -/
def inTier2 (a : Nat) : Bool := decide (tier2Base ≤ a)

/-- The base of the tier of an address and the bytes a sector has of it. -/
def tierBase (a : Nat) : Nat := if inTier2 a then tier2Base else 0
def tierSectorBytes (a : Nat) : Nat := if inTier2 a then sectorBytes2 else sectorBytes1

/-- Is the tier of an address under GLOBAL mode? Its context owns all sectors (R233). -/
def State.isGlobal (s : State) (a : Nat) : Bool :=
  s.ctxs.any fun c => if inTier2 a then c.2.global2 else c.2.global1

/-- The home sector of a tier address. -/
def State.homeSector (s : State) (a : Nat) : Nat :=
  let o := a - tierBase a
  if s.isGlobal a then bits o 14 11 else o / tierSectorBytes a

/-- The offset in the home sector's memory. -/
def State.homeOffset (s : State) (a : Nat) : Nat :=
  let o := a - tierBase a
  if s.isGlobal a then o / 2 ^ 15 * 2 ^ 11 + o % 2 ^ 11 else o % tierSectorBytes a

/-- The place of a byte: the SECTOR-mode address of the same byte. -/
def State.loc (s : State) (a : Nat) : Nat :=
  tierBase a + s.homeSector a * tierSectorBytes a + s.homeOffset a

/-! ### Ranges of addresses -/

/-- Cut a range of addresses at multiples of `m`. -/
def cutAt (m a n : Nat) : List (Nat × Nat) :=
  if n = 0 then []
  else (List.range ((a + n - 1) / m + 1 - a / m)).map fun i =>
    let lo := max a ((a / m + i) * m)
    (lo, min (a + n) ((a / m + i + 1) * m) - lo)

/-- The places of a range of tier addresses: pieces of at most 2 KiB, each in one granule. -/
def State.places (s : State) (a n : Nat) : List (Nat × Nat) :=
  (cutAt 2048 a n).map fun p => (s.loc p.1, p.2)

/-- Make the bytes of a range unpredictable: tier or scratchpad addresses. -/
def State.scrambleRange (s : State) (a n : Nat) : State :=
  if (s.addrKind a).isTier then (s.places a n).foldl (fun t p =>
    ((List.range ((p.1 + p.2 - 1) / 4096 + 1 - p.1 / 4096)).foldl (fun t i =>
      t.settle ((p.1 / 4096 + i) * 4096)) t).scramble p.1 (p.1 + p.2)) s
  else ((cutAt 1024 a n).foldl (fun t p => t.settle p.1) s).scramble a (a + n)

end Sys2Proof.Machine
end

