-- ==== Sys2Proof/Machine/Contain.lean ====
section
/-! DEFINITION. Fault records, descriptor completion, the abort of a context and the exceptions of
a core (12 R420 to R430, R440; 10 Table 10.8). -/
namespace Sys2Proof.Machine

/-! ### Fault records (12 R421, R422) -/

/-- Write a record into the log: its SEQ, which its dump names too, PLB_FAULT and PLB_ALERT.FAULT. A record
of no sector leaves LAST_SECTOR without meaning, a free value (09 Table 9.4; log 1). -/
def State.writeRecord (s : State) (r : FaultRec) : State :=
  let seq := s.faults.nextSeq
  let s := s.modFaults fun x =>
    { x with
      log := Tab.set x.log (seq.toNat % 1024) { r with seq := seq }
      nextSeq := if seq + 1 = 0 then 1 else seq + 1
      dumps := x.dumps.map fun d =>
        if r.dump ≠ 0 ∧ d.num = r.dump.toNat then { d with faultSeq := seq } else d }
  let s := s.modPlumb fun p =>
    { p with lastClass := BitVec.ofNat 3 r.cls
             lastSector := if r.sector = 0xFF then Config.free 4 seq.toNat else r.sector.setWidth 4
             lastSectorValid := r.sector != 0xFF
             faultSeq := seq.setWidth 16 }
  if 2 ≤ r.cls then s.alert alertFault else s

/-- Put a record into a hold of at most 64: a full hold first discards its oldest CORRECTED
record; with none, its oldest record (DEDUCED, log 16). -/
def holdRecord (h : List FaultRec) (r : FaultRec) : List FaultRec :=
  let h := if h.length < 64 then h
    else match h.findIdx? (fun x => x.cls == 1) with
      | some i => h.eraseIdx i
      | none => h.drop 1
  h ++ [r]

/-- Record a fault: at once while firmware runs, and a DEVICE record always with DETAIL zero;
otherwise the record is held. -/
def State.record (s : State) (r : FaultRec) : State :=
  let r := { r with time := s.deviceTime }
  if r.cls = 4 then s.writeRecord { r with detail := [] }
  else if s.plumb.gaffer == .restarting || s.plumb.gaffer == .halted then
    if r.sector.toNat < 16 then
      s.modSector r.sector.toNat fun x => { x with held := holdRecord x.held r }
    else s.modFaults fun x => { x with held := holdRecord x.held r }
  else s.writeRecord r

/-! ### Completion records (10 Table 10.5, R355, R357, R362, R363) -/

/-! Status codes of 09 Table 9.13. -/
def stOk : Nat := 0
def stPending : Nat := 1
def stDroppedLate : Nat := 2
def stAborted : Nat := 3
def stFenced : Nat := 4
def stPoisoned : Nat := 5
def stTimeout : Nat := 6
def stInvalidArg : Nat := 7
def stNoResource : Nat := 8
def stNotLicensed : Nat := 9
def stLifecycle : Nat := 10
def stCheckFailed : Nat := 11
def stBusy : Nat := 12
def stStale : Nat := 13
def stUnsupported : Nat := 14
def stInternal : Nat := 15

/-- Bytes of a descriptor's header (10 Table 10.3). -/
def Desc.type (d : Desc) : Nat := field d.bytes 0 1
def Desc.flags (d : Desc) : Nat := field d.bytes 1 1
def Desc.tag (d : Desc) : Nat := field d.bytes 2 2

/-- The completion record. -/
def Desc.record (d : Desc) (phase : Bool) (status detail : Nat) (t0 t1 : DWord) : List Byte :=
  leBytes 2 d.tag ++ leBytes 1 status ++ leBytes 1 (bit phase) ++ leBytes 2 d.sqHead
    ++ leBytes 2 d.gen.toNat ++ leBytes 4 d.period.toNat ++ leBytes 4 detail
    ++ leBytes 8 t0.toNat ++ leBytes 8 t1.toNat

/-- Write the record of a descriptor of queue `j` of function `f` and take it out of the queue. -/
def State.writeCompletion (s : State) (f j : Nat) (d : Desc) (status detail : Nat) (t0 : DWord) :
    State :=
  let q := s.queue f j
  let rec' := d.record q.phase status detail t0 s.deviceTime
  let wraps := decide (q.cqTail + 1 = q.cqEntries)
  let s := s.setQueue f j
    { q with cqTail := if wraps then 0 else q.cqTail + 1
             phase := if wraps then !q.phase else q.phase
             unreturned := q.unreturned + 1
             descs := q.descs.filter fun x => x.id != d.id }
  let s := s.emit (.hostWrite f (q.cqAddr + BitVec.ofNat 64 (32 * q.cqTail)) rec')
  if d.flags % 2 = 1 then s.emit (.msix f q.vector) else s

/-- Complete a descriptor in flight. T_START is its dispatch time; the spec states none for a
descriptor that ends undispatched later than its fetch, so there it is a free value (log 17). -/
def State.complete (s : State) (f j : Nat) (d : Desc) (status detail : Nat) : State :=
  if d.dispatched then s.writeCompletion f j d status detail d.tStart
  else
    let (n, s) := s.fresh
    s.writeCompletion f j d status detail (Config.free 64 n)

/-- Complete a descriptor with T_START equal to T_END (10 R363). -/
def State.completeNow (s : State) (f j : Nat) (d : Desc) (status : Nat) (detail : Nat := 0) : State :=
  s.writeCompletion f j d status detail s.deviceTime

/-- The descriptor of number `id`, if it is in flight in the queue. -/
def State.desc (s : State) (f j id : Nat) : Option Desc := (s.queue f j).descs.find? (·.id == id)

/-- The queues (function, slot) of a context. -/
def State.queuesOf (s : State) (k : Nat) : List (Nat × Nat) :=
  (s.queues.filter fun q => q.2.present && q.2.ctx == k).map fun q => (q.1 / 16, q.1 % 16)

/-- What DETAIL reports of a KERNEL so far (10 Table 10.5). -/
def Desc.kernelDetail (d : Desc) : Nat :=
  if d.type = 1 then d.firstCode.toNat + 256 * (d.codes % 2 ^ 24) else 0

/-- Bytes that an engine has written for a descriptor, saturating (10 Table 10.5). -/
def State.bytesDone (s : State) (id : Nat) : Nat :=
  match (s.engines.flatMap fun e => [e.2.p0, e.2.p1]).find? (fun p =>
      match p.desc with
      | some d => d.2.2 == id
      | none => false) with
  | some p => min 0xFFFFFFFF p.written
  | none => 0

/-- DETAIL of a descriptor that ends now. -/
def State.detailOf (s : State) (d : Desc) : Nat :=
  if d.type = 1 then d.kernelDetail
  else if d.type = 2 ∨ d.type = 3 then s.bytesDone d.id
  else match s.fabric.running.find? (·.desc == d.id) with
    | some r => min 0xFFFFFFFF r.written
    | none => 0

/-- Bytes that a collective's descriptor leaves at its DST (08 Table 8.8): none for a PUT, GET or BARRIER. -/
def State.dstBytes (s : State) (r : Collective) (d : Desc) : Nat :=
  let sz := field d.bytes 0x20 4 * (match field d.bytes 0x26 1 with
    | 1 => 4 | 2 => 2 | 3 => 4 | 4 => 8 | 5 => 16 | _ => 0)
  let n := match Tab.get none s.fabric.col r.group with
    | some g => g.ranks.length
    | none => 1
  match field d.bytes 0x25 1 with
  | 2 => sz / max 1 n
  | 3 => sz * n
  | 5 | 6 | 7 => 0
  | _ => sz

/-- The destination of an interrupted collective becomes unpredictable (08 R307). -/
def State.scrambleDst (s : State) (r : Collective) : State :=
  match s.desc r.f r.slot r.desc with
  | some d => if s.dstBytes r d = 0 then s else s.scrambleRange (field d.bytes 0x18 8) (s.dstBytes r d)
  | none => s

/-- The destinations of the context's interrupted collectives become unpredictable (08 R307). -/
def State.scrambleCollectives (s : State) (k : Nat) : State :=
  (s.fabric.running.filter fun r => (s.queue r.f r.slot).ctx == k).foldl State.scrambleDst s

/-- Collectives that are interrupted, and the status that they end with (08 R307). -/
def State.endRunning (s : State) (which : Collective → Bool) (status : Nat) : State :=
  (s.fabric.running.filter which).foldl (fun s r =>
    let t := (s.scrambleDst r).modFabric fun x => { x with running := x.running.filter (·.desc != r.desc) }
    match s.desc r.f r.slot r.desc with
    | some d => t.complete r.f r.slot d status (min 0xFFFFFFFF r.written)
    | none => t) s

/-- Complete every descriptor in flight of a context; `status` gives each its status. A collective
that this interrupts leaves its destination unpredictable. -/
def State.completeAll (s : State) (k : Nat) (status : Desc → Nat) : State :=
  (s.queuesOf k).foldl (fun s (q : Nat × Nat) =>
    (s.queue q.1 q.2).descs.foldl (fun s d => s.complete q.1 q.2 d (status d) (s.detailOf d)) s)
    (s.scrambleCollectives k)

/-! ### What boundaries, aborts, loads and teardowns flush -/

/-- R158: the core's queues are emptied with their channel tables and their spill records (05 R192);
every binding gets its credits back and starts at sequence number 0. A held write whose store never completed is dropped with
the halt of its core. -/
def Core.flushQueues (x : Core) : Core :=
  { x with
    queues := x.queues.map fun q => (q.1, { q.2 with vis := [], early := [], chans := [] })
    binds := x.binds.map fun b => (b.1, { b.2 with
      avail := bits b.2.word.toNat 29 26
      nextSeq := 0
      held := b.2.held.filter (!·.own) })
    df := { x.df with spillRecs := [] } }

/-- R259, R260: the toggles are 0 and there is no last request; BUSY clears with the request
(DEDUCED, log 18). -/
def AtomUnit.clear (u : AtomUnit) : AtomUnit := { u with busy := false, tries := 0, toggles := 0, last := none }

/-- R225: the pending bits of a core. -/
def Sync.clear (y : Sync) : Sync :=
  { y with barRel := false, semGrant := false, barOut := none, semOut := none }

/-- R140: every claim is discarded and the pointers return to their initial values. -/
def Region.discard (r : Region) : Region :=
  { r with head := r.headInit, rhead := r.headInit, tail := r.tailInit, rtail := r.tailInit
           pClaims := [], cClaims := [], pWait := [], cWait := [] }

/-- Apply the mask writes that were held (06 R223). -/
def Tile.applyMasks (x : Tile) : Tile :=
  { x with
    barMask := x.heldMask.foldl (fun m (w : Nat × Word) =>
      Tab.set (Tab.set m (2 * w.1) (BitVec.setWidth 16 w.2)) (2 * w.1 + 1)
        (BitVec.setWidth 16 (w.2 >>> 16))) x.barMask
    heldMask := [] }

/-- The tile's part: claims, byte counters (06 R219), barriers (R225), reservations. -/
def Tile.flush (x : Tile) : Tile :=
  Tile.applyMasks
    { x with regions := x.regions.map (fun (e : Nat × Region) => (e.1, e.2.discard)), bcnt := []
             barArrived := [], barSent := [], resv := [] }

/-- A core stops and loses what is in flight (12 Table 12.7 steps 3 and 4, 03 R117). -/
def Core.stop (x : Core) : Core :=
  { x.flushQueues with
    run := .halted, wait := none, waitShort := false, btx := [], krn := {}
    atom := x.atom.clear, sync := x.sync.clear }

/-- The context's own part: events, semaphores, barriers at the roots. -/
def Ctx.flush (x : Ctx) : Ctx := { x with events := [], sems := [], semWaits := [], barAt := [] }

/-- Discard the engine places that a context's descriptors hold (07 R255). -/
def State.dropEngines (s : State) (k : Nat) : State :=
  let mine := (s.queuesOf k)
  let keep := fun (p : Place) => match p.desc with
    | some d => if mine.contains (d.1, d.2.1) then ({} : Place) else p
    | none => p
  { s with engines := s.engines.map fun e => (e.1, { p0 := keep e.2.p0, p1 := keep e.2.p1 }) }

/-- R260: the replay caches of the context's cores. -/
def State.dropReplay (s : State) (k : Nat) : State :=
  { s with replay := s.replay.filter fun r => !s.coreIn k (r.1 % 8192) }

/-- Is a collective group the context's? -/
def State.colOf (s : State) (k g : Nat) : Bool :=
  match Tab.get none s.fabric.col g with
  | some x => x.ctx == k
  | none => false

/-- End the context's collectives and tear its flows down without PEER_LOST (08 R297, R307): the
destination of a collective that moved data is left unpredictable, and pieces that came for its groups
go. -/
def State.dropFabric (s : State) (k : Nat) : State :=
  let other := fun (o : Option (Nat × BitVec 12)) => match o with
    | some o => o.1 != k
    | none => true
  s.modFabric fun x =>
    { x with
      running := x.running.filter fun r => (s.queue r.f r.slot).ctx != k
      early := x.early.filter fun p => !s.colOf k p.group
      flows := (x.flows.filter fun f => f.ctx != some k).map fun (f : Flow) =>
        { f with kept := f.kept.filter fun e => other e.owner }
      rxFlows := x.rxFlows.filter fun f => f.ctx != some k
      waiting := x.waiting.filter fun e => other e.owner
      ports := x.ports.map fun p => (p.1, { p.2 with egress := p.2.egress.filter fun e => other e.owner }) }

/-- At an increase of a context's generation every unit that holds packets of it examines them: those of
the old generation go (10 R375). -/
def State.dropStale (s : State) (k : Nat) : State :=
  let live := fun (o : Option (Nat × BitVec 12)) => match o with
    | some o => o.1 != k || o.2 == (s.ctx k).gen
    | none => true
  s.modFabric fun x =>
    { x with
      flows := x.flows.map fun (f : Flow) => { f with kept := f.kept.filter fun e => live e.owner }
      waiting := x.waiting.filter fun e => live e.owner
      ports := x.ports.map fun p => (p.1, { p.2 with egress := p.2.egress.filter fun e => live e.owner }) }

/-! ### Abort epochs on the fabric (08 R301, R302) -/

/-- The SYN groups of a job. -/
def State.jobGroups (s : State) (job : Word) : List (Nat × SynGroup) :=
  s.fabric.syn.filterMap fun g => match g.2 with
    | some y => if y.job = job ∧ job ≠ 0 then some (g.1, y) else none
    | none => none

/-- The ports of a group. -/
def SynGroup.ports (g : SynGroup) : List Nat :=
  (match g.up with
    | some p => [p]
    | none => []) ++ setBits g.down

/-- Send a SYN message on a port: in the next unit while the port is UP, otherwise it waits
(08 R299). -/
def State.sendSyn (s : State) (p : Nat) (m : SynMsg) : State :=
  if (s.port p).st = .up then s.emit (.syn p m)
  else s.modPort p fun x => { x with synQueue := x.synQueue ++ [m] }

def State.sendSynAll (s : State) (ps : List Nat) (m : SynMsg) : State :=
  ps.foldl (fun s p => s.sendSyn p m) s

def State.nodeId (s : State) : BitVec 14 := s.fabric.node.getD 0

/-- Send a job's ABORT on its groups and keep it for 32 repeats (08 R301, R302). -/
def State.sendAbort (s : State) (job : Word) (epoch : Half) : State :=
  (s.jobGroups job).foldl (fun s g =>
    let m : SynMsg := { kind := 1, group := BitVec.ofNat 6 g.1, src := s.nodeId, job, epoch }
    let s := s.sendSynAll g.2.ports m
    s.modFabric fun x => { x with repeats := x.repeats ++ [{ group := g.1, msg := m, left := 32 }] }) s

/-! ### Context abort (12 Table 12.7) -/

/-- Is the context in a state in which an abort does nothing more (R430)? -/
def Ctx.dead (x : Ctx) : Bool :=
  x.st == .aborted || x.st == .teardown || x.st == .free

/-- Samples drawn of blocks that have not ended, of the cores that `p` holds of, are skipped (11 R410). -/
def State.skipDrawn (s : State) (p : Nat → Bool) : State :=
  let waits := fun (i : InFlight) => if i.executed then 0 else i.samples.length
  let count := fun (x : Core) => (x.btx.map waits).sum
  let s := (s.cores.filter fun e => p e.1 && count e.2 != 0).foldl (fun s e =>
    s.modSector (sectorOfCore e.1) fun x => { x with xSkipped := satAdd 0xFFFFFFFF x.xSkipped (count e.2) }) s
  s.modCores p fun _ x =>
    if count x = 0 then x
    else { x with btx := x.btx.map fun i => if i.executed then i else { i with samples := [] } }

/-- Sampled blocks that the checkers hold for cores of the context, and those drawn that have not ended, are
skipped (11 R410). -/
def State.skipSamples (s : State) (k : Nat) : State :=
  let s := s.skipDrawn (s.coreIn k)
  { s with sectors := s.sectors.map fun e =>
      let gone := e.2.drawn.filter fun d => s.coreIn k d.core
      (e.1, { e.2 with drawn := e.2.drawn.filter fun d => !s.coreIn k d.core
                       xSkipped := satAdd 0xFFFFFFFF e.2.xSkipped gone.length }) }

/-- The flush of steps 3 and 4, which leaves ACM slots, matching stores and core registers as they
stand; a sector under reset keeps its tiles as they stood (R429). -/
def State.abortFlush (s : State) (k : Nat) : State :=
  let live := fun sec => s.owner sec == some k && (s.sector sec).reset.isNone
  let s := s.skipSamples k
  let s := s.modCores (fun c => live (sectorOfCore c)) fun _ x => x.stop
  let s := s.modCores (fun c => s.coreIn k c) fun _ x => { x with run := .halted, wait := none }
  let s := s.modTiles (fun t => live (sectorOfTile t)) fun _ x => x.flush
  ((s.dropEngines k).dropReplay k).dropFabric k |>.modCtx k Ctx.flush

/-- Abort a context; `epoch` is given when the abort is adopted from a beacon. -/
def State.abortCtx (s : State) (k : Nat) (epoch : Option Half := none) : State :=
  let x := s.ctx k
  if x.dead then s
  else
    let e := match epoch with
      | some e => e
      | none => if x.job = 0 then x.epoch else x.epoch + 1
    let s := s.modCtx k fun x =>
      { x with st := .aborted, epoch := e, gen := x.gen + 1, probeSince := none, progressed := false
               aborts := satAdd 0xFFFF x.aborts 1 }
    let s := if epoch.isNone ∧ x.job ≠ 0 then s.sendAbort x.job e else s
    let s := s.completeAll k fun _ => stAborted
    s.abortFlush k

/-! ### Faults by class -/

/-- ACTION values of 12 Table 12.2. -/
def actNone : Nat := 0
def actAbort : Nat := 1
def actReset : Nat := 2
def actMigrate : Nat := 3
def actRestart : Nat := 4
def actOos : Nat := 5
def actOut : Nat := 6

/-- The context part of a fault record: JOB_ID and the epoch after the action; GEN is the one at
detection. -/
def FaultRec.ofCtx (r : FaultRec) (k : Nat) (before after : Ctx) : FaultRec :=
  { r with ctx := BitVec.ofNat 8 k, gen := before.gen, job := before.job, epoch := after.epoch }

/-- A fault that aborts context `k` (CONTAINED or FABRIC): the abort, then its record. SECTOR is
named only where the cause names sector hardware (DEDUCED, log 16). -/
def State.abortFault (s : State) (k cls cause : Nat) (detail : List Byte) (lcore : Half := 0xFFFF)
    (sector : Byte := 0xFF) (unit : Half := 0xFFFF) (epoch : Option Half := none) : State :=
  let before := s.ctx k
  let s := s.abortCtx k epoch
  let r : FaultRec := { cls, cause := BitVec.ofNat 16 cause, sector, lcore, unit, detail
                        action := if before.dead then actNone else actAbort }
  s.record (r.ofCtx k before (s.ctx k))

/-- A contained fault of a context (12 Table 12.1). -/
def State.contained (s : State) (k cause : Nat) (detail : List Byte) (lcore : Half := 0xFFFF)
    (sector : Byte := 0xFF) (unit : Half := 0xFFFF) : State :=
  s.abortFault k 2 cause detail lcore sector unit

/-- A contained fault of the context that owns a core, and the core halts (12 R423, R424). -/
def State.coreFault (s : State) (c cause : Nat) (detail : List Byte) : State :=
  let s := s.modCore c fun x => { x with run := .halted, wait := none, waitShort := false }
  match s.ownerOfCore c with
  | some k => s.contained k cause detail (BitVec.ofNat 16 c)
  | none => s

def causeTrapUnhandled : Nat := 0x0201
def causeTrapDouble : Nat := 0x0202

/-- DETAIL of an unhandled trap: mcause, mepc, mtval. -/
def trapDetail (cause pc tval : Word) : List Byte :=
  leBytes 4 cause.toNat ++ leBytes 4 pc.toNat ++ leBytes 4 tval.toNat

/-- A core takes an exception or an interrupt at `pc` (12 R423, 03 R109): unhandled while
mtvec.BASE is zero, double for a synchronous exception inside a handler, otherwise the handler is
entered. -/
def State.takeTrap (s : State) (c : Nat) (pc cause tval : Word) : State :=
  let x := s.core c
  if x.noVector then s.coreFault c causeTrapUnhandled (trapDetail cause pc tval)
  else if x.inTrap && !cause.getLsbD 31 then s.coreFault c causeTrapDouble (trapDetail cause pc tval)
  else s.setCore c (x.enterTrap pc cause tval)

/-- A load or store access fault of the instruction at `a`. -/
def State.accessFault (s : State) (a : At) (store : Bool) (addr : Word) : State :=
  s.takeTrap a.core a.pc (if store then exStoreAccess else exLoadAccess) addr

/-! ### Ports that go down (12 R441) -/

/-- The SYN groups with a job that name a port (12 R441). -/
def State.synJobs (s : State) (p : Nat) : List Word :=
  s.fabric.syn.filterMap fun g => match g.2 with
    | some y => if y.job ≠ 0 ∧ (y.up = some p ∨ y.down.getLsbD p) then some y.job else none
    | none => none

def causeLinkDown : Nat := 0x0505

/-- A port that goes down and that no job's SYN group names records LINK_DOWN (12 R441). -/
def State.recordDown (s : State) (p : Nat) : State :=
  if (s.synJobs p).isEmpty then
    s.record { cls := 5, action := actNone, cause := BitVec.ofNat 16 causeLinkDown, detail := leBytes 1 p }
  else s

/-- A port becomes DOWN. It goes down now only when its link stood: not when it has been down since an
earlier loss or since boot (12 R441). -/
def State.portDown (s : State) (p : Nat) : State :=
  let x := s.port p
  let s := s.setPortSt p .down 0
  if x.downSince.isNone ∧ (x.st = .up ∨ x.st = .training) then s.recordDown p else s

end Sys2Proof.Machine
end

