-- ==== Sys2Proof/Machine/Regions.lean ====
section
/-! DEFINITION. Scratchpad regions: descriptors, pointers, claims and the writes of their registers
(04 R126 to R140, Tables 4.4 to 4.10). -/
namespace Sys2Proof.Machine

/-! ### Who writes a tile register -/

/-- A register write at a tile by an agent. A core's own store needs a free scalar unit in that
tile and completes, also where the write it makes is held (DESIGN CHOICE, log 20: 04 R131 says of no region
write that it holds the scalar unit); the debug window reaches registers in MANUFACTURE and RMA only (09 R319); a
host or the BMC has no address for them. -/
def State.tileWrite (s : State) (g : Agent) (t : Nat) (f : State → State) : State :=
  match g with
  | .core a =>
    if (s.core a.core).canIssue && decide (tileOf a.core = t) then
      (f s).modCore a.core (·.advance a.pc a.short)
    else s
  | .net | .firmware => f s
  | .debug => if s.lifecycle = 0 ∨ s.lifecycle = 4 then f s else s
  | .host _ | .bmc => s

/-- Is the agent firmware (04 R130, 05 R162)? -/
def privileged : Agent → Bool
  | .firmware => true
  | _ => false

/-! ### Pointers (04 R135) -/

def Ptr.adv (p : Ptr) (size n : Nat) : Ptr :=
  if size ≤ p.off + n then { off := p.off + n - size, wrap := !p.wrap } else { p with off := p.off + n }

/-- Words between a head and a tail. -/
def fill (size : Nat) (h t : Ptr) : Nat :=
  if h.wrap == t.wrap then h.off - t.off else size - t.off + h.off

/-- The pointer registers' layout (04 Table 4.8). -/
def Ptr.word (p : Ptr) : Word := BitVec.ofNat 32 (p.off + 2 ^ 20 * bit p.wrap)
def Ptr.ofWord (v : Word) : Ptr := { off := bits v.toNat 19 0, wrap := v.getLsbD 20 }

def Region.baseWord (r : Region) : Word := BitVec.ofNat 32 (r.base + 2 ^ 20 * bit r.circular)
def Region.ownerWord (r : Region) : Word := BitVec.ofNat 32 (r.owner.toNat + 2 ^ 16 * r.ctx)

/-- SPD_RGN_STATUS (04 Table 4.9). -/
def Region.statusWord (r : Region) : Word :=
  BitVec.ofNat 32 (fill r.size r.head r.tail % 2 ^ 20
    + 2 ^ 20 * bit (r.head == r.tail)
    + 2 ^ 21 * bit (r.head.off == r.tail.off && r.head.wrap != r.tail.wrap)
    + 2 ^ 22 * r.pClaims.length + 2 ^ 27 * r.cClaims.length)

/-! ### Use of a region (04 R129; 03 R87) -/

/-- Enabled for the context that owns the tile's sector (R129). -/
def State.enabled (s : State) (t n : Nat) : Bool :=
  let r := s.region t n
  r.size != 0 && s.ownerOfTile t == some r.ctx

/-- Enabled, and OWNER includes the core. -/
def State.usable (s : State) (c n : Nat) : Bool :=
  s.enabled (tileOf c) n && (s.region (tileOf c) n).owner.getLsbD (c % 16)

/-- Does a run of scratchpad bytes lie wholly within a region the core may use (R128)? -/
def State.coreReaches (s : State) (c off n : Nat) : Bool :=
  (List.range 32).any fun i =>
    let r := s.region (tileOf c) i
    s.usable c i && decide (4 * r.base ≤ off) && decide (off + n ≤ 4 * (r.base + r.size))

/-- Does the word lie in an enabled region of the context (R134)? -/
def State.engineReaches (s : State) (k t w : Nat) : Bool :=
  (List.range 32).any fun i =>
    let r := s.region t i
    r.size != 0 && decide (r.ctx = k) && s.ownerOfTile t == some k
      && decide (r.base ≤ w) && decide (w < r.base + r.size)

/-- The word address of offset `off` of a region, modulo SIZE in a CIRCULAR one. -/
def Region.wordAt (r : Region) (off : Nat) : Nat :=
  r.base + (if r.circular && r.size != 0 then off % r.size else off)

/-! ### Claims (04 R135 to R138) -/

def Region.granted (r : Region) : Side → List Claim
  | .producer => r.pClaims
  | .consumer => r.cClaims

def Region.waiting (r : Region) : Side → List Claim
  | .producer => r.pWait
  | .consumer => r.cWait

/-- Is there room, or data, for a claim of `n` words, with fewer than 16 granted (R135, R136)? -/
def Region.canGrant (r : Region) (side : Side) (n : Nat) : Bool :=
  decide ((r.granted side).length < 16) &&
  match side with
  | .producer => decide (n + fill r.size r.rhead r.tail ≤ r.size)
  | .consumer => decide (n ≤ fill r.size r.head r.rtail)

/-- Grant a claim: it owns the words from the reserved pointer on, which advances. -/
def Region.grant (r : Region) (side : Side) (k : Claim) : Region :=
  match side with
  | .producer => { r with pClaims := r.pClaims ++ [{ k with start := r.rhead }]
                          rhead := r.rhead.adv r.size k.words }
  | .consumer => { r with cClaims := r.cClaims ++ [{ k with start := r.rtail }]
                          rtail := r.rtail.adv r.size k.words }

/-- Does a claim wait behind a held write of BASE, SIZE, HEAD or TAIL? A held write of OWNER holds no claim (R131). -/
def Region.behindHeld (r : Region) (k : Claim) : Bool :=
  match r.held.find? (·.reg != .owner) with
  | none => false
  | some h => decide (h.stamp ≤ k.id)

/-- Request a claim: granted at once when nothing waits before it and there is room, otherwise it
waits, also behind a held register write (R131, R136). -/
def Region.request (r : Region) (side : Side) (k : Claim) : Region :=
  if (r.waiting side).isEmpty && !r.behindHeld k && r.canGrant side k.words then r.grant side k
  else match side with
    | .producer => { r with pWait := r.pWait ++ [k] }
    | .consumer => { r with cWait := r.cWait ++ [k] }

/-- Would a claim requested now be held by no register write? -/
def Region.unheld (r : Region) : Bool := r.held.all (·.reg == .owner)

/-- Grant the oldest waiting claim of a side if it can be granted (R136). -/
def Region.grantNext (r : Region) (side : Side) : Region :=
  match r.waiting side with
    | [] => r
    | k :: rest =>
      if !r.behindHeld k && r.canGrant side k.words then
        (match side with
          | .producer => { r with pWait := rest }
          | .consumer => { r with cWait := rest }).grant side k
      else r

/-- Move the committed pointer over the finished claims at the front, with fuel. -/
def Region.passFuel (side : Side) : Nat → Region → Region
  | 0, r => r
  | n + 1, r =>
    match r.granted side with
    | [] => r
    | k :: rest =>
      if k.done then
        Region.passFuel side n
          (match side with
            | .producer => { r with pClaims := rest, head := r.head.adv r.size k.words }
            | .consumer =>
            { r with cClaims := rest, tail := r.tail.adv r.size k.words, taken := r.taken + k.words })
      else r

/-- A claim finishes and commits in claim order (R137). -/
def Region.finish (r : Region) (side : Side) (id : Nat) : Region :=
  let mark := fun (k : Claim) => if k.id = id then { k with done := true } else k
  let r := { r with pClaims := match side with
                      | .producer => r.pClaims.map mark
                      | .consumer => r.pClaims
                    cClaims := match side with
                      | .producer => r.cClaims
                      | .consumer => r.cClaims.map mark }
  r.passFuel side (r.granted side).length

/-- Is a claim granted? -/
def Region.claim (r : Region) (side : Side) (id : Nat) : Option Claim :=
  (r.granted side).find? (·.id == id)

/-- Request a claim of a tile's region; the reference and the state. -/
def State.requestClaim (s : State) (t n : Nat) (side : Side) (words : Nat) (who : Claimant) :
    ClaimRef × State :=
  let id := (s.tile t).nextClaim
  let s := s.modTile t fun x => { x with nextClaim := id + 1 }
  (⟨t, n, side, id⟩, s.modRegion t n fun r => r.request side { id, words, who })

def State.claimOf (s : State) (k : ClaimRef) : Option Claim := (s.region k.tile k.region).claim k.side k.id
def State.finishClaim (s : State) (k : ClaimRef) : State :=
  s.modRegion k.tile k.region fun r => r.finish k.side k.id

/-- The words a granted claim owns, as scratchpad word addresses in order. -/
def Region.claimWords (r : Region) (k : Claim) : List Nat :=
  (List.range k.words).map fun i => r.wordAt (k.start.off + i)

/-! ### Writes of region registers (04 R130 to R132, 03 R114) -/

/-- The regions an in-flight instruction names (03 R114). -/
def tdRegion (d : BitVec 128) : Nat := bits d.toNat 24 20
def tdMx (d : BitVec 128) : Bool := d.getLsbD 29
def tdScaleRegion (d : BitVec 128) : Nat := bits d.toNat 108 104

/-- The descriptors an in-flight instruction uses. -/
def InFlight.tds (i : InFlight) : List (BitVec 128) :=
  match i.op with
  | .tmm _ _ out _ _ _ _ => [i.td1, i.td2] ++ (if out then [i.td3] else [])
  | .acmInit _ _ => []
  | .acmStore _ _ _ _ => [i.td1]
  | .vred _ _ _ _ => [i.td1, i.td2]
  | .vcvt _ _ _ => [i.td1, i.td2]

def InFlight.names (i : InFlight) (n : Nat) : Bool :=
  i.tds.any fun d => tdRegion d == n || (tdMx d && tdScaleRegion d == n)

/-- Does an in-flight BTX instruction of the tile name the region? -/
def State.btxNames (s : State) (t n : Nat) : Bool :=
  (coresOfTile t).any fun c => (s.core c).btx.any (·.names n)

/-- Must a write of the register be held (R131; for OWNER, R114 alone)? -/
def State.rgnBusy (s : State) (t n : Nat) (reg : RgnReg) : Bool :=
  let r := s.region t n
  s.btxNames t n ||
    (reg != .owner && !(r.pClaims.isEmpty && r.cClaims.isEmpty && r.pWait.isEmpty && r.cWait.isEmpty))

/-- R130: is the write refused? BASE has no value above 786,431 (Tables 4.5 and 4.17, R160). -/
def Region.refuses (r : Region) (h : HeldRgn) : Bool :=
  match h.reg with
  | .base => decide (786431 < bits h.value.toNat 19 0) || decide (786432 < bits h.value.toNat 19 0 + r.size)
  | .size => decide (786432 < r.base + bits h.value.toNat 19 0)
  | .owner => false
  | .head | .tail => r.size != 0 && decide (r.size ≤ bits h.value.toNat 19 0)

/-- Words that a reset of the pointers leaves behind are passed (07 R252). -/
def Region.pass (r : Region) (gone : Bool) : Region :=
  if gone then { r with taken := r.taken + fill r.size r.head r.tail } else r

/-- R132: reset all pointers when BASE, SIZE or MODE changed. -/
def Region.resetPtrs (r : Region) (changed : Bool) : Region :=
  if changed then
    { r with head := {}, tail := {}, rhead := {}, rtail := {}, headInit := {}, tailInit := {} }
  else r

/-- The effect of an accepted write. -/
def Region.apply (r : Region) (h : HeldRgn) : Region :=
  match h.reg with
  | .base =>
    let b := bits h.value.toNat 19 0
    let m := h.value.getLsbD 20
    let new := b != r.base || m != r.circular
    ({ r.pass new with base := b, circular := m }).resetPtrs new
  | .size =>
    let n := bits h.value.toNat 19 0
    ({ r.pass (n != r.size) with size := n }).resetPtrs (n != r.size)
  | .owner =>
    { r with owner := h.value.setWidth 16
             ctx := if h.privileged then bits h.value.toNat 19 16 else r.ctx }
  | .head => let p := Ptr.ofWord h.value; { r with head := p, rhead := p, headInit := p }
  | .tail =>
    let p := Ptr.ofWord h.value
    { r with tail := p, rtail := p, tailInit := p, taken := r.taken + fill r.size p r.tail }

/-- Check and perform a write: refused with BAD_WRITE, or applied. -/
def State.applyRgn (s : State) (t n : Nat) (h : HeldRgn) : State :=
  if (s.region t n).refuses h then s.modTile t fun x => { x with badWrite := true }
  else s.modRegion t n (·.apply h)

/-- A write of a region register: refused at once, held, or applied. A write behind an earlier held
write is held with it and checked when its turn comes (DEDUCED, log 20). -/
def State.writeRgn (s : State) (t n : Nat) (h : HeldRgn) : State :=
  let r := s.region t n
  let h := { h with stamp := (s.tile t).nextClaim }
  if !r.held.isEmpty then s.modRegion t n fun r => { r with held := r.held ++ [h] }
  else if r.refuses h then s.modTile t fun x => { x with badWrite := true }
  else if s.rgnBusy t n h.reg then s.modRegion t n fun r => { r with held := r.held ++ [h] }
  else s.modRegion t n (·.apply h)

/-- SPD_RGN_BASE_WRITE (04 R131, R132). -/
def execSpdRgnBaseWrite (g : Agent) (t : TileId) (n : RegionId) (v : Word) (s : State) : Answer :=
  .next (s.tileWrite g t fun s => s.writeRgn t n ⟨.base, v, privileged g, 0⟩)

/-- SPD_RGN_SIZE_WRITE (04 R130, R131, R132). -/
def execSpdRgnSizeWrite (g : Agent) (t : TileId) (n : RegionId) (v : Word) (s : State) : Answer :=
  .next (s.tileWrite g t fun s => s.writeRgn t n ⟨.size, v, privileged g, 0⟩)

/-- SPD_RGN_OWNER_WRITE (04 R130). -/
def execSpdRgnOwnerWrite (g : Agent) (t : TileId) (n : RegionId) (v : Word) (s : State) : Answer :=
  .next (s.tileWrite g t fun s => s.writeRgn t n ⟨.owner, v, privileged g, 0⟩)

/-- SPD_RGN_HEAD_WRITE (04 R130, R132). -/
def execSpdRgnHeadWrite (g : Agent) (t : TileId) (n : RegionId) (v : Word) (s : State) : Answer :=
  .next (s.tileWrite g t fun s => s.writeRgn t n ⟨.head, v, privileged g, 0⟩)

/-- SPD_RGN_TAIL_WRITE (04 R130, R132). -/
def execSpdRgnTailWrite (g : Agent) (t : TileId) (n : RegionId) (v : Word) (s : State) : Answer :=
  .next (s.tileWrite g t fun s => s.writeRgn t n ⟨.tail, v, privileged g, 0⟩)

/-- Release the oldest held write if the region is quiet now: claims that wait behind the write do
not hold it (R131). An instruction that names the region counts as in flight also when it issued
after the write was held (DEDUCED, log 20). -/
def State.releaseRgn (s : State) (t n : Nat) : State :=
  let r := s.region t n
  match r.held with
  | [] => s
  | h :: rest =>
    if s.btxNames t n || (h.reg != .owner && !(r.pClaims.isEmpty && r.cClaims.isEmpty
        && r.pWait.all r.behindHeld && r.cWait.all r.behindHeld)) then s
    else (s.modRegion t n fun r => { r with held := rest }).applyRgn t n h

/-- REGION_WRITE_RELEASE (04 R131). -/
def execRegionWriteRelease (t : TileId) (n : RegionId) (s : State) : Answer :=
  .next (s.releaseRgn t n)

end Sys2Proof.Machine
end

