-- ==== Sys2Proof/Machine/Channels.lean ====
section
/-! DEFINITION. Message channels and dataflow firing: bindings, sends, inbound queues, tokens, the
matching store (04 R141 to R160; 05 R161 to R171). -/
namespace Sys2Proof.Machine

/-! ### Control packets -/

/-- The translation entry of a logical tile (06 R198). -/
def State.transOf (s : State) (t : Nat) : Trans := Tab.get {} s.net.trans t

/-- The route word of a packet for tile `t` of context `k` (06 Table 6.2). -/
def State.routeTo (s : State) (t k : Nat) : RouteWord :=
  { px := BitVec.ofNat 5 (physX (s.transOf t).phys), py := BitVec.ofNat 5 (physY (s.transOf t).phys)
    destTile := BitVec.ofNat 9 t, ctx := BitVec.ofNat 4 k, gen := (s.ctx k).gen }

/-- Put a packet behind the packets that wait at a local port of a router. -/
def State.post (s : State) (net : Net) (at_ : Nat) (p : Packet) (port : Nat := 0) : State :=
  s.modNet fun x => { x with sources := x.sources ++ [{ net, at_, port, pkt := p }] }

/-- Post a control packet from the tile of the sender. -/
def State.postCtl (s : State) (src t k header : Nat) (words : List Word) (tag : Half) : State :=
  s.post .control (s.transOf src).phys (.control
    { route := s.routeTo t k, header := BitVec.ofNat 48 header
      word0 := words.getD 0 0, word1 := words.getD 1 0, word2 := words.getD 2 0
      word3 := words.getD 3 0, tag })

/-- Two control packets are one packet: the route word's counts apart. -/
def samePacket (p q : CtlPacket) : Bool :=
  p.header == q.header && p.word0 == q.word0 && p.word1 == q.word1 && p.word2 == q.word2
    && p.word3 == q.word3 && p.tag == q.tag && p.route.destTile == q.route.destTile
    && p.route.ctx == q.route.ctx && p.route.gen == q.route.gen

def isCtl (p : CtlPacket) (x : Transit) : Bool :=
  match x.pkt with
  | .control q => samePacket p q
  | .bulk _ => false

/-- A packet reaches its receiver: it leaves the network, wherever the model holds it (log 21). -/
def State.takeCtl (s : State) (p : CtlPacket) : State :=
  s.modNet fun x =>
    match x.ejected.findIdx? (samePacket p) with
    | some i => { x with ejected := x.ejected.eraseIdx i }
    | none => match x.slots.findIdx? (isCtl p) with
      | some i => { x with slots := x.slots.eraseIdx i }
      | none => match x.sources.findIdx? (isCtl p) with
        | some i => { x with sources := x.sources.eraseIdx i }
        | none => x

/-- What the checks of 06 R214 after the first decide. -/
inductive Fate where
  | fenced | wrongOwner | stale | deliver
  deriving DecidableEq, Repr

/-- Is a sector fenced, under reset or OUT? -/
def SectorSt.isFenced : SectorSt → Bool
  | .fenced | .resetting | .out => true
  | _ => false

/-- R214, checks 2 to 5. -/
def State.fate (s : State) (r : RouteWord) : Fate :=
  let sec := sectorOfTile r.destTile.toNat
  let x := s.sector sec
  if x.st.isFenced || (!r.memPort && x.withdrawn.getLsbD (r.destTile.toNat % 32)) then .fenced
  else if x.owner ≠ some r.ctx.toNat then .wrongOwner
  else if (s.ctx r.ctx.toNat).gen ≠ r.gen then .stale
  else .deliver

/-! ### Actors and tokens (05 R162 to R167) -/

def Core.inmask (x : Core) (n : Nat) : BitVec 16 := (Tab.get 0 x.df.act n).setWidth 16
def Core.ordered (x : Core) (n : Nat) : Bool := (Tab.get 0 x.df.act n).getLsbD 30
def Core.entryPc (x : Core) (n : Nat) : Nat := bits (Tab.get 0 x.df.act n).toNat 29 16 * 4

/-- The actor that names a queue in its INMASK. -/
def Core.actorOf (x : Core) (q : Nat) : Option Nat :=
  (List.range 16).find? fun n => (x.inmask n).getLsbD q

/-- Is an entry ready (R166)? -/
def Core.isReady (x : Core) (e : MsEntry) : Bool :=
  (setBits (x.inmask e.actor)).all (fun q => e.tokens.any (·.queue == q))
    && (!x.ordered e.actor || Tab.get 0 x.df.actNext e.actor == e.tag)

/-- Mark the entries that are ready now, in the order of this moment (R167). -/
def Core.markReady (x : Core) : Core :=
  let mark := fun (e : MsEntry) =>
    if e.fired = true then e
    else if x.isReady e then { e with ready := some (e.ready.getD x.df.readyCtr) }
    else { e with ready := none }
  { x with df := { x.df with ms := x.df.ms.map mark } }

/-- A new moment in the order of readiness. -/
def Core.nextMoment (x : Core) : Core := { x with df := { x.df with readyCtr := x.df.readyCtr + 1 } }

/-- Index a token (R165): `none` when it must wait. -/
def Core.indexed (x : Core) (k : Token) : Option Core :=
  match x.actorOf k.queue with
  | none => none
  | some n =>
    match x.df.ms.findIdx? (fun e => e.actor == n && e.tag == k.tag) with
    | some i =>
      let e := x.df.ms.getD i { actor := n, tag := k.tag, tokens := [] }
      if e.fired || e.tokens.any (·.queue == k.queue) then none
      else some { x with df := { x.df with ms := x.df.ms.set i { e with tokens := e.tokens ++ [k] } } }
    | none =>
      if x.df.ms.length < 256 then
        some { x with df := { x.df with ms := x.df.ms ++ [{ actor := n, tag := k.tag, tokens := [k] }] } }
      else none

/-- A token becomes visible: it is indexed or waits unindexed. -/
def Core.addToken (x : Core) (k : Token) : Core :=
  let x := { x with df := { x.df with readyCtr := x.df.readyCtr + 1 } }
  match x.indexed k with
  | some y => y.markReady
  | none => { x with df := { x.df with unindexed := x.df.unindexed ++ [k] } }

/-- Index the waiting tokens for which there is room, oldest first. -/
def Core.reindex (x : Core) : Core :=
  let ks := x.df.unindexed
  let x := { x with df := { x.df with unindexed := [], readyCtr := x.df.readyCtr + 1 } }
  (ks.foldl (fun x k => match x.indexed k with
    | some y => y
    | none => { x with df := { x.df with unindexed := x.df.unindexed ++ [k] } }) x).markReady

/-- The token of an entry (R164). -/
def Entry.token (e : Entry) (q : Nat) (tagOnly : Bool) : Token :=
  { queue := q, uid := e.uid, tag := e.tag
    words := if tagOnly then [] else e.words, tagOnly }

def Entry.isScalar (e : Entry) : Bool := e.port == 0 || e.port == 1

/-! ### Inbound queues (04 R142, R148 to R150) -/

def Core.queue (x : Core) (q : Nat) : InQueue := Tab.get {} x.queues q
def Core.setQueue (x : Core) (q : Nat) (v : InQueue) : Core := { x with queues := Tab.set x.queues q v }

/-- Entries that occupy the queue's places: spilled ones do not (05 R190). -/
def InQueue.occ (q : InQueue) : Nat :=
  (q.vis.filter (·.spill.isNone)).length + (q.early.filter (·.spill.isNone)).length

/-- Put an entry that becomes visible behind the visible entries; spilled entries are older than
entries still in the queue (05 R190). -/
def InQueue.show (q : InQueue) (e : Entry) : InQueue :=
  if e.spill.isNone then { q with vis := q.vis ++ [e] }
  else
    { q with vis := q.vis.takeWhile (·.spill.isSome) ++ e :: q.vis.dropWhile (·.spill.isSome) }

/-- One entry becomes visible; a scalar entry of a named queue becomes a token. -/
def Core.show (x : Core) (q : Nat) (e : Entry) : Core :=
  let x := x.setQueue q ((x.queue q).show e)
  if e.isScalar && (x.actorOf q).isSome then x.addToken (e.token q false) else x

/-- Make the early entries of a channel visible whose predecessors are visible, with fuel (R148). -/
def Core.showEarly (q src b : Nat) : Nat → Core → Core
  | 0, x => x
  | n + 1, x =>
    let v := x.queue q
    match v.chans.find? (fun k => k.src == src && k.bind == b) with
    | none => x
    | some k =>
      match v.early.find? (fun e => e.src == src && e.bind == b && e.seq == k.expect) with
      | none => x
      | some e =>
        let v := { v with
          early := v.early.filter fun y => y.uid != e.uid
          chans := v.chans.map fun y =>
            if y.src == src && y.bind == b then { y with expect := y.expect + 1 } else y }
        Core.showEarly q src b n ((x.setQueue q v).show q e)

/-- May the queue take an entry of this channel (R144, R149)? -/
def InQueue.accepts (v : InQueue) (src b : Nat) : Bool :=
  decide (v.occ < 8) &&
    (v.chans.any (fun k => k.src == src && k.bind == b) || decide (v.chans.length < 8))

/-- An entry arrives: it takes a place and becomes visible in channel order (R148). -/
def Core.arrive (x : Core) (q : Nat) (e : Entry) : Core :=
  let e := { e with uid := x.nextEntry }
  let x := { x with nextEntry := x.nextEntry + 1 }
  let v := x.queue q
  let v := if v.chans.any (fun k => k.src == e.src && k.bind == e.bind) then v
    else { v with chans := v.chans ++ [{ src := e.src, bind := e.bind, expect := 0 }] }
  let v := { v with early := v.early ++ [e] }
  Core.showEarly q e.src e.bind v.early.length (x.setQueue q v)

/-! ### Credits and leaving a queue (04 R152) -/

/-- The header of a CREDIT packet (06 Table 6.6). -/
def creditHeader (core bind : Nat) : Nat := core % 16 + 2 ^ 4 * 1 + 2 ^ 7 * bind

/-- Return the credit of an entry to its channel. -/
def State.returnCredit (s : State) (c : Nat) (e : Entry) : State :=
  match s.ownerOfCore c with
  | some k => s.postCtl (tileOf c) (tileOf e.src) k (creditHeader e.src e.bind) [] 0
  | none => s

/-- The records of a spill region, oldest first, are the words from TAIL on (05 R189). Pass TAIL over
consumed records, with fuel; the core that held a passed record holds it no more. -/
def State.passSpill (t n : Nat) : Nat → State → State
  | 0, s => s
  | k + 1, s =>
    let r := s.region t n
    if r.head == r.tail then s
    else if (s.readWord t (r.wordAt (r.tail.off + 4))).getLsbD 26 then
      let s := s.modCores (fun c => tileOf c == t) fun _ x =>
        { x with df := { x.df with spillRecs := x.df.spillRecs.filter (· != (n, r.tail.off)) } }
      State.passSpill t n k
        (s.modRegion t n fun r =>
          { r with tail := r.tail.adv r.size 8, rtail := r.rtail.adv r.size 8, taken := r.taken + 8 })
    else s

/-- The spill region of a core. -/
def Core.spillRegion (x : Core) : Nat := (x.df.spillCfg.toNat) % 32

/-- Mark the record of a consumed entry CONSUMED (05 R190). -/
def State.consumeSpill (s : State) (c n off : Nat) : State :=
  let t := tileOf c
  let w := (s.region t n).wordAt (off + 4)
  let s := s.writeWord t w (s.readWord t w ||| 0x04000000#32)
  State.passSpill t n ((s.region t n).size / 8) s

/-- An entry has left its queue: its credit returns, unless a spill returned it already, and then
its record is consumed (05 R187, R190). -/
def State.left (s : State) (c : Nat) (e : Entry) : State :=
  let s := s.modCore c fun x => { x with prog := true }
  match e.spill with
  | none => s.returnCredit c e
  | some (n, off) => s.consumeSpill c n off

/-- Take the entry of a number out of a queue. -/
def State.removeEntry (s : State) (c q uid : Nat) : State :=
  let v := (s.core c).queue q
  match v.vis.find? (·.uid == uid) with
  | none => s
  | some e =>
    (s.modCore c fun x => x.setQueue q { v with vis := v.vis.filter (·.uid != uid) }).left c e

/-- The oldest visible entry leaves its queue. -/
def State.popHead (s : State) (c q : Nat) : State :=
  let v := (s.core c).queue q
  match v.vis with
  | [] => s
  | e :: rest => (s.modCore c fun x => x.setQueue q { v with vis := rest }).left c e

def Entry.isStored (e : Entry) : Bool := e.port == 2 || e.port == 3 || e.port == 5

/-- Write an entry's words into its granted claim. -/
def State.writeEntry (s : State) (t n : Nat) (k : Claim) (e : Entry) : State :=
  (((s.region t n).claimWords k).zip e.words).foldl (fun s w => s.writeWord t w.1 w.2) s

/-- The claim of an operand port: granted or waiting. -/
def Region.portClaim (r : Region) (who : Claimant) : Option (Claim × Bool) :=
  match r.pClaims.find? (·.who == who) with
  | some k => some (k, true)
  | none => (r.pWait.find? (·.who == who)).map fun k => (k, false)

/-- A waiting claim of a claimant is withdrawn. -/
def Region.dropWait (r : Region) (who : Claimant) : Region := { r with pWait := r.pWait.filter (·.who != who) }

/-- CHN_RX_POP removes the oldest visible entry (04 R157). Of a VA, VB or MEM entry, a waiting claim is withdrawn,
and the words are stored under a granted one, which commits (DESIGN CHOICE, log 66). -/
def State.rxPop (s : State) (c q : Nat) : State :=
  match ((s.core c).queue q).vis with
  | [] => s
  | e :: _ =>
    let t := tileOf c
    let n := e.param.toNat
    let s := if !e.isStored then s
      else match (s.region t n).portClaim (.port c q) with
        | some (k, true) => (s.writeEntry t n k e).finishClaim ⟨t, n, .producer, k.id⟩
        | some (_, false) => s.modRegion t n (·.dropWait (.port c q))
        | none => s
    s.popHead c q

/-! ### Head registers (04 Tables 4.15, 4.16) -/

def InQueue.statWord (v : InQueue) : Word :=
  BitVec.ofNat 32 (v.occ + 2 ^ 4 * min 8 (v.vis.filter (·.spill.isNone)).length + 2 ^ 8 * bit v.overrun
    + 2 ^ 9 * bit v.portErr + 2 ^ 10 * v.chans.length)

/-- Head register i: words 0 to 3, INFO, SRC. With no visible entry every field reads zero. -/
def InQueue.headWord (v : InQueue) (i : Nat) : Word :=
  match v.vis with
  | [] => 0
  | e :: _ =>
    if i < 4 then e.words.getD i 0
    else if i = 4 then
      BitVec.ofNat 32 (e.tag.toNat + 2 ^ 16 * e.nw + 2 ^ 19 * e.port.toNat + 2 ^ 22)
    else BitVec.ofNat 32 (e.src + 2 ^ 13 * e.bind + 2 ^ 18 * e.seq.toNat)

/-! ### Firing (05 R168 to R170) -/

def Core.firedSet (x : Core) : Option MsEntry := x.df.ms.find? (·.fired)

/-- TIL_FIRE as read (05 Table 5.3). -/
def Core.fireWord (x : Core) : Word :=
  match x.firedSet with
  | some e => BitVec.ofNat 32 (e.tag.toNat + 2 ^ 16 * e.actor + 2 ^ 20)
  | none => 0

/-- CHN_FIRE_W_i_w (R170). -/
def Core.fireData (x : Core) (i w : Nat) : Word :=
  match x.firedSet with
  | none => 0
  | some e =>
    match (setBits (x.inmask e.actor))[i]? with
    | none => 0
    | some q => match e.tokens.find? (·.queue == q) with
      | none => 0
      | some k => if k.tagOnly then 0 else k.words.getD w 0

/-- Of two ready entries, the one that fires first (R167). -/
def firesFirst (a b : MsEntry) : MsEntry :=
  let ka := (a.ready.getD 0, a.actor, a.tag.toNat)
  let kb := (b.ready.getD 0, b.actor, b.tag.toNat)
  if ka.1 < kb.1 ∨ (ka.1 = kb.1 ∧ (ka.2.1 < kb.2.1 ∨ (ka.2.1 = kb.2.1 ∧ ka.2.2 ≤ kb.2.2))) then a
  else b

/-- The entry that fires next. -/
def Core.nextReady (x : Core) : Option MsEntry :=
  match x.df.ms.filter (fun e => e.ready.isSome && !e.fired) with
  | [] => none
  | e :: es => some (es.foldl firesFirst e)

/-- Retire the fired set (R169). -/
def State.retireFired (s : State) (c : Nat) : State :=
  match (s.core c).firedSet with
  | none => s
  | some e =>
    let s := (e.tokens.filter (!·.tagOnly)).foldl
      (fun s k => s.removeEntry c k.queue k.uid) s
    s.modCore c fun x =>
      let next := if e.inTurn then Tab.mod 0 x.df.actNext e.actor (· + 1) else x.df.actNext
      Core.reindex { x with df := { x.df with ms := x.df.ms.filter (!·.fired), actNext := next } }

/-- Fire the next ready entry into register `rd`, if there is one. -/
def Core.fire (x : Core) (rd : Nat) : Option Core :=
  match x.nextReady with
  | none => none
  | some e =>
    let y := { x with df := { x.df with ms := x.df.ms.map fun (m : MsEntry) =>
      if m.actor = e.actor ∧ m.tag = e.tag then
        { m with fired := true, entry := x.entryPc e.actor, inTurn := x.ordered e.actor }
      else m } }
    some ((y.count 1).setReg rd y.fireWord)

/-! ### Releasing a scalar unit that waits on its queues (05 Table 5.10) -/

/-- After entries or tokens have come: complete the held load or pop if it can complete. -/
def State.wakeQueues (s : State) (c : Nat) : State :=
  let x := s.core c
  if x.run ≠ .running then s
  else match x.wait with
    | some (.fire rd) =>
      match x.fire rd with
      | some y => s.setCore c y.release
      | none => s
    | some (.qhead q i rd) =>
      if (x.queue q).vis.isEmpty then s
      else s.setCore c (x.setReg rd ((x.queue q).headWord i)).release
    | some (.pop q) =>
      if (x.queue q).vis.isEmpty then s else (s.rxPop c q).modCore c Core.release
    | _ => s

/-! ### Sending (04 R143 to R147) -/

def Core.binding (x : Core) (i : Nat) : Binding := Tab.get {} x.binds i
def Core.setBinding (x : Core) (i : Nat) (b : Binding) : Core := { x with binds := Tab.set x.binds i b }

/-! Fields of CHN_BIND_i (04 Table 4.11). -/
def bindDest (w : Word) : Nat := bits w.toNat 12 0
def bindQueue (w : Word) : Nat := bits w.toNat 16 13
def bindPort (w : Word) : Nat := bits w.toNat 19 17
def bindParam (w : Word) : Nat := bits w.toNat 24 20
def bindValid (w : Word) : Bool := w.getLsbD 25
def bindCredits (w : Word) : Nat := bits w.toNat 29 26

/-- R143: would the write be refused? -/
def State.bindRefused (s : State) (c : Nat) (v : Word) : Bool :=
  bindValid v &&
    (!(match s.ownerOfCore c with
        | some k => s.coreIn k (bindDest v)
        | none => false)
      || decide (bindCredits v = 0) || decide (8 < bindCredits v)
      || decide (5 < bindPort v)
      || (decide (bindPort v = 4) && decide (16 ≤ bindParam v))
      || (decide (bindPort v < 2) && decide (bindParam v ≠ 0)))

/-- Retire a channel at its receiver (R145, R149). -/
def State.retireChannel (s : State) (c i : Nat) (old : Word) : State :=
  s.modCore (bindDest old) fun x =>
    let v := x.queue (bindQueue old)
    x.setQueue (bindQueue old) { v with chans := v.chans.filter fun k => !(k.src == c && k.bind == i) }

/-- A binding write takes effect (R143, R145). -/
def State.bindEffect (s : State) (c i : Nat) (v : Word) : State :=
  let b := (s.core c).binding i
  let moved := bindDest b.word != bindDest v || bindQueue b.word != bindQueue v || !bindValid v
  let s := if bindValid b.word && moved then s.retireChannel c i b.word else s
  let b' : Binding :=
    if !bindValid b.word || moved then
      if bindValid v then { b with word := v, avail := bindCredits v, nextSeq := 0 } else { b with word := v }
    else { b with word := v, avail := bindCredits v }
  s.modCore c fun x => x.setBinding i b'

/-- The store at the front of a held or new binding write completes. -/
def State.storeDone (s : State) (g : Agent) : State :=
  match g with
  | .core a => s.modCore a.core (·.advance a.pc a.short)
  | _ => s

/-- May the agent write a register of the core's tile (as in `tileWrite`)? -/
def State.mayWrite (s : State) (g : Agent) (c : Nat) : Bool :=
  match g with
  | .core a => (s.core a.core).canIssue && decide (tileOf a.core = tileOf c)
  | .net | .firmware => true
  | .debug => decide (s.lifecycle = 0 ∨ s.lifecycle = 4)
  | .host _ | .bmc => false

/-- Must a write of a binding wait: for the messages on the channel, or behind an earlier held write? -/
def Binding.busy (b : Binding) : Bool :=
  !b.held.isEmpty || (bindValid b.word && b.avail != bindCredits b.word)

/-- A write of CHN_BIND_i (R143, R145). The reserved bits are discarded. A write that arrives behind a held
one is held with it and takes effect after it, whatever it changes (DESIGN CHOICE, log 66). -/
def State.writeBind (s : State) (g : Agent) (c i : Nat) (v : Word) : State :=
  let v := v &&& 0x3FFFFFFF#32
  let b := (s.core c).binding i
  if !s.mayWrite g c then s
  else if b.word = v ∧ b.held = [] then s.storeDone g
  else if s.bindRefused c v then
    (s.modCore c fun x => { x with chnBadWrite := true }).storeDone g
  else if b.busy then
    let put := fun (own : Bool) => s.modCore c fun x => x.setBinding i { b with held := b.held ++ [⟨v, own⟩] }
    match g with
    | .core a =>
      if a.core.val = c then (put true).modCore c (·.hold a.pc a.short (.bindWrite i)) else (put false).storeDone g
    | _ => put false
  else (s.bindEffect c i v).storeDone g

/-- Can the tile's control router not inject (R146): a packet waits that it last could not? -/
def State.injectBlocked (s : State) (t : Nat) : Bool :=
  s.net.sources.any fun x => x.net == .control && x.port == 0 && x.blocked && x.at_ == (s.transOf t).phys

/-- The header of a channel message (06 Table 6.5). -/
def chanHeader (v : Word) (src i nw : Nat) (seq : Byte) : Nat :=
  bindDest v % 16 + 2 ^ 7 * src + 2 ^ 20 * i + 2 ^ 25 * seq.toNat + 2 ^ 33 * bindQueue v
    + 2 ^ 37 * bindPort v + 2 ^ 40 * bindParam v + 2 ^ 45 * (nw - 1)

/-- Fields of CHN_TX_CMD (04 Table 4.14). -/
def txBind (v : Word) : Nat := bits v.toNat 4 0
def txNw (v : Word) : Nat := bits v.toNat 7 5

/-- Send the message of a CHN_TX_CMD store: one credit, one sequence number (R146). -/
def State.sendTuple (s : State) (c : Nat) (v : Word) : State :=
  let x := s.core c
  let i := txBind v
  let b := x.binding i
  let words := (List.range (txNw v)).map fun j => Tab.get 0 x.txData j
  let s := s.setCore c (x.setBinding i { b with avail := b.avail - 1, nextSeq := b.nextSeq + 1 })
  match s.ownerOfCore c with
  | some k =>
    s.postCtl (tileOf c) (tileOf (bindDest b.word)) k (chanHeader b.word c i (txNw v) b.nextSeq) words
      ((v >>> 16).setWidth 16)
  | none => s

/-- Must the send wait: no credit, or no injection? -/
def State.sendWaits (s : State) (c : Nat) (v : Word) : Bool :=
  ((s.core c).binding (txBind v)).avail == 0 || s.injectBlocked (tileOf c)

/-! ### Meanings -/

/-- CHN_BIND_WRITE (04 R143, R145). -/
def execChnBindWrite (g : Agent) (c : CoreId) (i : BindId) (v : Word) (s : State) : Answer :=
  .next (s.writeBind g c i v)

/-- The oldest held binding write takes effect once AVAIL equals CREDITS or the binding is not valid any more,
and its store completes. -/
def State.releaseBind (s : State) (c i : Nat) : State :=
  let b := (s.core c).binding i
  match b.held with
  | [] => s
  | h :: rest =>
    if bindValid b.word && b.avail != bindCredits b.word then s
    else
      let s := (s.modCore c fun x => x.setBinding i { b with held := rest }).bindEffect c i h.word
      if h.own then s.modCore c Core.release else s

/-- BIND_WRITE_TAKE_EFFECT (04 R145). -/
def execBindWriteTakeEffect (c : CoreId) (i : BindId) (s : State) : Answer := .next (s.releaseBind c i)

/-- A core's store of CHN_TX_CMD. The access fault names the register's address in the core's own window
(DESIGN CHOICE, log 66). -/
def State.txCmd (s : State) (a : At) (v : Word) : State :=
  let x := s.core a.core
  if !x.canIssue then s
  else if 4 < txNw v ∨ !bindValid (x.binding (txBind v)).word then s.accessFault a true 0x40010110
  else if txNw v = 0 then s.modCore a.core (·.advance a.pc a.short)
  else if s.sendWaits a.core v then s.modCore a.core (·.hold a.pc a.short (.send v))
  else (s.sendTuple a.core v).modCore a.core (·.advance a.pc a.short)

/-- CHN_TX_CMD (04 R146). -/
def execChnTxCmd (a : At) (v : Word) (s : State) : Answer := .next (s.txCmd a v)

/-- A send that holds the scalar unit completes. -/
def State.releaseSend (s : State) (c : Nat) : State :=
  let x := s.core c
  match x.wait with
  | some (.send v) =>
    if x.run ≠ .running ∨ s.sendWaits c v then s else (s.sendTuple c v).modCore c Core.release
  | _ => s

/-- SEND_RELEASE (04 R146). -/
def execSendRelease (c : CoreId) (s : State) : Answer := .next (s.releaseSend c)

/-! Fields of a channel message's header (06 Table 6.5). -/
def hdrCore (p : CtlPacket) : Nat := p.route.destTile.toNat * 16 + bits p.header.toNat 3 0
def hdrKind (p : CtlPacket) : Nat := bits p.header.toNat 6 4

/-- The queue entry a channel message brings. -/
def entryOf (p : CtlPacket) : Entry :=
  let h := p.header.toNat
  let nw := bits h 46 45 + 1
  { words := [p.word0, p.word1, p.word2, p.word3].take nw, nw, tag := p.tag
    port := BitVec.ofNat 3 (bits h 39 37), param := BitVec.ofNat 5 (bits h 44 40)
    src := bits h 19 7, bind := bits h 24 20, seq := BitVec.ofNat 8 (bits h 32 25) }

def causeChanOverrun : Nat := 0x0204
def causeChanPortErr : Nat := 0x0205

/-- Mark the records of a queue's visible spilled entries VISIBLE (05 Table 5.11). -/
def State.markVisible (s : State) (c q : Nat) : State :=
  let t := tileOf c
  ((s.core c).queue q).vis.foldl (fun s e => match e.spill with
    | some (n, off) =>
      let w := (s.region t n).wordAt (off + 4)
      s.writeWord t w (s.readWord t w ||| 0x08000000#32)
    | none => s) s

/-- A channel message at its receiver (R144, R148, R149). -/
def State.deliverMsg (s : State) (p : CtlPacket) : State :=
  let c := hdrCore p
  let q := bits p.header.toNat 36 33
  let e := entryOf p
  let v := (s.core c).queue q
  if v.accepts e.src e.bind then ((s.modCore c (·.arrive q e)).markVisible c q).wakeQueues c
  else
    let s := s.modCore c fun x => x.setQueue q { v with overrun := true }
    s.contained p.route.ctx.toNat causeChanOverrun (leBytes 1 q ++ leBytes 2 e.src)
      (BitVec.ofNat 16 c)

/-- CHAN_MSG (04 R148; 06 R214: a fenced, foreign or stale message is discarded). -/
def execChanMsg (p : CtlPacket) (s : State) : Answer :=
  .next (match s.fate p.route with
    | .deliver => (s.takeCtl p).deliverMsg p
    | _ => s.takeCtl p)

/-- A credit at its sender: AVAIL never exceeds CREDITS (R152). -/
def State.deliverCredit (s : State) (p : CtlPacket) : State :=
  let i := bits p.header.toNat 11 7
  s.modCore (hdrCore p) fun x =>
    let b := x.binding i
    x.setBinding i { b with avail := min (bindCredits b.word) (b.avail + 1) }

/-- CREDIT (04 R152; 06 R214). -/
def execCredit (p : CtlPacket) (s : State) : Answer :=
  .next (match s.fate p.route with
    | .deliver => (s.takeCtl p).deliverCredit p
    | _ => s.takeCtl p)

/-- CHN_RX_POP (04 R157; 05 R171). The access fault names the register's address in the core's own window
(DESIGN CHOICE, log 66). -/
def execChnRxPop (a : At) (v : Word) (s : State) : Answer :=
  let x := s.core a.core
  let q := bits v.toNat 3 0
  .next (if !x.canIssue then s
    else if (x.actorOf q).isSome then s.accessFault a true 0x40010114
    else if (x.queue q).vis.isEmpty then s.modCore a.core (·.hold a.pc a.short (.pop q))
    else (s.rxPop a.core q).modCore a.core (·.advance a.pc a.short))

/-- CHN_QHEAD_LOAD by the owning core (04 R156). -/
def execChnQheadLoad (a : At) (q : QueueId) (i : Fin 6) (rd : XReg) (s : State) : Answer :=
  let x := s.core a.core
  .next (if !x.canIssue then s
    else if (x.queue q).vis.isEmpty then s.modCore a.core (·.hold a.pc a.short (.qhead q i rd))
    else s.setCore a.core ((x.setReg rd ((x.queue q).headWord i)).advance a.pc a.short))

/-! ### VA, VB and MEM entries (04 R153, R155) -/

/-- The words of the head entry are stored under its claim, its tag is presented to the matching
store, and the entry leaves its queue. -/
def State.storeHead (s : State) (c q : Nat) (e : Entry) (k : Claim) : State :=
  let t := tileOf c
  let n := e.param.toNat
  let s := (s.writeEntry t n k e).finishClaim ⟨t, n, .producer, k.id⟩
  let s := s.popHead c q
  if e.port ≠ 5 ∧ ((s.core c).actorOf q).isSome then
    (s.modCore c (·.addToken (e.token q true))).wakeQueues c
  else s

/-- The head entry of a queue, when it is a VA, VB or MEM entry, is stored under its granted claim, refused with
its waiting claim withdrawn, or waits. -/
def State.storePort (s : State) (c q : Nat) : State :=
  match ((s.core c).queue q).vis with
  | [] => s
  | e :: _ =>
    let t := tileOf c
    let n := e.param.toNat
    let r := s.region t n
    let who : Claimant := .port c q
    if !e.isStored || (s.core c).run == .drained then s
    else match r.portClaim who with
      | some (k, true) => s.storeHead c q e k
      | claim =>
        if !(s.usable c n && r.circular && decide (e.nw ≤ r.size)) then
          let s := (s.modRegion t n (·.dropWait who)).popHead c q
          let s := s.modCore c fun x => x.setQueue q { x.queue q with portErr := true }
          match s.ownerOfCore c with
          | some k => s.contained k causeChanPortErr (leBytes 1 q ++ leBytes 1 n) (BitVec.ofNat 16 c)
          | none => s
        else if claim.isSome then s
        else
          let (ref, s) := s.requestClaim t n .producer e.nw who
          match s.claimOf ref with
          | some k => s.storeHead c q e k
          | none => s

/-- VA_VB_MEM_STORE (04 R153, R155). -/
def execVaVbMemStore (c : CoreId) (q : QueueId) (s : State) : Answer := .next (s.storePort c q)

/-! ### Dataflow registers (05 R162, R163, R168, R169, R193) -/

/-- May the agent write an actor or spill register: its own core, or firmware (R162)? -/
def State.mayWriteActor (s : State) (g : Agent) (c : Nat) : Bool :=
  match g with
  | .core a => decide (a.core.val = c) && (s.core c).canIssue
  | .firmware => true
  | _ => false

/-- R162: is the write refused? -/
def Core.actRefused (x : Core) (n : Nat) (v : Word) : Bool :=
  let m : BitVec 16 := v.setWidth 16
  decide (4 < popCount m) ||
    (List.range 16).any fun k => k != n && (x.inmask k &&& m) != 0

/-- The actor has a matching store entry or a fired set (R163). -/
def Core.actorBusy (x : Core) (n : Nat) : Bool := x.df.ms.any (·.actor == n)

/-- The register takes a value. Waiting tokens of queues that no actor names any more are dropped,
and visible scalar entries of newly named queues become tokens (R164): queue by queue, the lowest first, each
entry at a moment of its own in the ready order (DESIGN CHOICE, log 66). -/
def Core.setAct (x : Core) (n : Nat) (v : Word) : Core :=
  let v := v &&& 0x7FFFFFFF#32
  let old := x.inmask n
  let x := { x with df := { x.df with act := Tab.set x.df.act n v } }
  let x := { x with df := { x.df with
    unindexed := x.df.unindexed.filter fun k => (x.actorOf k.queue).isSome } }
  let new := setBits (x.inmask n &&& ~~~old)
  (new.foldl (fun x q => ((x.queue q).vis.filter (·.isScalar)).foldl
    (fun x e => x.addToken (e.token q false)) x) x).nextMoment.markReady

/-- TIL_ACT_WRITE (05 R162, R163). A second held write of firmware replaces the first, and the check of R162
is made when a write arrives and not again when it takes effect (DESIGN CHOICE, log 66). -/
def execTilActWrite (g : Agent) (c : CoreId) (n : ActorId) (v : Word) (s : State) : Answer :=
  let x := s.core c
  .next (if !s.mayWriteActor g c then s
    else if x.actRefused n v then
      (s.modCore c fun x => { x with df := { x.df with badWrite := true } }).storeDone g
    else if x.inmask n ≠ v.setWidth 16 ∧ x.actorBusy n then
      match g with
      | .core a => s.modCore c (·.hold a.pc a.short (.inmask n v))
      | _ => s.modCore c fun x => { x with df := { x.df with heldAct := Tab.set x.df.heldAct n v } }
    else ((s.modCore c (·.setAct n v)).storeDone g).wakeQueues c)

/-- A held INMASK write that no scalar unit waits for takes effect. -/
def State.releaseHeldAct (s : State) (c n : Nat) : State :=
  match (s.core c).df.heldAct.find? (·.1 == n) with
  | some h => (s.modCore c fun x =>
      Core.setAct { x with df := { x.df with heldAct := x.df.heldAct.filter (·.1 != n) } } n h.2).wakeQueues c
  | none => s

/-- A held INMASK write takes effect once the actor is free (R163). -/
def State.releaseInmask (s : State) (c n : Nat) : State :=
  let x := s.core c
  if x.actorBusy n then s
  else match x.wait with
    | some (.inmask m v) =>
      if m = n ∧ x.run = .running then s.modCore c fun x => (x.setAct n v).release
      else s.releaseHeldAct c n
    | _ => s.releaseHeldAct c n

/-- INMASK_WRITE_RELEASE (05 R163). -/
def execInmaskWriteRelease (c : CoreId) (n : ActorId) (s : State) : Answer :=
  .next (s.releaseInmask c n)

/-- R162: would the spill configuration be refused? -/
def State.spillRefused (s : State) (c : Nat) (v : Word) : Bool :=
  let n := bits v.toNat 4 0
  let r := s.region (tileOf c) n
  v.getLsbD 5 &&
    !(r.circular && decide (some r.ctx = s.ownerOfCore c) && r.owner.getLsbD (c % 16)
      && r.size != 0 && decide (r.size % 8 = 0))

/-- TIL_SPILL_CFG_WRITE (05 R162). -/
def execTilSpillCfgWrite (g : Agent) (c : CoreId) (v : Word) (s : State) : Answer :=
  .next (if !s.mayWriteActor g c then s
    else if s.spillRefused c v then
      (s.modCore c fun x => { x with df := { x.df with badWrite := true } }).storeDone g
    else (s.modCore c fun x => { x with df := { x.df with spillCfg := v.setWidth 6 } }).storeDone g)

/-- TIL_FIRE_LOAD (05 R168). -/
def execTilFireLoad (a : At) (rd : XReg) (s : State) : Answer :=
  .next (if !(s.core a.core).canIssue then s
    else
      let s := s.retireFired a.core
      match (s.core a.core).fire rd with
      | some y => s.setCore a.core (y.advance a.pc a.short)
      | none => s.modCore a.core (·.hold a.pc a.short (.fire rd)))

/-- TIL_FIRE_RETIRE (05 R169): bit 31 retires. -/
def execTilFireRetire (a : At) (v : Word) (s : State) : Answer :=
  .next (if !(s.core a.core).canIssue then s
    else (if v.getLsbD 31 then s.retireFired a.core else s).modCore a.core (·.advance a.pc a.short))

/-- TIL_PERF_SNAP (05 R193): bit 0 takes the snapshot. -/
def execTilPerfSnap (g : Agent) (c : CoreId) (v : Word) (s : State) : Answer :=
  .next (s.tileWrite g (tileOf c) fun s =>
    if v.getLsbD 0 then
      s.modCore c fun x => { x with df := { x.df with snap := x.df.live, live := {} } }
    else s)

end Sys2Proof.Machine
end

