-- ==== Sys2Proof/Machine/Numbers.lean ====
section
/-! DEFINITION. Element formats, rounding, FP32 arithmetic, EXACT terms, conversions and
reductions (02). Values are computed exactly on integers and narrowed once. -/
namespace Sys2Proof.Machine

/-! ### Element formats (02 Tables 2.1 and 2.2, 03 Table 3.3) -/

/-- The value of an encoding: a sign, an integer significand and a power of two. -/
inductive FVal where
  | fin (neg : Bool) (m : Nat) (e : Int)
  | inf (neg : Bool)
  | nan
  deriving DecidableEq, Repr

/-- A floating-point format: exponent bits, mantissa bits, bias, the code of the largest finite
magnitude, the canonical NaN (if the format has one), and whether it has infinities. -/
structure FloatFmt where
  ew : Nat
  mw : Nat
  bias : Nat
  maxCode : Nat
  nanCode : Option Nat
  hasInf : Bool
  deriving DecidableEq, Repr

def fmtFP32 : FloatFmt := ⟨8, 23, 127, 0x7F7FFFFF, some 0x7FC00000, true⟩
def fmtBF16 : FloatFmt := ⟨8, 7, 127, 0x7F7F, some 0x7FC0, true⟩
def fmtE4M3 : FloatFmt := ⟨4, 3, 7, 0x7E, some 0x7F, false⟩
def fmtE5M2 : FloatFmt := ⟨5, 2, 15, 0x7B, some 0x7F, true⟩
def fmtE3M2 : FloatFmt := ⟨3, 2, 3, 0x1F, none, false⟩
def fmtE2M3 : FloatFmt := ⟨2, 3, 1, 0x1F, none, false⟩
def fmtE2M1 : FloatFmt := ⟨2, 1, 1, 0x07, none, false⟩

/-- The floating-point format of a FMT code. -/
def floatFmt : Nat → Option FloatFmt
  | 1 => some fmtFP32
  | 2 => some fmtBF16
  | 3 => some fmtE4M3
  | 4 => some fmtE5M2
  | 5 => some fmtE3M2
  | 6 => some fmtE2M3
  | 7 => some fmtE2M1
  | _ => none

/-- The width in bits of an element of a FMT code; 0 for a reserved code. -/
def fmtWidth : Nat → Nat
  | 1 => 32 | 2 => 16 | 3 => 8 | 4 => 8 | 5 => 6 | 6 => 6 | 7 => 4 | 8 => 8
  | 9 => 32 | 10 => 32 | 11 => 64 | _ => 0

/-- R44, R45: the value of an encoding of a floating-point format. -/
def decodeFloat (f : FloatFmt) (v : Nat) : FVal :=
  let man := v % 2 ^ f.mw
  let ex := (v / 2 ^ f.mw) % 2 ^ f.ew
  let neg := (v / 2 ^ (f.mw + f.ew)) % 2 = 1
  let code := v % 2 ^ (f.mw + f.ew)
  if f.maxCode < code then
    if f.hasInf && man = 0 then .inf neg else .nan
  else if ex = 0 then .fin neg man (1 - (f.bias : Int) - f.mw)
  else .fin neg (2 ^ f.mw + man) ((ex : Int) - f.bias - f.mw)

/-- The value of an encoding of a FMT code; `mx` gives INT8 its weight of 2^-6 (R50). -/
def decodeElem (fmt : Nat) (mx : Bool) (v : Nat) : FVal :=
  match floatFmt fmt with
  | some f => decodeFloat f v
  | none =>
    let i := signed (fmtWidth fmt) v
    .fin (decide (i < 0)) i.natAbs (if mx && fmt = 8 then -6 else 0)

/-- The signed significand of a finite value. -/
def sgn (neg : Bool) (m : Nat) : Int := if neg then -(m : Int) else m

/-! ### Rounding (R52, R53) -/

/-- A rounding: to nearest with ties to even, or stochastic with 64 random bits (R54). -/
inductive Rounding where
  | rne
  | sr (x : DWord)
  deriving DecidableEq, Repr

/-- Whether the `d` discarded bits `frac` round the kept bits `n` away from the lower neighbour. -/
def roundsUp (r : Rounding) (n frac d : Nat) : Bool :=
  match r with
  | .rne => decide (2 ^ d < 2 * frac) || (decide (2 * frac = 2 ^ d) && decide (n % 2 = 1))
  | .sr x =>
    let t := min d 24
    decide (2 ^ t ≤ frac / 2 ^ (d - t) + x.toNat % 2 ^ t)

/-- Drop trailing zeros of a significand: an exact value has no bits below its last one
(DEDUCED, log 14). -/
def normalise : Nat → Nat → Int → Nat × Int
  | 0, m, e => (m, e)
  | k + 1, m, e => if m ≠ 0 ∧ m % 2 = 0 then normalise k (m / 2) (e + 1) else (m, e)

def normalised (m : Nat) (e : Int) : Nat × Int := normalise (Nat.log2 m + 1) m e

/-- Round a magnitude m·2^e, m not 0, to a format: the code before its overflow is decided. -/
def roundCode (f : FloatFmt) (r : Rounding) (m : Nat) (e : Int) : Nat :=
  let (m, e) := normalised m e
  let low : Int := 1 - (f.bias : Int) - f.mw
  let q := max ((Nat.log2 m : Int) + e - f.mw) low
  let n :=
    if q ≤ e then m * 2 ^ (e - q).toNat
    else
      let d := (q - e).toNat
      let k := m / 2 ^ d
      if roundsUp r k (m % 2 ^ d) d then k + 1 else k
  -- n is at most 2^(mw+1); a carry into the exponent falls out of the addition
  ((q - low).toNat) * 2 ^ f.mw + n

/-- A sign bit above a code. -/
def withSign (f : FloatFmt) (neg : Bool) (code : Nat) : Nat := bit neg * 2 ^ (f.mw + f.ew) + code

/-- Table 2.4, a floating-point destination: the encoding and whether CVT_SAT is set. Beyond the table's
zero row, a zero that came as -0 (a -0 source of VCVT, a SUM of -0) keeps its sign, as R46 has it
(DEDUCED, log 51). -/
def toFloat (f : FloatFmt) (r : Rounding) : FVal → Nat × Bool
  | .nan => (f.nanCode.getD 0, false)
  | .inf neg =>
    if f.mw + f.ew ≥ 15 then (withSign f neg ((2 ^ f.ew - 1) * 2 ^ f.mw), false)
    else (withSign f neg f.maxCode, true)
  | .fin neg m e =>
    if m = 0 then (withSign f neg 0, false)
    else
      let c := roundCode f r m e
      if f.maxCode < c then
        if f.mw + f.ew ≥ 15 then (withSign f neg ((2 ^ f.ew - 1) * 2 ^ f.mw), true)
        else (withSign f neg f.maxCode, true)
      else (withSign f neg c, false)

/-- Round m·2^e (m signed) to an integer; the lower neighbour is the floor (R53). -/
def roundInt (r : Rounding) (neg : Bool) (m : Nat) (e : Int) : Int :=
  let (m, e) := normalised m e
  if 0 ≤ e then sgn neg (m * 2 ^ e.toNat)
  else
    let d := (-e).toNat
    let i := sgn neg m
    let k := i / (2 ^ d : Int)
    let frac := (i % (2 ^ d : Int)).toNat
    if roundsUp r (k % 2).toNat frac d then k + 1 else k

/-- Table 2.4, an integer destination of `w` bits. -/
def toInt (w : Nat) (r : Rounding) : FVal → Nat × Bool
  | .nan => (0, false)
  | .inf neg => (if neg then 2 ^ (w - 1) else 2 ^ (w - 1) - 1, true)
  | .fin neg m e =>
    let i := if m = 0 then 0 else roundInt r neg m e
    if (2 ^ (w - 1) : Int) ≤ i then (2 ^ (w - 1) - 1, true)
    else if i < -(2 ^ (w - 1) : Int) then (2 ^ (w - 1), true)
    else ((i % (2 ^ w : Int)).toNat, false)

/-- R56, Table 2.4: convert a value to a FMT code. A MXINT8 destination scales by 2^6. -/
def convert (fmt : Nat) (mx : Bool) (r : Rounding) (v : FVal) : Nat × Bool :=
  match floatFmt fmt with
  | some f => toFloat f r v
  | none =>
    let v := match v with
      | .fin n m e => if mx && fmt = 8 then FVal.fin n m (e + 6) else .fin n m e
      | x => x
    toInt (fmtWidth fmt) r v

/-- R54: the random bits of an element. -/
def randomBits (seed : DWord) (lcore : Nat) (srseq : BitVec 27) (elem : Nat) : DWord :=
  let x := seed ^^^ (BitVec.ofNat 64 lcore <<< 51) ^^^ (srseq.setWidth 64 <<< 24) ^^^
    BitVec.ofNat 64 elem
  let x := (x ^^^ (x >>> 30)) * 0xBF58476D1CE4E5B9#64
  let x := (x ^^^ (x >>> 27)) * 0x94D049BB133111EB#64
  x ^^^ (x >>> 31)

/-! ### FP32 arithmetic (R73): IEEE 754 binary32, RNE, canonical NaN -/

/-- The result of an FP32 operation and what the slot's flags take from it. -/
structure FpR where
  v : Word
  ovr : Bool := false
  inv : Bool := false
  deriving DecidableEq, Repr

def f32 (v : Word) : FVal := decodeFloat fmtFP32 v.toNat
def f32Nan : Word := 0x7FC00000#32
def f32Neg (v : Word) : Word := v ^^^ 0x80000000#32
def f32IsNan (v : Word) : Bool := f32 v == .nan
def f32IsFinite (v : Word) : Bool := match f32 v with | .fin _ _ _ => true | _ => false

/-- Narrow an exact signed value i·2^e to FP32; `zneg` is the sign of an exact zero. -/
def f32Of (i : Int) (e : Int) (zneg : Bool) : Word × Bool :=
  if i = 0 then (if zneg then 0x80000000#32 else 0#32, false)
  else
    let (c, o) := toFloat fmtFP32 .rne (.fin (decide (i < 0)) i.natAbs e)
    (BitVec.ofNat 32 c, o)

def f32Inf (neg : Bool) : Word := if neg then 0xFF800000#32 else 0x7F800000#32

def f32Add (a b : Word) : FpR :=
  match f32 a, f32 b with
  | .nan, _ | _, .nan => { v := f32Nan, inv := true }
  | .inf n, .inf k => if n = k then { v := f32Inf n } else { v := f32Nan, inv := true }
  | .inf n, _ => { v := f32Inf n }
  | _, .inf k => { v := f32Inf k }
  | .fin n m e, .fin k p g =>
    let q := min e g
    let i := sgn n m * 2 ^ (e - q).toNat + sgn k p * 2 ^ (g - q).toNat
    let (v, o) := f32Of i q (n && k && decide (m = 0) && decide (p = 0))
    { v, ovr := o }

def f32Sub (a b : Word) : FpR := f32Add a (f32Neg b)

/-- A product. Of an overflow R73 names additions only, so one of a product is no OVERRANGE (DEDUCED,
log 51). -/
def f32Mul (a b : Word) : FpR :=
  match f32 a, f32 b with
  | .nan, _ | _, .nan => { v := f32Nan, inv := true }
  | .inf n, .inf k => { v := f32Inf (n != k) }
  | .inf n, .fin k p _ => if p = 0 then { v := f32Nan, inv := true } else { v := f32Inf (n != k) }
  | .fin n m _, .inf k => if m = 0 then { v := f32Nan, inv := true } else { v := f32Inf (n != k) }
  | .fin n m e, .fin k p g =>
    { v := (f32Of (sgn (n != k) (m * p)) (e + g) (n != k)).1 }

/-- Division, as R76 needs it. A quotient that does not end is kept with a sticky bit. -/
def f32Div (a b : Word) : FpR :=
  match f32 a, f32 b with
  | .nan, _ | _, .nan => { v := f32Nan, inv := true }
  | .inf _, .inf _ => { v := f32Nan, inv := true }
  | .inf n, .fin k _ _ => { v := f32Inf (n != k) }
  | .fin n _ _, .inf k => { v := if n != k then 0x80000000#32 else 0#32 }
  | .fin n m e, .fin k p g =>
    if p = 0 then (if m = 0 then { v := f32Nan, inv := true } else { v := f32Inf (n != k) })
    else
      let num := m * 2 ^ 64
      let q := 2 * (num / p) + bit (decide (num % p ≠ 0))
      let (v, o) := f32Of (sgn (n != k) q) (e - g - 65) (n != k)
      { v, ovr := o }

/-- A natural number as FP32 (R76: counts are converted exactly). -/
def f32Nat (n : Nat) : Word := (f32Of n 0 false).1

/-- pairwise() of R69 to R75, with the fuel of the list's length. -/
def pairwiseFuel : Nat → List Word → FpR
  | _, [] => { v := 0#32 }
  | _, [x] => { v := x }
  | 0, x :: _ => { v := x }
  | k + 1, xs =>
    let h := xs.length / 2
    let a := pairwiseFuel k (xs.take h)
    let b := pairwiseFuel k (xs.drop h)
    let c := f32Add a.v b.v
    { v := c.v, ovr := a.ovr || b.ovr || c.ovr, inv := a.inv || b.inv || c.inv }

def pairwise (xs : List Word) : FpR := pairwiseFuel xs.length xs

/-- Split a list into runs of `g` (g ≥ 1), with fuel. -/
def runsFuel {α : Type} : Nat → Nat → List α → List (List α)
  | 0, _, _ => []
  | _ + 1, _, [] => []
  | k + 1, g, xs => xs.take g :: runsFuel k g (xs.drop g)

def runs {α : Type} (g : Nat) (xs : List α) : List (List α) := runsFuel xs.length g xs

/-! ### FP32 modes (R69 to R72) -/

/-- A value under accumulation with the flags set so far. -/
def FpR.join (a : FpR) (r : FpR) : FpR := { v := r.v, ovr := a.ovr || r.ovr, inv := a.inv || r.inv }

/-- The binary counter of R69: put a partial into the levels, or keep it in hand. -/
def treeCarry (hold : Bool) : List (Option Word) → FpR → List (Option Word) × FpR
  | [], p => if hold then ([], p) else ([some p.v], p)
  | none :: t, p => if hold then (none :: t, p) else (some p.v :: t, p)
  | some q :: t, p =>
    let (t', p') := treeCarry hold t (p.join (f32Add q p.v))
    (none :: t', p')

/-- Fold the levels left, lowest first. -/
def treeFold (ls : List (Option Word)) (p : FpR) : FpR :=
  ls.foldl (fun p l => match l with | some q => p.join (f32Add q p.v) | none => p) p

/-- R69: combine block partials. -/
def treeGo : List (Option Word) → FpR → List FpR → FpR
  | ls, a, [] => treeFold ls a
  | ls, a, [p] =>
    let (ls', q) := treeCarry true ls { p with ovr := a.ovr || p.ovr, inv := a.inv || p.inv }
    treeFold ls' q
  | ls, a, p :: ps =>
    let (ls', q) := treeCarry false ls { p with ovr := a.ovr || p.ovr, inv := a.inv || p.inv }
    treeGo ls' q ps

/-- One compensated step (R72) on (sum, comp). The additions of comp are done only for a finite t, and
they too may overflow (R73). -/
def compStep (sum comp : Word) (p : FpR) : FpR × Word :=
  let y := f32Sub p.v comp
  let t := f32Add sum y.v
  let d := f32Sub t.v sum
  let c := f32Sub d.v y.v
  if f32IsFinite t.v then
    ({ v := t.v, ovr := p.ovr || y.ovr || t.ovr || d.ovr || c.ovr,
       inv := p.inv || y.inv || t.inv || d.inv || c.inv }, c.v)
  else ({ v := t.v, ovr := p.ovr || y.ovr || t.ovr, inv := p.inv || y.inv || t.inv }, 0#32)

/-! ### EXACT mode (R58, R63 to R65) -/

def nanMarker : BitVec 128 := 0x80000000000000000000000000000000#128
def exactMax : Int := 2 ^ 127 - 1

/-- An exact term: a sum of products, or NaN. -/
inductive Term where
  | num (i : Int) (e : Int)
  | nan
  deriving DecidableEq, Repr

/-- The product of two values as a term; a NaN or infinite factor makes it NaN (R65). -/
def termMul : FVal → FVal → Term
  | .fin n m e, .fin k p g => .num (sgn (n != k) (m * p)) (e + g)
  | _, _ => .nan

def termAdd : Term → Term → Term
  | .num i e, .num j g =>
    let q := min e g
    .num (i * 2 ^ (e - q).toNat + j * 2 ^ (g - q).toNat) q
  | _, _ => .nan

/-- The term of an FP32 addend (R67). -/
def termOf : FVal → Term
  | .fin n m e => .num (sgn n m) e
  | _ => .nan

/-- R63: place a term in the window of anchor `a`: units of 2^(A-88), INEXACT, OVERRANGE. -/
def placeTerm (a : Int) (i e : Int) : Int × Bool × Bool :=
  let (m, e) := normalised i.natAbs e
  let q := a - 88
  let (n, lost) :=
    if q ≤ e then (m * 2 ^ (e - q).toNat, false)
    else
      let d := (q - e).toNat
      let k := m / 2 ^ d
      (if roundsUp .rne k (m % 2 ^ d) d then k + 1 else k, decide (m % 2 ^ d ≠ 0))
  let ovr := decide (2 ^ 127 ≤ n)
  let n := if ovr then 2 ^ 127 - 1 else n
  (if i < 0 then -(n : Int) else n, lost, ovr)

/-- R64: add placed units to an element that is not the NaN marker. -/
def exactAdd (el : BitVec 128) (u : Int) : BitVec 128 × Bool :=
  let s := el.toInt + u
  if exactMax < s then (BitVec.ofInt 128 exactMax, true)
  else if s < -exactMax then (BitVec.ofInt 128 (-exactMax), true)
  else (BitVec.ofInt 128 s, false)

/-- The flags an accumulation sets in its slot. -/
structure AccFlags where
  inexact : Bool := false
  ovr : Bool := false
  inv : Bool := false
  deriving DecidableEq, Repr

def AccFlags.or (a b : AccFlags) : AccFlags :=
  { inexact := a.inexact || b.inexact, ovr := a.ovr || b.ovr, inv := a.inv || b.inv }

/-- R63 to R65: one term into one element. -/
def exactTerm (anchor : BitVec 8) (el : BitVec 128) : Term → BitVec 128 × AccFlags
  | .nan => (nanMarker, { inv := true })
  | .num i e =>
    let (u, lost, ovr) := placeTerm anchor.toInt i e
    if el = nanMarker then (el, { inexact := lost, ovr })
    else
      let (el', sat) := exactAdd el u
      (el', { inexact := lost, ovr := ovr || sat })

/-- R68: a raw element added to an element. -/
def exactRaw (el raw : BitVec 128) : BitVec 128 × AccFlags :=
  if raw = nanMarker then (nanMarker, { inv := true })
  else if el = nanMarker then (el, {})
  else
    let (el', sat) := exactAdd el raw.toInt
    (el', { ovr := sat })

/-- The value an element of a slot presents to conversion (R56, R72, Table 2.5). -/
def elemValue (mode : BitVec 3) (anchor : BitVec 8) (el : BitVec 128) : FVal :=
  if mode = 1#3 || mode = 0#3 then
    if el = nanMarker then .nan
    else if el.toInt = 0 then .fin false 0 0
    else .fin (decide (el.toInt < 0)) el.toInt.natAbs (anchor.toInt - 88)
  else if mode = 6#3 then
    f32 (f32Sub (el.extractLsb' 0 32) (el.extractLsb' 32 32)).v
  else f32 (el.extractLsb' 0 32)

/-! ### MX conversion (R57) -/

/-- emax of a destination element format (R57). -/
def mxEmax : Nat → Int
  | 3 => 8 | 4 => 15 | 5 => 4 | 6 => 2 | 7 => 2 | _ => 0

/-- floor(log2 v) of a positive value. -/
def valLog2 (m : Nat) (e : Int) : Int := (Nat.log2 m : Int) + e

/-- The largest floor(log2) of a group's magnitudes; none for an all-zero group. -/
def groupLog2 (g : List FVal) : Option Int :=
  g.foldl (fun acc v => match v with
    | .fin _ m e => if m = 0 then acc else some (match acc with
        | some l => max l (valLog2 m e)
        | none => valLog2 m e)
    | _ => acc) none

def hasSpecial (g : List FVal) : Bool :=
  g.any fun v => match v with | .fin _ _ _ => false | _ => true

/-- R57: the scale of a group of 32. -/
def mxScale (fmt : Nat) (g : List FVal) : Nat :=
  if hasSpecial g then 0xFF
  else match groupLog2 g with
    | none => 0
    | some l => (min 254 (max 0 (l - mxEmax fmt + 127))).toNat

/-- R57: an element of a group with scale `sc`. -/
def mxElem (fmt : Nat) (sc : Nat) (r : Rounding) (v : FVal) : Nat × Bool :=
  if sc = 0xFF then (0, false)
  else match v with
    | .fin n m e => convert fmt true r (.fin n m (e - ((sc : Int) - 127)))
    | x => convert fmt true r x

/-! ### Reductions (R75 to R79) -/

/-- A lane of MEANVAR. -/
structure Lane where
  n : Nat := 0
  mean : Word := 0#32
  m2 : Word := 0#32
  deriving DecidableEq, Repr

/-- R76: the Welford update. -/
def welford (l : Lane) (x : Word) : Lane :=
  let n := l.n + 1
  let d := (f32Sub x l.mean).v
  let mean := (f32Add l.mean (f32Div d (f32Nat n)).v).v
  { n, mean, m2 := (f32Add l.m2 (f32Mul d (f32Sub x mean).v).v).v }

/-- R76: the Chan merge. -/
def chanMerge (a b : Lane) : Lane :=
  if a.n = 0 then b
  else if b.n = 0 then a
  else
    let n := a.n + b.n
    let d := (f32Sub b.mean a.mean).v
    let f := (f32Div (f32Nat b.n) (f32Nat n)).v
    { n
      mean := (f32Add a.mean (f32Mul d f).v).v
      m2 := (f32Add (f32Add a.m2 b.m2).v
        (f32Mul (f32Mul d d).v (f32Mul (f32Nat a.n) f).v).v).v }

/-- Merge neighbours. -/
def mergePairs : List Lane → List Lane
  | a :: b :: t => chanMerge a b :: mergePairs t
  | l => l

/-- R76: deal to 16 lanes, run Welford in each, merge in the fixed tree. Of one element R78 states the
results, so -0 keeps its sign and an infinity or NaN leaves M2 0. -/
def meanVar (xs : List Word) : Lane :=
  match xs with
  | [x] => { n := 1, mean := if f32IsNan x then f32Nan else x, m2 := 0#32 }
  | _ =>
  let lanes := (List.range 16).map fun i =>
    (((List.range xs.length).zip xs).filter fun p => p.1 % 16 = i).foldl (fun l p => welford l p.2) {}
  ((mergePairs (mergePairs (mergePairs (mergePairs lanes)))).head?).getD {}

/-- A key that orders finite values and infinities, -0 below +0 (R77): scaled by 2^200. -/
def orderKey : FVal → Int
  | .nan => 0
  | .inf neg => sgn neg (2 ^ 600)
  | .fin neg m e => sgn neg (m * 2 ^ (e + 200).toNat) * 2 - bit neg

/-- R77: the index and value of the extreme, or of the first NaN. -/
def extreme (isMax : Bool) (xs : List FVal) : Option (Nat × FVal) :=
  match (List.range xs.length).zip xs |>.find? (fun p => p.2 == .nan) with
  | some p => some p
  | none =>
    ((List.range xs.length).zip xs).foldl (fun acc p => match acc with
      | none => some p
      | some b =>
        let better := if isMax then decide (orderKey b.2 < orderKey p.2)
          else decide (orderKey p.2 < orderKey b.2)
        if better then some p else some b) none

/-- R75: the FP32 value of an element, exact for every narrower format. -/
def toF32 (v : FVal) : Word := BitVec.ofNat 32 (toFloat fmtFP32 .rne v).1

end Sys2Proof.Machine
end

