-- ==== Sys2Proof/Machine/Operands.lean ====
section
/-! DEFINITION. The operand forms of the tensor instructions: descriptors, footprints, walk orders,
and the reading and writing of elements in the scratchpad (03 R82 to R89, R97; 02 R47). -/
namespace Sys2Proof.Machine

/-! ### Tensor descriptors (03 Table 3.2) -/

structure TD where
  base : Nat
  region : Nat
  fmt : Nat
  mx : Bool
  orient : Bool
  stream : Bool
  rows : Nat
  cols : Nat
  rowStride : Nat
  batchStride : Nat
  scaleRegion : Nat
  scaleBase : Nat
  deriving DecidableEq, Repr

def TD.ofBits (d : BitVec 128) : TD :=
  let v := d.toNat
  { base := bits v 19 0, region := bits v 24 20, fmt := bits v 28 25, mx := d.getLsbD 29
    orient := d.getLsbD 30, stream := d.getLsbD 31, rows := bits v 47 32, cols := bits v 63 48
    rowStride := bits v 83 64, batchStride := bits v 103 84, scaleRegion := bits v 108 104
    scaleBase := bits v 126 109 }

def TD.width (d : TD) : Nat := fmtWidth d.fmt

/-- R84: words one row occupies. -/
def TD.rw (d : TD) : Nat :=
  if d.width = 6 then 3 * ((d.cols + 15) / 16) else (d.cols * d.width + 31) / 32

/-- R84: words of one batch item. -/
def TD.item (d : TD) : Nat := (d.rows - 1) * d.rowStride + d.rw

/-- R84: words of the footprint for a batch count. -/
def TD.span (d : TD) (n : Nat) : Nat := (n - 1) * d.batchStride + d.item

/-- R86: bytes of the scale span. -/
def TD.scaleBytes (d : TD) (n : Nat) : Nat :=
  (if d.batchStride = 0 then 1 else n) * d.rows * (d.cols / 32)

/-- R86: the byte offset of the scale of block j of row r of item b. -/
def TD.scaleAt (d : TD) (b r j : Nat) : Nat :=
  16 * d.scaleBase + (if d.batchStride = 0 then 0 else b) * d.rows * (d.cols / 32) + r * (d.cols / 32) + j

/-! ### Walk orders (03 R97) -/

/-- The even bits of a number, packed, with fuel. -/
def evenBits : Nat → Nat → Nat
  | 0, _ => 0
  | k + 1, d => d % 2 + 2 * evenBits k (d / 4)

/-- The loop of hilbert(), from bit position s on: x, y after `k` more rounds. -/
def hilbertGo : Nat → Nat → Nat → Nat → Nat → Nat × Nat
  | 0, _, _, x, y => (x, y)
  | k + 1, s, t, x, y =>
    let rx := (t / 2) % 2
    let ry := (t ^^^ rx) % 2
    let (x, y) := if ry = 0 then
        (if rx = 1 then (s - 1 - y, s - 1 - x) else (y, x))
      else (x, y)
    hilbertGo k (2 * s) (t / 4) (x + s * rx) (y + s * ry)

/-- The points (m, n) of walk_seq: order 0 ROW, 1 MORTON, 2 HILBERT. -/
def walkSeq (order mb nb : Nat) : List (Nat × Nat) :=
  if order = 0 then (List.range mb).flatMap fun m => (List.range nb).map fun n => (m, n)
  else
    let l := ceilLog2 (max mb nb)
    ((List.range (4 ^ l)).map fun d =>
      if order = 1 then (evenBits l (d / 2), evenBits l d)
      else
        let p := hilbertGo l 1 d 0 0
        (p.2, p.1)).filter fun p => decide (p.1 < mb) && decide (p.2 < nb)

/-! ### Elements in a region (02 R47; 03 R83, R85) -/

/-- `w` bits at bit offset `bit` of the row that starts at word offset `off` of region n. -/
def State.readField (s : State) (t n off bit w : Nat) : Nat :=
  let r := s.region t n
  let k := off + bit / 32
  let lo := (s.readWord t (r.wordAt k)).toNat
  let hi := if bit % 32 + w ≤ 32 then 0 else (s.readWord t (r.wordAt (k + 1))).toNat
  ((lo + 2 ^ 32 * hi) / 2 ^ (bit % 32)) % 2 ^ w

/-- Replace `w` bits at `bit` of a word. -/
def putBits (v : Word) (bit w x : Nat) : Word :=
  BitVec.ofNat 32 (v.toNat % 2 ^ bit + (x % 2 ^ w) * 2 ^ bit + v.toNat / 2 ^ (bit + w) * 2 ^ (bit + w))

/-- Write a field; other bits of its words stay (R85). -/
def State.writeField (s : State) (t n off bit w x : Nat) : State :=
  let r := s.region t n
  let k := off + bit / 32
  let p := bit % 32
  if p + w ≤ 32 then
    s.writeWord t (r.wordAt k) (putBits (s.readWord t (r.wordAt k)) p w x)
  else
    let s := s.writeWord t (r.wordAt k) (putBits (s.readWord t (r.wordAt k)) p (32 - p) x)
    s.writeWord t (r.wordAt (k + 1))
      (putBits (s.readWord t (r.wordAt (k + 1))) 0 (p + w - 32) (x / 2 ^ (32 - p)))

/-- Element (r, c) of item b, from the start `base` of the operand. -/
def State.readElem (s : State) (t : Nat) (d : TD) (base b r c : Nat) : Nat :=
  s.readField t d.region (base + b * d.batchStride + r * d.rowStride) (c * d.width) d.width

def State.writeElem (s : State) (t : Nat) (d : TD) (base b r c x : Nat) : State :=
  s.writeField t d.region (base + b * d.batchStride + r * d.rowStride) (c * d.width) d.width x

/-- The byte at a byte offset of a region. -/
def Region.byteAt (r : Region) (off : Nat) : Nat :=
  4 * r.wordAt (off / 4) + off % 4

/-- The scale byte of block j of row r of item b. -/
def State.readScale (s : State) (t : Nat) (d : TD) (b r j : Nat) : Nat :=
  (s.readByte (spadAddr t ((s.region t d.scaleRegion).byteAt (d.scaleAt b r j)))).toNat

def State.writeScale (s : State) (t : Nat) (d : TD) (b r j v : Nat) : State :=
  s.writeByte (spadAddr t ((s.region t d.scaleRegion).byteAt (d.scaleAt b r j))) (BitVec.ofNat 8 v)

/-- An element of an operand as it lies in memory: its code, and its scale byte with MX. -/
def State.elemCode (s : State) (t : Nat) (d : TD) (base b r c : Nat) : Nat × Nat :=
  (s.readElem t d base b r c, if d.mx then s.readScale t d b r (c / 32) else 0)

/-- The value of an element, scale included (02 R50). -/
def TD.codeVal (d : TD) (e : Nat × Nat) : FVal :=
  let v := decodeElem d.fmt d.mx e.1
  if !d.mx then v
  else if e.2 = 0xFF then .nan
  else match v with
    | .fin n m x => .fin n m (x + ((e.2 : Int) - 127))
    | x => x

def State.elemVal (s : State) (t : Nat) (d : TD) (base b r c : Nat) : FVal :=
  d.codeVal (s.elemCode t d base b r c)

/-! ### Roles (03 Table 3.4) -/

/-- Element at (m, k) of A, or (n, k) of B: row is the first index when ORIENT is 0 for A and B. -/
def State.matCode (s : State) (t : Nat) (d : TD) (base b i k : Nat) : Nat × Nat :=
  if d.orient then s.elemCode t d base b k i else s.elemCode t d base b i k

/-- Rows of A (m), or of B (n). -/
def TD.outer (d : TD) : Nat := if d.orient then d.cols else d.rows
def TD.inner (d : TD) : Nat := if d.orient then d.rows else d.cols

/-! ### Formats and modes (02 R51, R62; 03 R99) -/

def isFloatIn (f : Nat) : Bool := decide (1 ≤ f) && decide (f ≤ 7)
def isNarrow (f : Nat) : Bool := decide (3 ≤ f) && decide (f ≤ 8)
/-- MX is allowed with the format (03 Table 3.3). -/
def mxAllowed (d : TD) : Bool := !d.mx || isNarrow d.fmt
/-- A format for a product operand. -/
def matFmtOk (d : TD) : Bool := (isFloatIn d.fmt || d.fmt == 8) && mxAllowed d

/-- R51: may the formats pair? -/
def pairOk (a b : TD) : Bool :=
  if a.fmt = 8 ∨ b.fmt = 8 then a.fmt == b.fmt && a.mx == b.mx
  else decide ((a.fmt ≤ 2) ↔ (b.fmt ≤ 2))

/-- Output formats of C and D: not UINT32 or INT64. -/
def outFmtOk (d : TD) : Bool := (isFloatIn d.fmt || d.fmt == 8 || d.fmt == 9) && !d.mx

/-- 02 Table 2.8: may the mode take the pair? -/
def modeOk (mode : Nat) (a b : TD) : Bool :=
  if a.mx || b.mx || a.fmt == 8 || b.fmt == 8 then mode == 1
  else if a.fmt ≤ 2 then decide (2 ≤ mode) && decide (mode ≤ 6)
  else decide (1 ≤ mode) && decide (mode ≤ 6)

/-- 02 R62, Table 2.7: the mode an instruction resolves to; none is ILLEGAL_MODE. -/
def resolveMode (named slot : BitVec 3) (a b : TD) : Option (BitVec 3) :=
  let r := if named = 0#3 then
      (if slot = 0#3 then (if a.fmt ≤ 2 then 2#3 else 1#3) else slot)
    else named
  if named = 7#3 then none
  else if slot ≠ 0#3 ∧ r ≠ slot then none
  else if modeOk r.toNat a b then some r else none

/-- 02 R69: the extra slots of a TREE instruction over n block partials. -/
def treeLevels (n : Nat) : Nat := ceilLog2 n

end Sys2Proof.Machine
end

