-- ==== Sys2Proof/Machine/Flags.lean ====
section
/-! DEFINITION. Accumulation into an element with the flags it sets in its slot (02 R62 to R73). -/
namespace Sys2Proof.Machine

def FpR.flags (r : FpR) : AccFlags := { ovr := r.ovr, inv := r.inv }

/-- The FP32 products of the pairs of one output element: rounded once (02, FP32 modes). -/
def products (ps : List (FVal × FVal)) : List Word :=
  ps.map fun p => (f32Mul (toF32 p.1) (toF32 p.2)).v

/-- The pairwise sum of products; a NaN product is a NaN operand of an addition (R73). -/
def partialSum (ws : List Word) : FpR :=
  let r := pairwise ws
  { r with inv := r.inv || ws.any f32IsNan }

/-- R69: TREE. -/
def accTree (el : BitVec 128) (ps : List Word) : BitVec 128 × AccFlags :=
  let p := treeGo [] { v := 0 } ((runs 16 ps).map partialSum)
  let r := f32Add (el.setWidth 32) p.v
  (r.v.setWidth 128, (p.flags).or r.flags)

/-- R71: GROUPg. -/
def accGroup (g : Nat) (el : BitVec 128) (ps : List Word) : BitVec 128 × AccFlags :=
  let r := (runs g ps).foldl (fun (a : FpR) ws =>
    let p := partialSum ws
    (a.join p).join (f32Add a.v p.v)) { v := el.setWidth 32 }
  (r.v.setWidth 128, r.flags)

/-- R72: COMPENSATED. -/
def accComp (el : BitVec 128) (ps : List Word) : BitVec 128 × AccFlags :=
  let (r, comp) := (runs 16 ps).foldl (fun (a : FpR × Word) ws =>
    let q := compStep a.1.v a.2 (partialSum ws)
    (a.1.join q.1, q.2)) (({ v := el.setWidth 32 } : FpR), el.extractLsb' 32 32)
  (comp.setWidth 128 <<< 32 ||| r.v.setWidth 128, r.flags)

/-- R63 to R65: EXACT, one term per run of products. -/
def accExact (anchor : BitVec 8) (el : BitVec 128) (terms : List Term) : BitVec 128 × AccFlags :=
  terms.foldl (fun a t =>
    let r := exactTerm anchor a.1 t
    (r.1, a.2.or r.2)) (el, {})

/-- Accumulate the products of one output element, in K order; `mx` makes a term of 32. -/
def accumulate (mode : BitVec 3) (anchor : BitVec 8) (mx : Bool) (el : BitVec 128)
    (ps : List (FVal × FVal)) : BitVec 128 × AccFlags :=
  match mode.toNat with
  | 1 => accExact anchor el ((runs (if mx then 32 else 16) ps).map fun r =>
      r.foldl (fun t p => termAdd t (termMul p.1 p.2)) (.num 0 0))
  | 2 => accTree el (products ps)
  | 3 => accGroup 4 el (products ps)
  | 4 => accGroup 8 el (products ps)
  | 5 => accGroup 16 el (products ps)
  | 6 => accComp el (products ps)
  | _ => (el, {})

/-- The slot takes the flags of an accumulation; flags are sticky (02 Table 2.6). -/
def Slot.mark (x : Slot) (f : AccFlags) (sat : Bool := false) : Slot :=
  { x with inexact := x.inexact || f.inexact, overrange := x.overrange || f.ovr
           invalid := x.invalid || f.inv, cvtSat := x.cvtSat || sat }

/-- 02 R67, R68; 04 R154: an addend into one element of a slot. A two or three word addend, or a
four-word addend into an FP32 slot, is refused with INVALID. -/
def Slot.addend (x : Slot) (i : Nat) (words : List Word) : Slot :=
  let mode : BitVec 3 := if x.mode ≠ 0#3 then x.mode
    else if words.length = 1 then 2#3 else if words.length = 4 then 1#3 else 0#3
  let el := x.elem i
  let v := words.getD 0 0
  let put := fun (r : BitVec 128 × AccFlags) =>
    ({ x with mode, elems := x.dense.set i r.1 }).mark r.2
  if words.length = 1 then
    if mode = 1#3 then put (exactTerm x.anchor el (termOf (f32 v)))
    else if mode = 6#3 then
      let (r, comp) := compStep (el.setWidth 32) (el.extractLsb' 32 32) { v, inv := f32IsNan v }
      put (comp.setWidth 128 <<< 32 ||| r.v.setWidth 128, r.flags)
    else
      let r := f32Add (el.setWidth 32) v
      put (r.v.setWidth 128, r.flags)
  else if words.length = 4 ∧ mode = 1#3 then
    put (exactRaw el (BitVec.ofNat 128 (words.foldr (fun w n => w.toNat + 2 ^ 32 * n) 0)))
  else x.mark { inv := true }

end Sys2Proof.Machine
end

