-- ==== Sys2Proof/Machine/Tensor.lean ====
section
/-! DEFINITION. The tensor instructions: encodings, issue checks, execution, retirement (03). -/
namespace Sys2Proof.Machine

/-! ### Slots and footprints of an instruction in flight -/

/-- The slots an instruction targets, TREE extra slots included (03 R105, R111; 02 R69). -/
def InFlight.targets (i : InFlight) : List Nat :=
  match i.op with
  | .tmm slot mode _ _ _ _ _ =>
    let d := TD.ofBits i.td1
    let l := if mode = 2#3 then treeLevels (d.inner / 16) else 0
    (List.range (l + 1)).map (slot + ·)
  | .acmInit slot _ => [slot]
  | .acmStore slot _ _ _ => [slot]
  | .vred _ _ _ _ => []
  | .vcvt _ _ _ => []

/-- The batch count of its descriptors. -/
def InFlight.batch (i : InFlight) : Nat :=
  match i.op with
  | .tmm _ _ _ _ _ _ ctrl => bits ctrl.toNat 15 0
  | _ => 1

/-- Its descriptors with whether each is an output, in the order of `InFlight.tds`. -/
def InFlight.uses (i : InFlight) : List (TD × Bool) :=
  match i.op with
  | .tmm _ _ out _ _ _ _ =>
    [(TD.ofBits i.td1, false), (TD.ofBits i.td2, false)]
      ++ (if out then [(TD.ofBits i.td3, true)] else [])
  | .acmInit _ _ => []
  | .acmStore _ _ _ _ => [(TD.ofBits i.td1, true)]
  | .vred _ _ _ _ | .vcvt _ _ _ => [(TD.ofBits i.td1, true), (TD.ofBits i.td2, false)]

/-- The start of each descriptor's operand: BASE, or the start of its claim (R88); none while that
claim waits. -/
def bases (s : State) : List (TD × Bool) → List ClaimRef → List (Option Nat)
  | [], _ => []
  | (d, _) :: ds, ks =>
    if d.stream then
      match ks with
      | [] => none :: bases s ds []
      | k :: ks => ((s.claimOf k).map fun c => c.start.off) :: bases s ds ks
    else some d.base :: bases s ds ks

/-- The scratchpad words of `len` words from an offset of a region. -/
def Region.interval (r : Region) (off len : Nat) : List (Nat × Nat) :=
  if r.circular && r.size != 0 then
    let o := off % r.size
    if o + len ≤ r.size then [(r.base + o, r.base + o + len)]
    else [(r.base + o, r.base + r.size), (r.base, r.base + (o + len - r.size))]
  else [(r.base + off, r.base + off + len)]

def meets (xs ys : List (Nat × Nat)) : Bool :=
  xs.any fun x => ys.any fun y => decide (max x.1 y.1 < min x.2 y.2)

/-- The words a descriptor's elements and scales cover. An operand whose claim still waits may
lie anywhere in its region. -/
def State.cover (s : State) (t n : Nat) (d : TD) (start : Option Nat) : List (Nat × Nat) :=
  let r := s.region t d.region
  let el := match start with
    | some b => r.interval b (d.span n)
    | none => [(r.base, r.base + r.size)]
  let sc := if d.mx then
      let lo := 4 * d.scaleBase
      (s.region t d.scaleRegion).interval lo ((d.scaleBytes n + 3) / 4)
    else []
  el ++ sc

/-- What an in-flight instruction reads and what it writes, by a function that says what an operand covers. -/
def State.touchesBy (s : State) (cov : TD → Option Nat → List (Nat × Nat)) (i : InFlight) :
    List (Nat × Nat) × List (Nat × Nat) :=
  let us := i.uses.zip (bases s i.uses i.claims)
  ((us.filter (!·.1.2)).flatMap (fun u => cov u.1.1 u.2), (us.filter (·.1.2)).flatMap (fun u => cov u.1.1 u.2))

def State.touches (s : State) (t : Nat) (i : InFlight) : List (Nat × Nat) × List (Nat × Nat) :=
  s.touchesBy (s.cover t i.batch) i

/-- The scratchpad bytes of `len` bytes from a byte offset of a region. -/
def Region.byteRuns (r : Region) (off len : Nat) : List (Nat × Nat) :=
  let size := 4 * r.size
  if r.circular && r.size != 0 then
    let o := off % size
    if o + len ≤ size then [(4 * r.base + o, 4 * r.base + o + len)]
    else [(4 * r.base + o, 4 * r.base + size), (4 * r.base, 4 * r.base + (o + len - size))]
  else [(4 * r.base + off, 4 * r.base + off + len)]

/-- The scratchpad bytes of a descriptor's rows and scales; of an operand whose claim waits, its region's. -/
def State.byteCover (s : State) (t n : Nat) (d : TD) (start : Option Nat) : List (Nat × Nat) :=
  let r := s.region t d.region
  let rows := match start with
    | some w => (List.range n).flatMap fun b => (List.range d.rows).flatMap fun k =>
        r.byteRuns (4 * (w + b * d.batchStride + k * d.rowStride)) ((d.cols * d.width + 7) / 8)
    | none => [(4 * r.base, 4 * (r.base + r.size))]
  rows ++ if d.mx then (s.region t d.scaleRegion).byteRuns (16 * d.scaleBase) (d.scaleBytes n) else []

def State.byteTouches (s : State) (t : Nat) (i : InFlight) : List (Nat × Nat) × List (Nat × Nat) :=
  s.touchesBy (s.byteCover t i.batch) i

/-- R111: must `j`, the later one, take effect after `i`? -/
def State.ordered (s : State) (t : Nat) (i j : InFlight) : Bool :=
  let a := s.touches t i
  let b := s.touches t j
  i.targets.any (fun k => j.targets.contains k)
    || meets a.2 (b.1 ++ b.2) || meets b.2 (a.1 ++ a.2)
    || i.uses.any fun u => u.1.stream && j.uses.any fun v => v.1.stream && u.1.region == v.1.region

/-! ### Unordered accesses (R112) -/

/-- The instructions of a tile's cores that have taken effect here and have not retired. -/
def State.flying (s : State) (t : Nat) (p : Nat → Bool) : List (Nat × InFlight) :=
  ((coresOfTile t).filter p).flatMap fun c =>
    ((s.core c).btx.filter (·.executed)).map fun i => (c, i)

/-- Does one of them write the words that another agent reads: may that read see either value? -/
def State.racyRead (s : State) (t : Nat) (p : Nat → Bool) (ws : List (Nat × Nat)) : Bool :=
  (s.flying t p).any fun f => meets (s.touches t f.2).2 ws

/-- Scratchpad words become unpredictable. -/
def State.scrambleWords (s : State) (t : Nat) (ws : List (Nat × Nat)) : State :=
  ws.foldl (fun s w => s.scramble (spadAddr t (4 * w.1)) (spadAddr t (4 * w.2))) s

/-- The words that two footprints share. -/
def overlap (xs ys : List (Nat × Nat)) : List (Nat × Nat) :=
  (xs.flatMap fun x => ys.map fun y => (max x.1 y.1, min x.2 y.2)).filter fun w => decide (w.1 < w.2)

/-- Slots whose elements are unpredictable afterwards: free values (02 R70). -/
def State.freeSlots (s : State) (c : Nat) (ks : List Nat) : State :=
  ks.foldl (fun s k =>
    let n := s.freeCtr
    let s := { s with freeCtr := n + 256 }
    s.setSlot c k { s.slot c k with
      elems := (List.range 256).map fun i => Config.free 128 (n + i) }) s

/-- Flags that an unpredictable accumulation or conversion may have set besides those it did set. -/
def State.freeFlags (s : State) (c k : Nat) : State :=
  let (n, s) := s.fresh
  let b := fun i => (Config.free 4 n).getLsbD i
  s.modSlotState c k (·.mark { inexact := b 0, ovr := b 1, inv := b 2 } (b 3))

/-- What an instruction wrote is unpredictable, for it read words that were being written. -/
def State.freeResult (s : State) (c : Nat) (i : InFlight) : State :=
  let s := s.scrambleWords (tileOf c) (s.touches (tileOf c) i).2
  match i.op with
  | .tmm slot _ _ _ _ _ _ => (s.freeSlots c i.targets).freeFlags c slot
  | .acmStore slot _ _ _ => s.freeFlags c slot
  | _ => s

/-- Does a scalar load of bytes meet bytes that an instruction in flight writes? -/
def State.racyLoad (s : State) (t : Nat) (b : Nat × Nat) : Bool :=
  (s.flying t fun _ => true).any fun f => meets (s.byteTouches t f.2).2 [b]

/-- A scalar store of bytes beside the instructions in flight of its tile: bytes that both write, and the results
of instructions that read them, are unpredictable. Other bytes of their words stay as each writer writes them
(04 R121; log 64). -/
def State.racyStore (s : State) (t : Nat) (b : Nat × Nat) : State :=
  (s.flying t fun _ => true).foldl (fun s f =>
    let x := s.byteTouches t f.2
    let s := if meets x.1 [b] then s.freeResult f.1 f.2 else s
    (overlap x.2 [b]).foldl (fun s r => s.scramble (spadAddr t r.1) (spadAddr t r.2)) s) s

/-- A write of words by an instruction that no order binds to the instructions in flight of these cores: words
that both write, and the results of instructions that read them, are unpredictable (R112; log 64). -/
def State.racyWrite (s : State) (t : Nat) (p : Nat → Bool) (ws : List (Nat × Nat)) : State :=
  (s.flying t p).foldl (fun s f =>
    let x := s.touches t f.2
    let s := if meets x.1 ws then s.freeResult f.1 f.2 else s
    s.scrambleWords t (overlap x.2 ws)) s

/-! ### Execution -/

/-- The rounding of an element: RND of the instruction, the seed of the context (02 R54). -/
def State.rounding (s : State) (c : Nat) (rnd : Bool) (srseq : BitVec 27) (elem : Nat) : Rounding :=
  if rnd then
    .sr (randomBits (match s.ownerOfCore c with
      | some k => (s.ctx k).seed
      | none => 0) c srseq elem)
  else .rne

/-- The 16 rows of block i of an operand, of A or of B, as they lie in memory. -/
def State.blockRows (s : State) (t : Nat) (d : TD) (base b i : Nat) : List (List (Nat × Nat)) :=
  (List.range 16).map fun r => (List.range d.inner).map fun k => s.matCode t d base b (16 * i + r) k

/-- Accumulate one output block into a slot from its operand rows (R93, the k loop). -/
def accumulateBlock (x : Slot) (mode : BitVec 3) (da db : TD) (rows cols : List (List (Nat × Nat))) : Slot :=
  let rows := rows.map (·.map da.codeVal)
  let cols := cols.map (·.map db.codeVal)
  let els := (List.range 256).map fun e =>
    accumulate mode x.anchor (da.mx || db.mx) (x.elem e)
      ((rows.getD (e / 16) []).zip (cols.getD (e % 16) []))
  ({ x with mode, elems := els.map Prod.fst }).mark (els.foldl (fun (f : AccFlags) (e : BitVec 128 × AccFlags) => f.or e.2) {})

/-- Accumulate one output block of a TMM into a slot. -/
def State.tmmBlock (s : State) (t : Nat) (x : Slot) (mode : BitVec 3) (da db : TD)
    (ba bb b m n : Nat) : Slot :=
  accumulateBlock x mode da db (s.blockRows t da ba b m) (s.blockRows t db bb b n)

/-- The blocks of a TMM in the order of its loops (R93, R97): batch item, m, n. -/
def blockVisits (da db : TD) (ctrl : Word) : List (Nat × Nat × Nat) :=
  let walk := walkSeq (bits ctrl.toNat 17 16) (da.outer / 16) (db.outer / 16)
  (List.range (bits ctrl.toNat 15 0)).flatMap fun b => walk.map fun p => (b, p)

/-- Store one output block into C (R93 store_block, R96). -/
def State.storeBlock (s : State) (c : Nat) (x : Slot) (d : TD) (base b m n mm nn : Nat) (rnd : Bool)
    (srseq : BitVec 27) : State × Bool :=
  let t := tileOf c
  (List.range 256).foldl (fun (acc : State × Bool) e =>
    let mg := 16 * m + e / 16
    let ng := 16 * n + e % 16
    let (code, sat) := convert d.fmt false
      (s.rounding c rnd srseq (b * mm * nn + mg * nn + ng)) (elemValue x.mode x.anchor (x.elem e))
    (if d.orient then acc.1.writeElem t d base b ng mg code
      else acc.1.writeElem t d base b mg ng code, acc.2 || sat)) (s, false)

/-- TMM (R93 to R95): the loop over batch items and output blocks. -/
def State.runTmm (s : State) (c : Nat) (i : InFlight) (slot : Nat) (mode : BitVec 3) (out : Bool)
    (ctrl : Word) (bs : List Nat) : State :=
  let t := tileOf c
  let da := TD.ofBits i.td1
  let db := TD.ofBits i.td2
  let dc := TD.ofBits i.td3
  let mm := da.outer
  let nn := db.outer
  let s := (blockVisits da db ctrl).foldl (fun s (v : Nat × Nat × Nat) =>
    let x := s.slot c slot
    let x := if out then { x with elems := [] } else x
    let x := s.tmmBlock t x mode da db (bs.getD 0 0) (bs.getD 1 0) v.1 v.2.1 v.2.2
    if out then
      let (s, sat) := s.storeBlock c x dc (bs.getD 2 0) v.1 v.2.1 v.2.2 mm nn (ctrl.getLsbD 18) i.srseq
      s.setSlot c slot (x.mark {} sat)
    else s.setSlot c slot x) s
  s.freeSlots c (i.targets.drop 1)

/-- ACM.STORE (R102). -/
def State.runStore (s : State) (c : Nat) (i : InFlight) (slot : Nat) (rnd zero : Bool) (base : Nat) :
    State :=
  let d := TD.ofBits i.td1
  let x := s.slot c slot
  let (s, sat) := (List.range 256).foldl (fun (acc : State × Bool) e =>
    let v := if x.mode = 0#3 then FVal.fin false 0 0 else elemValue x.mode x.anchor (x.elem e)
    let (code, sat) := convert d.fmt false (s.rounding c rnd i.srseq e) v
    let m := e / 16
    let n := e % 16
    (if d.orient then acc.1.writeElem (tileOf c) d base 0 n m code
      else acc.1.writeElem (tileOf c) d base 0 m n code, acc.2 || sat)) (s, false)
  let y := x.mark {} sat
  s.setSlot c slot (if zero then { y with elems := [] } else y)

/-- The bits of a 64-bit two's-complement integer. -/
def int64Bits (i : Int) : Nat := (i % 2 ^ 64).toNat

/-- The result row of a reduction of one sequence (02 Table 2.13): values of TDD's elements. -/
def reduce (op fmt dfmt : Nat) (codes : List Nat) (rnd : Nat → Rounding) : List Nat :=
  let vals := codes.map fun c => decodeElem fmt false c
  let xs := vals.map toF32
  let ints := codes.map fun c => signed 8 c
  let narrow := fun (w : Word) => (convert dfmt false (rnd 0) (f32 w)).1
  match op with
  | 0 => if fmt = 8 then [int64Bits ints.sum] else [narrow (partialSum xs).v]
  | 1 => if fmt = 8 then [int64Bits (ints.map fun i => i * i).sum]
    else [narrow (pairwise (xs.map fun x => (f32Mul x x).v)).v]
  | 2 =>
    let l := meanVar xs
    [l.n, l.mean.toNat, l.m2.toNat]
  | 5 => match extreme true vals with
    | some p => [p.1]
    | none => [0]
  | _ => match extreme (op == 3) vals with
    | some p => match p.2 with
      | .nan => [(match floatFmt fmt with
          | some f => f.nanCode.getD 0
          | none => 0)]
      | _ => [codes.getD p.1 0]
    | none => [0]

/-- The index (r, c) of element j of sequence q of a source. -/
def TD.seqIndex (d : TD) (q j : Nat) : Nat × Nat := if d.orient then (j, q) else (q, j)

/-- VRED (R103). -/
def State.runVred (s : State) (c : Nat) (i : InFlight) (op : Nat) (rnd : Bool) (bd bsrc : Nat) : State :=
  let t := tileOf c
  let dd := TD.ofBits i.td1
  let ds := TD.ofBits i.td2
  let (nseq, len) := if ds.orient then (ds.cols, ds.rows) else (ds.rows, ds.cols)
  (List.range nseq).foldl (fun s' q =>
    let codes := (List.range len).map fun j =>
      s.readElem t ds bsrc 0 (ds.seqIndex q j).1 (ds.seqIndex q j).2
    let row := reduce op ds.fmt dd.fmt codes fun e => s.rounding c rnd i.srseq (q * dd.cols + e)
    ((List.range row.length).zip row).foldl (fun s' p => s'.writeElem t dd bd 0 q p.1 p.2) s') s

/-- VCVT (R104): element (r, c) of the destination comes from (r, c) or (c, r) of the source. -/
def State.runVcvt (s : State) (c : Nat) (i : InFlight) (rnd : Bool) (bd bsrc : Nat) : State :=
  let t := tileOf c
  let dd := TD.ofBits i.td1
  let ds := TD.ofBits i.td2
  let src := fun r k => if dd.orient == ds.orient then s.elemVal t ds bsrc 0 r k
    else s.elemVal t ds bsrc 0 k r
  (List.range dd.rows).foldl (fun s' r =>
    if dd.mx then
      (List.range (dd.cols / 32)).foldl (fun s' g =>
        let vs := (List.range 32).map fun k => src r (32 * g + k)
        let sc := mxScale dd.fmt vs
        let s' := s'.writeScale t dd 0 r g sc
        ((List.range 32).zip vs).foldl (fun s' p =>
          s'.writeElem t dd bd 0 r (32 * g + p.1)
            (mxElem dd.fmt sc (s.rounding c rnd i.srseq (r * dd.cols + 32 * g + p.1)) p.2).1) s') s'
    else
      (List.range dd.cols).foldl (fun s' k =>
        s'.writeElem t dd bd 0 r k
          (convert dd.fmt false (s.rounding c rnd i.srseq (r * dd.cols + k)) (src r k)).1) s') s

/-- The effect of an instruction whose claims are granted. -/
def State.runOp (s : State) (c : Nat) (i : InFlight) (bs : List Nat) : State :=
  match i.op with
  | .tmm slot mode out _ _ _ ctrl => s.runTmm c i slot mode out ctrl bs
  | .acmInit slot anchor => s.setSlot c slot { anchor }
  | .acmStore slot _ rnd zero => s.runStore c i slot rnd zero (bs.getD 0 0)
  | .vred _ _ op rnd => s.runVred c i op.toNat rnd (bs.getD 0 0) (bs.getD 1 0)
  | .vcvt _ _ rnd => s.runVcvt c i rnd (bs.getD 0 0) (bs.getD 1 0)

/-! ### Cross-check samples (11 R406 to R410) -/

/-- The checker tile of a sector. -/
def State.checkerOf (s : State) (sec : Nat) : Option Nat :=
  (physOfSector sec).find? fun p => (s.phy p).checker

/-- The TAG of the descriptor that a core's kernel runs for; 0 with none (DEDUCED, log 42). -/
def State.runningTag (s : State) (c : Nat) : Half :=
  match (s.core c).krn.running with
  | none => 0
  | some id => match (s.queues.flatMap fun q => q.2.descs).find? (·.id == id) with
    | some d => BitVec.ofNat 16 d.tag
    | none => 0

/-- May the cross-check run in a sector (11 Tables 11.4 and 11.11)? -/
def State.crossCheckRuns (s : State) (n : Nat) : Bool :=
  s.xchk.enabled && (s.sector n).st == .up && decide (32 < (s.sector n).usable)
    && (s.lifecycle == 2 || s.lifecycle == 3)

/-- The blocks of an instruction that the sector's generator draws, and the generator after them (R406). -/
def State.drawBlocks (s : State) (sec : Nat) (op : BtxOp) (td1 td2 : BitVec 128) :
    List (Nat × Nat × Nat) × State :=
  match op with
  | .tmm _ _ true _ _ _ ctrl =>
    if !s.crossCheckRuns sec then ([], s)
    else
      let x := s.sector sec
      let vs := blockVisits (TD.ofBits td1) (TD.ofBits td2) ctrl
      ((vs.zipIdx.filter fun e => Config.xchkDraw x.xSeed (x.xDraws + e.2) s.xchk.rateLog2).map Prod.fst,
        s.modSector sec fun x => { x with xDraws := x.xDraws + vs.length })
  | _ => ([], s)

/-- What the producer sends the checker of a drawn block (R408). The mirrored rows are carried whole in the
step that draws them (log 42). -/
def State.sampleOf (s : State) (c p : Nat) (i : InFlight) (mode : BitVec 3) (anchor : Byte) (bs : List Nat)
    (v : Nat × Nat × Nat) : XchkSample :=
  let t := tileOf c
  let da := TD.ofBits i.td1
  let db := TD.ofBits i.td2
  let rows := s.blockRows t da (bs.getD 0 0) v.1 v.2.1
  let cols := s.blockRows t db (bs.getD 1 0) v.1 v.2.2
  { core := c, producer := p, tag := s.runningTag c, b := v.1, m := v.2.1, n := v.2.2, temp := (s.phy p).temp
    mode, anchor, tda := i.td1, tdb := i.td2, rows, cols
    elems := (accumulateBlock { anchor } mode da db rows cols).elems }

/-- What the checker computes from what it was sent (R408). -/
def recomputeSample (d : XchkSample) : List (BitVec 128) :=
  (accumulateBlock { anchor := d.anchor } d.mode (TD.ofBits d.tda) (TD.ofBits d.tdb) d.rows d.cols).elems

/-- Offer the drawn blocks of an executed TMM with OUT = 1 to the sector's checker: each is sent to
one of its 16 cores or skipped (R410). -/
def State.offerSamples (s : State) (c : Nat) (i : InFlight) (bs : List Nat) : State :=
  match i.op with
  | .tmm slot mode true _ _ _ _ =>
    i.samples.foldl (fun s (v : Nat × Nat × Nat) =>
      let sec := sectorOfCore c
      match s.checkerOf sec, s.carrier (tileOf c) with
      | some _, some p =>
        if (s.sector sec).drawn.length < 16 then
          let d := s.sampleOf c p i mode (s.slot c slot).anchor bs v
          s.modSector sec fun x => { x with drawn := x.drawn ++ [d] }
        else s.modSector sec fun x => { x with xSkipped := satAdd 0xFFFFFFFF x.xSkipped 1 }
      | _, _ => s.modSector sec fun x => { x with xSkipped := satAdd 0xFFFFFFFF x.xSkipped 1 }) s
  | _ => s

/-- All claims granted, and no earlier unexecuted instruction that it must follow? -/
def State.canRun (s : State) (c : Nat) (i : InFlight) : Bool :=
  !i.executed && (bases s i.uses i.claims).all Option.isSome
    && ((s.core c).btx.takeWhile (·.id != i.id)).all fun j => j.executed || !s.ordered (tileOf c) j i

/-- The effect of an instruction beside the other cores' instructions in flight, to which nothing orders
it (R112). -/
def State.runBeside (s : State) (c : Nat) (i : InFlight) (bs : List Nat) : State :=
  let t := tileOf c
  let x := s.touches t i
  let racy := s.racyRead t (· != c) x.1
  let s := (s.runOp c i bs).racyWrite t (· != c) x.2
  if racy then s.freeResult c i else s

/-- Execute an in-flight instruction if it can run. -/
def State.tryRun (s : State) (c id : Nat) : State :=
  match (s.core c).btx.find? (·.id == id) with
  | none => s
  | some i =>
    if s.canRun c i then
      let bs := (bases s i.uses i.claims).map (·.getD 0)
      let s := (s.offerSamples c i bs).runBeside c i bs
      s.modCore c fun x => { x with btx := x.btx.map fun j =>
        if j.id = id then { j with executed := true } else j }
    else s

/-- Execute, in program order, the in-flight instructions of a core that can run. -/
def State.runBtx (s : State) (c : Nat) : State :=
  ((s.core c).btx.map (·.id)).foldl (fun s id => s.tryRun c id) s

/-! ### Issue checks (03 R108, Table 3.14) -/

inductive Plan where
  | illegal
  /-- A BTX fault: the code and the descriptors or slot it may name in WHICH. -/
  | fault (code : Nat) (which : List Nat)
  /-- Zero work: retires at once. -/
  | nothing
  | go (op : BtxOp) (td1 td2 td3 : BitVec 128) (sr : Bool)
  deriving DecidableEq, Repr

def fIllegalFormat : Nat := 1
def fIllegalMode : Nat := 2
def fInvalidShape : Nat := 3
def fSlotRange : Nat := 4
def fRegionFault : Nat := 5
def fBadControl : Nat := 6

/-- The first check that fails. -/
def firstFault (cs : List (Bool × Nat × List Nat)) (go : Plan) : Plan :=
  match cs.find? (·.1) with
  | some c => .fault c.2.1 c.2.2
  | none => go

/-- R87, R88: the descriptor's regions may not be used. -/
def State.regionBad (s : State) (c n : Nat) (d : TD) : Bool :=
  let t := tileOf c
  let r := s.region t d.region
  let q := s.region t d.scaleRegion
  !s.usable c d.region
    || (d.stream && !r.circular)
    || (if r.circular then decide (r.size < d.span n) else decide (r.size < d.base + d.span n))
    || (d.mx && (!s.usable c d.scaleRegion ||
          (if q.circular then decide (4 * q.size < d.scaleBytes n)
            else decide (4 * q.size < 16 * d.scaleBase + d.scaleBytes n))))

/-- R89: rows or items of an output overlap. -/
def TD.selfOverlap (d : TD) (n : Nat) : Bool :=
  (decide (1 < d.rows) && decide (d.rowStride < d.rw)) || (decide (1 < n) && decide (d.batchStride < d.item))

/-- Where a streamed operand will start: the reserved pointer past the claims that wait. -/
def Region.nextStart (r : Region) (out : Bool) : Nat :=
  if out then r.rhead.off + (r.pWait.map (·.words)).sum
  else r.rtail.off + (r.cWait.map (·.words)).sum

/-- R89: the output footprint overlaps an input footprint in the same region, streamed operands where
their pointers put them, `before` words past the pointer for an input whose instruction claims another one of
that region first. The region need not be enabled: that is a later check. -/
def State.inOutOverlap (s : State) (t n : Nat) (o i : TD) (before : Nat := 0) : Bool :=
  let r := s.region t o.region
  o.region == i.region &&
    meets (r.interval (if o.stream then r.nextStart true else o.base) (o.span n))
      (r.interval (if i.stream then r.nextStart false + before else i.base) (i.span n))

/-- The words that operand A claims before B in B's region (R88). -/
def claimedBefore (n : Nat) (a b : TD) : Nat := if a.stream && a.region == b.region then a.span n else 0

/-- The mode of a slot in program order: as the earlier instructions in flight leave it. -/
def State.slotMode (s : State) (c k : Nat) : BitVec 3 :=
  (s.core c).btx.foldl (fun m (i : InFlight) =>
    if i.executed then m
    else match i.op with
      | .tmm slot mode _ _ _ _ _ => if slot = k then mode else m
      | .acmInit slot _ => if slot = k then 0#3 else m
      | _ => m) (s.slot c k).mode

def Core.tdBits (x : Core) (n : Nat) : BitVec 128 := Tab.get 0 x.td n
/-- Bit 127 is reserved: a write of it is ignored (Table 3.2; 00 Table 0.4). -/
def Core.setTd (x : Core) (n : Nat) (d : BitVec 128) : Core :=
  { x with td := Tab.set x.td n (d &&& 0x7FFFFFFFFFFFFFFFFFFFFFFFFFFFFFFF#128) }

def zeroDims (d : TD) : Bool := d.rows == 0 || d.cols == 0

/-- TMM: encoding, control word, zero work, formats, mode, shapes, slots, regions. Where several
descriptors fail one step, WHICH names the first of A, B, C, and so for the other instructions the first
of source and destination (DESIGN CHOICE, log 23). -/
def State.planTmm (s : State) (c : Nat) (w : Word) : Plan :=
  let v := w.toNat
  let x := s.core c
  let out := w.getLsbD 11
  let slot := bits v 10 7
  let (na, nb, nc) := (bits v 23 20, bits v 27 24, bits v 31 28)
  let ctrl := x.reg (bits v 19 15)
  let n := bits ctrl.toNat 15 0
  let (a, b, d) := (TD.ofBits (x.tdBits na), TD.ofBits (x.tdBits nb), TD.ofBits (x.tdBits nc))
  let (mm, nn, ka, kb) := (a.outer, b.outer, a.inner, b.inner)
  let named : BitVec 3 := BitVec.ofNat 3 (bits v 14 12)
  if bits v 6 0 ≠ 0b0101011 then .illegal
  else if bits ctrl.toNat 31 19 ≠ 0 ∨ bits ctrl.toNat 17 16 = 3 then .fault fBadControl [0]
  else if n = 0 ∨ zeroDims a ∨ zeroDims b ∨ (out ∧ zeroDims d) then .nothing
  else if !matFmtOk a then .fault fIllegalFormat [na]
  else if !matFmtOk b then .fault fIllegalFormat [nb]
  else if !pairOk a b then .fault fIllegalFormat [na, nb]
  else if out && !outFmtOk d then .fault fIllegalFormat [nc]
  else match resolveMode named (s.slotMode c slot) a b with
    | none => .fault fIllegalMode [slot]
    | some mode =>
      let rowsOk := if d.orient then d.rows == nn && d.cols == mm else d.rows == mm && d.cols == nn
      firstFault
        [(ka != kb, fInvalidShape, [na, nb]),
         (mm % 16 != 0 || ka % 16 != 0, fInvalidShape, [na]),
         (nn % 16 != 0 || kb % 16 != 0, fInvalidShape, [nb]),
         (a.mx && (ka % 32 != 0 || a.orient), fInvalidShape, [na]),
         (b.mx && (kb % 32 != 0 || b.orient), fInvalidShape, [nb]),
         (out && !rowsOk, fInvalidShape, [nc]),
         (!out && mm != 16, fInvalidShape, [na]),
         (!out && nn != 16, fInvalidShape, [nb]),
         (!out && n != 1, fInvalidShape, [na, nb]),
         (out && d.selfOverlap n, fInvalidShape, [nc]),
         (out && s.inOutOverlap (tileOf c) n d a, fInvalidShape, [nc, na]),
         (out && s.inOutOverlap (tileOf c) n d b (claimedBefore n a b), fInvalidShape, [nc, nb]),
         (mode == 2#3 && decide (15 < slot + treeLevels (ka / 16)), fSlotRange, [slot]),
         (s.regionBad c n a, fRegionFault, [na]),
         (s.regionBad c n b, fRegionFault, [nb]),
         (out && s.regionBad c n d, fRegionFault, [nc])]
        (.go (.tmm slot mode out na nb nc ctrl) (x.tdBits na) (x.tdBits nb) (x.tdBits nc)
          (out && ctrl.getLsbD 18))

/-- ACM.INIT (R101): it never faults. -/
def State.planInit (s : State) (c : Nat) (w : Word) : Plan :=
  let v := w.toNat
  if bits v 6 0 ≠ 0b0001011 ∨ bits v 14 12 ≠ 1 ∨ bits v 11 7 ≠ 0 then .illegal
  else .go (.acmInit (bits v 23 20) (BitVec.ofNat 8 (bits v 31 24) + ((s.core c).reg (bits v 19 15)).setWidth 8))
    0 0 0 false

/-- ACM.STORE (R102). -/
def State.planStore (s : State) (c : Nat) (w : Word) : Plan :=
  let v := w.toNat
  let nd := bits v 31 28
  let x := s.core c
  let d := TD.ofBits (x.tdBits nd)
  if bits v 6 0 ≠ 0b0001011 ∨ bits v 14 12 ≠ 2 ∨ bits v 25 24 ≠ 0 ∨ bits v 19 15 ≠ 0 ∨ bits v 11 7 ≠ 0 then
    .illegal
  else if zeroDims d then .nothing
  else firstFault
    [(!outFmtOk d, fIllegalFormat, [nd]),
     (d.rows != 16 || d.cols != 16, fInvalidShape, [nd]),
     (d.selfOverlap 1, fInvalidShape, [nd]),
     (s.regionBad c 1 d, fRegionFault, [nd])]
    (.go (.acmStore (bits v 23 20) nd (w.getLsbD 27) (w.getLsbD 26)) (x.tdBits nd) 0 0 (w.getLsbD 27))

/-- VRED (R103, Table 3.12). A result with MX is refused as a format, of which R103 says nothing (DESIGN
CHOICE, log 23). -/
def State.planVred (s : State) (c : Nat) (w : Word) : Plan :=
  let v := w.toNat
  let nd := bits v 31 28
  let ns := bits v 27 24
  let op := bits v 23 21
  let x := s.core c
  let d := TD.ofBits (x.tdBits nd)
  let src := TD.ofBits (x.tdBits ns)
  let nseq := if src.orient then src.cols else src.rows
  let srcOk := !src.mx && (isFloatIn src.fmt || (src.fmt == 8 && op != 2))
  let dstOk := !d.mx &&
    (match op with
      | 0 | 1 => if src.fmt = 8 then d.fmt == 11 else isFloatIn d.fmt
      | 2 => d.fmt == 1
      | 5 => d.fmt == 10
      | _ => d.fmt == src.fmt)
  if bits v 6 0 ≠ 0b0001011 ∨ bits v 14 12 ≠ 3 ∨ 5 < op ∨ bits v 19 15 ≠ 0 ∨ bits v 11 7 ≠ 0 then .illegal
  else if zeroDims d ∨ zeroDims src then .nothing
  else firstFault
    [(!srcOk, fIllegalFormat, [ns]),
     (!dstOk, fIllegalFormat, [nd]),
     (d.orient || d.rows != nseq || d.cols != (if op = 2 then 3 else 1), fInvalidShape, [nd]),
     (d.selfOverlap 1, fInvalidShape, [nd]),
     (s.inOutOverlap (tileOf c) 1 d src, fInvalidShape, [nd, ns]),
     (s.regionBad c 1 src, fRegionFault, [ns]),
     (s.regionBad c 1 d, fRegionFault, [nd])]
    (.go (.vred nd ns (BitVec.ofNat 3 op) (w.getLsbD 20)) (x.tdBits nd) (x.tdBits ns) 0
      (w.getLsbD 20 && decide (op < 2) && src.fmt != 8 && d.fmt != 1))

/-- VCVT (R104). -/
def State.planVcvt (s : State) (c : Nat) (w : Word) : Plan :=
  let v := w.toNat
  let nd := bits v 31 28
  let ns := bits v 27 24
  let x := s.core c
  let d := TD.ofBits (x.tdBits nd)
  let src := TD.ofBits (x.tdBits ns)
  let fmtOk := fun (d : TD) => decide (1 ≤ d.fmt) && decide (d.fmt ≤ 9) && mxAllowed d
  let (r, k) := if d.orient == src.orient then (src.rows, src.cols) else (src.cols, src.rows)
  if bits v 6 0 ≠ 0b0001011 ∨ bits v 14 12 ≠ 4 ∨ bits v 23 21 ≠ 0 ∨ bits v 19 15 ≠ 0 ∨ bits v 11 7 ≠ 0 then
    .illegal
  else if zeroDims d ∨ zeroDims src then .nothing
  else firstFault
    [(!fmtOk src, fIllegalFormat, [ns]),
     (!fmtOk d, fIllegalFormat, [nd]),
     (src.mx && src.cols % 32 != 0, fInvalidShape, [ns]),
     (d.rows != r || d.cols != k, fInvalidShape, [nd]),
     (d.mx && d.cols % 32 != 0, fInvalidShape, [nd]),
     (d.selfOverlap 1, fInvalidShape, [nd]),
     (s.inOutOverlap (tileOf c) 1 d src, fInvalidShape, [nd, ns]),
     (s.regionBad c 1 src, fRegionFault, [ns]),
     (s.regionBad c 1 d, fRegionFault, [nd])]
    (.go (.vcvt nd ns (w.getLsbD 20)) (x.tdBits nd) (x.tdBits ns) 0 (w.getLsbD 20))

/-- The plan of any of the five instructions that go in flight. -/
def State.planWord (s : State) (c : Nat) (w : Word) : Plan :=
  if bits w.toNat 6 0 = 0b0101011 then s.planTmm c w
  else match bits w.toNat 14 12 with
    | 1 => s.planInit c w
    | 2 => s.planStore c w
    | 3 => s.planVred c w
    | 4 => s.planVcvt c w
    | _ => .illegal

/-! ### Issue -/

/-- The BTX fault word (03 Table 3.15). Where a check concerns two descriptors, WHICH names one of
them, and the spec does not say which: a free choice (log 23). -/
def State.btxFault (s : State) (c : Nat) (pc : Word) (code : Nat) (which : List Nat) : State :=
  let (n, s) := s.fresh
  let k := which.getD (if Config.free 1 n = 0#1 then 0 else which.length - 1) 0
  s.takeTrap c pc exBtx (BitVec.ofNat 32 (code + 2 ^ 8 * k))

/-- The streamed descriptors ask for their claims (R88; 04 R135): of two inputs of one region A, or the
first named, claims first (DESIGN CHOICE, log 23). -/
def State.claimStreams (s : State) (c id n : Nat) (us : List (TD × Bool)) : List ClaimRef × State :=
  us.foldl (fun (acc : List ClaimRef × State) u =>
    if u.1.stream then
      let (k, s) := acc.2.requestClaim (tileOf c) u.1.region
        (if u.2 then .producer else .consumer) (u.1.span n) (.btx c id)
      (acc.1 ++ [k], s)
    else acc) ([], s)

/-- Put an instruction in flight; it takes effect at once when nothing stands before it. Its random bits
use srseq as it stands before the instruction's own advance (02 R55 does not say; DESIGN CHOICE, log
23). -/
def State.launch (s : State) (c : Nat) (op : BtxOp) (td1 td2 td3 : BitVec 128) (sr : Bool) : State :=
  let x := s.core c
  let (samples, s) := s.drawBlocks (sectorOfCore c) op td1 td2
  let i : InFlight := { id := x.nextBtx, op, td1, td2, td3, srseq := x.srseq, samples }
  let (ks, s) := s.claimStreams c i.id i.batch i.uses
  let s := s.modCore c fun x =>
    { x with nextBtx := x.nextBtx + 1
             srseq := if sr then x.srseq + 1 else x.srseq
             btx := x.btx ++ [{ i with claims := ks }] }
  s.runBtx c

/-- Issue at `pc`: the checks, then the instruction goes in flight and the scalar unit goes on. -/
def State.issuePlan (s : State) (c : Nat) (pc w : Word) (p : Plan) : State :=
  match p with
  | .illegal => s.takeTrap c pc exIllegal w
  | .fault code which => s.btxFault c pc code which
  | .nothing => s.modCore c (·.advance pc false)
  | .go op a b d sr => (s.launch c op a b d sr).modCore c (·.advance pc false)

/-- A BTX instruction at issue: a ninth in flight holds the scalar unit (R110). It is held before its
checks of Table 3.14, but for its encoding, which traps at once (DESIGN CHOICE, log 23). -/
def State.issue (s : State) (a : At) (w : Word) (p : Plan) : State :=
  let x := s.core a.core
  if !x.canIssue then s
  else if x.btx.length ≥ 8 ∧ p ≠ .illegal then s.modCore a.core (·.hold a.pc false (.btxIssue w))
  else s.issuePlan a.core a.pc w p

/-- BTX_HELD_ISSUE (03 R110): the held instruction issues once fewer than 8 are in flight. -/
def execBtxHeldIssue (c : CoreId) (s : State) : Answer :=
  let x := s.core c
  .next (match x.wait with
    | some (.btxIssue w) =>
      if x.run = .running ∧ x.btx.length < 8 then s.issuePlan c x.pc w (s.planWord c w) else s
    | _ => s)

/-! ### TFENCE, TSTAT and retirement -/

/-- Does an instruction read or write the scratchpad? -/
def InFlight.usesSpad (i : InFlight) : Bool := !i.uses.isEmpty

/-- Must TFENCE still wait (R105)? -/
def Core.fenceBusy (x : Core) (mask : BitVec 16) (spd : Bool) (upTo : Nat) : Bool :=
  x.btx.any fun i => decide (i.id < upTo) &&
    (i.targets.any (fun k => mask.getLsbD k) || (spd && i.usesSpad))

/-- Is an earlier instruction that targets the slot in flight (R106)? -/
def Core.slotBusy (x : Core) (slot upTo : Nat) : Bool :=
  x.btx.any fun i => decide (i.id < upTo) && i.targets.contains slot

/-- TFENCE (03 R105). -/
def State.tfence (s : State) (a : At) (w : Word) : State :=
  let x := s.core a.core
  let v := w.toNat
  let mask : BitVec 16 := BitVec.ofNat 16 (bits v 31 16)
  if !x.canIssue then s
    else if bits v 6 0 ≠ 0b0001011 ∨ bits v 14 12 ≠ 5 ∨ bits v 11 7 ≠ 0 then
      s.takeTrap a.core a.pc exIllegal w
    else if x.fenceBusy mask (w.getLsbD 15) x.nextBtx then
      s.modCore a.core (·.hold a.pc false (.tfence mask (w.getLsbD 15) x.nextBtx))
    else s.modCore a.core (·.advance a.pc false)

/-- TSTAT.SLOT (03 R106). -/
def State.tstatSlot (s : State) (a : At) (w : Word) : State :=
  let x := s.core a.core
  let v := w.toNat
  let k := bits v 23 20
  if !x.canIssue then s
    else if bits v 6 0 ≠ 0b0001011 ∨ bits v 14 12 ≠ 6 ∨ bits v 31 24 ≠ 0 ∨ bits v 19 15 ≠ 0 then
      s.takeTrap a.core a.pc exIllegal w
    else if x.slotBusy k x.nextBtx then
      s.modCore a.core (·.hold a.pc false (.tstatSlot k (bits v 11 7) x.nextBtx))
    else s.setCore a.core ((x.setReg (bits v 11 7) (s.slot a.core k).word).advance a.pc false)

/-- Does an in-flight instruction wait on a CIRCULAR region? -/
def State.streamWait (s : State) (i : InFlight) : Bool :=
  !i.executed && (bases s i.uses i.claims).any Option.isNone

/-- The word of TSTAT.PIPE (03 Table 3.13). -/
def State.pipeWord (s : State) (c : Nat) : Word :=
  let x := s.core c
  BitVec.ofNat 32 (x.btx.length + 2 ^ 4 * bit (x.btx.any s.streamWait)
    + 2 ^ 16 * ((List.range 16).map fun k => 2 ^ k * bit (x.btx.any (·.targets.contains k))).sum)

/-- TSTAT.PIPE (03 R106). -/
def State.tstatPipe (s : State) (a : At) (w : Word) : State :=
  let x := s.core a.core
  let v := w.toNat
  if !x.canIssue then s
    else if bits v 6 0 ≠ 0b0001011 ∨ bits v 14 12 ≠ 6 ∨ bits v 31 25 ≠ 1 ∨ bits v 24 15 ≠ 0 then
      s.takeTrap a.core a.pc exIllegal w
    else s.setCore a.core ((x.setReg (bits v 11 7) (s.pipeWord a.core)).advance a.pc false)

/-! ### The TD group (R107) -/

/-- The address of TD.LD and TD.SD: the exception it raises, if any. Alignment is checked first
(DEDUCED, log 19). -/
def tdAddrFault (addr : Word) (store : Bool) : Option Word :=
  if addr.toNat % 16 ≠ 0 then some (if store then exStoreMisaligned else exLoadMisaligned)
  else if 65536 ≤ addr.toNat then some (if store then exStoreAccess else exLoadAccess)
  else none

/-- The encoding of a TD-group instruction: bits [31:25] given, bit 24 and funct3 zero. -/
def tdEnc (v top : Nat) : Bool :=
  decide (bits v 6 0 = 0b0001011) && decide (bits v 14 12 = 0) && decide (bits v 31 25 = top)
    && decide (bits v 24 24 = 0)

/-- TD.LD (03 R107). -/
def State.tdLd (s : State) (a : At) (w : Word) : State :=
  let x := s.core a.core
  let v := w.toNat
  let addr := x.reg (bits v 19 15)
  if !x.canIssue then s
    else if !tdEnc v 0 || bits v 11 7 != 0 then s.takeTrap a.core a.pc exIllegal w
    else match tdAddrFault addr false with
      | some e => s.takeTrap a.core a.pc e addr
      | none => s.modCore a.core fun x =>
          (x.setTd (bits v 23 20)
            (BitVec.ofNat 128 (leVal (s.readPrivBytes a.core addr.toNat 16)))).advance a.pc false

/-- TD.SD (03 R107). -/
def State.tdSd (s : State) (a : At) (w : Word) : State :=
  let x := s.core a.core
  let v := w.toNat
  let addr := x.reg (bits v 19 15)
  if !x.canIssue then s
    else if !tdEnc v 1 || bits v 11 7 != 0 then s.takeTrap a.core a.pc exIllegal w
    else match tdAddrFault addr true with
      | some e => s.takeTrap a.core a.pc e addr
      | none => (s.writePrivBytes a.core addr.toNat
          (leBytes 16 (x.tdBits (bits v 23 20)).toNat)).modCore a.core (·.advance a.pc false)

/-- Replace word w of a descriptor. -/
def setTdWord (d : BitVec 128) (w : Nat) (v : Word) : BitVec 128 :=
  (d &&& ~~~((0xFFFFFFFF#128) <<< (32 * w))) ||| (v.setWidth 128 <<< (32 * w))

/-- TD.SETW (03 R107). -/
def State.tdSetw (s : State) (a : At) (w : Word) : State :=
  let x := s.core a.core
  let v := w.toNat
  if !x.canIssue then s
    else if !tdEnc v (8 + bits v 26 25) || bits v 11 7 != 0 then s.takeTrap a.core a.pc exIllegal w
    else s.modCore a.core fun x =>
      (x.setTd (bits v 23 20)
        (setTdWord (x.tdBits (bits v 23 20)) (bits v 26 25) (x.reg (bits v 19 15)))).advance a.pc false

/-- TD.GETW (03 R107). -/
def State.tdGetw (s : State) (a : At) (w : Word) : State :=
  let x := s.core a.core
  let v := w.toNat
  if !x.canIssue then s
    else if !tdEnc v (12 + bits v 26 25) || bits v 19 15 != 0 then s.takeTrap a.core a.pc exIllegal w
    else s.modCore a.core fun x =>
      (x.setReg (bits v 11 7)
        ((x.tdBits (bits v 23 20)).extractLsb' (32 * bits v 26 25) 32)).advance a.pc false

/-! ### The commands of the BTX instructions (R90, R91) -/

/-- The form that a word spells by its opcode and its bits [14:12] and, where these are shared, [31:25]
(03 Tables 3.5, 3.7). -/
inductive BtxForm where
  | tmm | acmInit | acmStore | vred | vcvt | tfence | tstatSlot | tstatPipe | tdLd | tdSd | tdSetw | tdGetw
  deriving DecidableEq, Repr

def btxForm (w : Word) : Option BtxForm :=
  let top := bits w.toNat 31 25
  if bits w.toNat 6 0 = 0b0101011 then some .tmm
  else if bits w.toNat 6 0 ≠ 0b0001011 then none
  else match bits w.toNat 14 12 with
    | 0 => if top = 0 then some .tdLd else if top = 1 then some .tdSd
      else if 8 ≤ top ∧ top < 12 then some .tdSetw
      else if 12 ≤ top ∧ top < 16 then some .tdGetw else none
    | 1 => some .acmInit
    | 2 => some .acmStore
    | 3 => some .vred
    | 4 => some .vcvt
    | 5 => some .tfence
    | 6 => if top = 1 then some .tstatPipe else some .tstatSlot
    | _ => none

/-- An instruction word at issue does what its form does; a word that spells no form is illegal. Its
other encoding checks are those of its form. -/
def State.btxWord (s : State) (a : At) (w : Word) : State :=
  let c := a.core.val
  match btxForm w with
  | none => s.issue a w .illegal
  | some .tmm => s.issue a w (s.planTmm c w)
  | some .acmInit => s.issue a w (s.planInit c w)
  | some .acmStore => s.issue a w (s.planStore c w)
  | some .vred => s.issue a w (s.planVred c w)
  | some .vcvt => s.issue a w (s.planVcvt c w)
  | some .tfence => s.tfence a w
  | some .tstatSlot => s.tstatSlot a w
  | some .tstatPipe => s.tstatPipe a w
  | some .tdLd => s.tdLd a w
  | some .tdSd => s.tdSd a w
  | some .tdSetw => s.tdSetw a w
  | some .tdGetw => s.tdGetw a w

/-- TMM (03 R90 to R99, R108). -/
def execTmm (a : At) (w : Word) (s : State) : Answer := .next (s.btxWord a w)

/-- ACM.INIT (03 R101; 02 R60). -/
def execAcmInit (a : At) (w : Word) (s : State) : Answer := .next (s.btxWord a w)

/-- ACM.STORE (03 R102). -/
def execAcmStore (a : At) (w : Word) (s : State) : Answer := .next (s.btxWord a w)

/-- VRED (03 R103; 02 R75 to R79). -/
def execVred (a : At) (w : Word) (s : State) : Answer := .next (s.btxWord a w)

/-- VCVT (03 R104; 02 R56, R57). -/
def execVcvt (a : At) (w : Word) (s : State) : Answer := .next (s.btxWord a w)

/-- TFENCE (03 R105). -/
def execTfence (a : At) (w : Word) (s : State) : Answer := .next (s.btxWord a w)

/-- TSTAT.SLOT (03 R106). -/
def execTstatSlot (a : At) (w : Word) (s : State) : Answer := .next (s.btxWord a w)

/-- TSTAT.PIPE (03 R106). -/
def execTstatPipe (a : At) (w : Word) (s : State) : Answer := .next (s.btxWord a w)

/-- TD.LD (03 R107). -/
def execTdLd (a : At) (w : Word) (s : State) : Answer := .next (s.btxWord a w)

/-- TD.SD (03 R107). -/
def execTdSd (a : At) (w : Word) (s : State) : Answer := .next (s.btxWord a w)

/-- TD.SETW (03 R107). -/
def execTdSetw (a : At) (w : Word) (s : State) : Answer := .next (s.btxWord a w)

/-- TD.GETW (03 R107). -/
def execTdGetw (a : At) (w : Word) (s : State) : Answer := .next (s.btxWord a w)

/-! ### Retirement (R88, R105, R106) -/

/-- Release a scalar unit that waits for instructions to retire. -/
def State.wakeBtx (s : State) (c : Nat) : State :=
  let x := s.core c
  if x.run ≠ .running then s
  else match x.wait with
    | some (.tfence mask spd upTo) => if x.fenceBusy mask spd upTo then s else s.setCore c x.release
    | some (.tstatSlot k rd upTo) =>
      if x.slotBusy k upTo then s else s.setCore c (x.setReg rd (s.slot c k).word).release
    | _ => s

/-- An executed instruction retires: its claims commit, and what waited for it goes on. -/
def State.retire (s : State) (c id : Nat) : State :=
  match (s.core c).btx.find? (·.id == id) with
  | none => s
  | some i =>
    if !i.executed || (s.core c).run == .drained then s
    else
      let s := i.claims.foldl State.finishClaim s
      let s := s.modCore c fun x => { x with btx := x.btx.filter (·.id != id), prog := true }
      (s.runBtx c).wakeBtx c

/-- BTX_RETIRE (03 R88). -/
def execBtxRetire (c : CoreId) (id : Nat) (s : State) : Answer := .next (s.retire c id)

/-! ### Claims and addends that reach the pipeline -/

/-- CLAIM_GRANT (04 R136): the oldest waiting claim of a side; what it held goes on. -/
def execClaimGrant (t : TileId) (n : RegionId) (side : Side) (s : State) : Answer :=
  let who : Option Claimant := ((s.region t n).waiting side).head?.map (·.who)
  let s := s.modRegion t n (·.grantNext side)
  .next (match who with
    | some (.btx c _) => if (s.core c).run = .drained then s else s.runBtx c
    | _ => s)

/-- CLAIM_COMMIT (04 R137): a finished claim commits. A tensor instruction's claim finishes with its
retirement (03 R88); an engine's when its words are written and acknowledged; a port's with its
store. -/
def execClaimCommit (t : TileId) (n : RegionId) (side : Side) (id : Nat) (s : State) : Answer :=
  .next (match (s.region t n).claim side id with
    | none => s
    | some k =>
      let finished := match k.who with
        | .btx _ _ => k.done
        | .engine e i => k.done ||
            ((s.place e i).rowsDone && (s.place e i).reads.isEmpty && (s.place e i).writes.isEmpty)
        | .port _ _ => k.done
        | .spill _ => true
      if finished then s.finishClaim ⟨t, n, side, id⟩ else s)

/-- The ACC entry at the head of a queue is applied once no instruction on its slot is in flight
(04 R153, R154; 03 R113). -/
def State.applyAcc (s : State) (c q : Nat) : State :=
  let x := s.core c
  match (x.queue q).vis with
  | [] => s
  | e :: _ =>
    let k := e.param.toNat % 16
    if e.port ≠ 4 ∨ x.run = .drained ∨ x.btx.any (·.targets.contains k) then s
    else (s.setSlot c k ((s.slot c k).addend (e.tag.toNat % 256) e.words)).popHead c q

/-- ACC_ADDEND_APPLY (04 R153, R154). -/
def execAccAddendApply (c : CoreId) (q : QueueId) (s : State) : Answer := .next (s.applyAcc c q)

end Sys2Proof.Machine
end

