-- ==== Sys2Proof/Machine/Sync.lean ====
section
/-! DEFINITION. The sync network: barriers, semaphores, byte counters, time, and the interrupts,
traps and kernel calls of a core (06 R217 to R226; 12 R423, R424; 10 R365 to R367). -/
namespace Sys2Proof.Machine

/-! ### Sync messages (06 R221, Table 6.9) -/

/-- The 32 bits of a sync message. -/
def syncBits (m : SyncMsg) : Word := m.payload ++ m.id ++ m.kind

/-- The 17-bit fence word: CTX, GEN, GLOBAL. -/
def fenceWord (m : SyncMsg) : BitVec 17 := BitVec.ofBool m.isGlobal ++ m.ctx ++ m.gen

/-- A message of a context, with the generation current when it is sent. -/
def State.syncMsg (s : State) (k : Nat) (kind : BitVec 4) (id payload : Nat) : SyncMsg :=
  { kind, id := BitVec.ofNat 6 id, payload := BitVec.ofNat 22 payload, ctx := BitVec.ofNat 4 k, gen := (s.ctx k).gen }

/-- Is the generation of a message of a context current? -/
def State.syncFresh (s : State) (k : Nat) (gen : BitVec 12) : Bool :=
  (s.ctx k).gen == gen && !(s.ctx k).dead

/-- Does a tile take a message: one that belongs to no context, or one whose context owns its sector and
whose generation is current? -/
def State.syncTaken (s : State) (t : Nat) (m : SyncMsg) : Bool :=
  m.isGlobal || (s.tileIn m.ctx.toNat t && s.syncFresh m.ctx.toNat m.gen)

/-- A TIME triple: 22, 22 and 20 bits of device time (R226). -/
def timeTriple (t : DWord) : List SyncMsg :=
  let part := fun (kind : BitVec 4) (lo n : Nat) =>
    ({ kind, payload := BitVec.ofNat 22 (bits t.toNat (lo + n - 1) lo), isGlobal := true } : SyncMsg)
  [part 6 0 22, part 7 22 22, part 8 44 20]

/-- The time that a triple carries. -/
def tripleTime (ms : List SyncMsg) : DWord :=
  ms.foldl (fun (t : DWord) (m : SyncMsg) => t ||| m.payload.setWidth 64 <<< (22 * (m.kind.toNat - 6))) 0

/-! ### Byte counters (06 R217, R219) -/

def Tile.counter (x : Tile) (n : Nat) : Bcnt := Tab.get {} x.bcnt n
def Bcnt.isDone (b : Bcnt) : Bool := decide (b.target ≤ b.count)

/-! ### The machine external interrupt (06 R222) -/

def State.bcntDone (s : State) (c : Nat) : Bool :=
  let y := (s.core c).sync
  y.cfg.getLsbD 6 && ((s.tile (tileOf c)).counter (bits y.cfg.toNat 5 0)).isDone

/-- MEIP is pending. -/
def State.meip (s : State) (c : Nat) : Bool :=
  let y := (s.core c).sync
  (y.barRel && y.cfg.getLsbD 7) || s.bcntDone c || (y.semGrant && y.cfg.getLsbD 8)

/-- A core that waits with WFI goes on once MEIP is pending (05 Table 5.10). -/
def State.wakeWfi (s : State) (c : Nat) : State :=
  let x := s.core c
  if x.run = .running ∧ x.wait = some .wfi ∧ s.meip c then s.setCore c x.release else s

def State.wakeTile (s : State) (t : Nat) : State := (coresOfTile t).foldl State.wakeWfi s

/-- Credit a byte counter, and its error bit (06 R215, R217). -/
def State.creditBcnt (s : State) (t n bytes : Nat) (err : Bool) : State :=
  (s.modTile t fun x => { x with bcnt := Tab.mod {} x.bcnt n fun b =>
    { b with count := satAdd 0xFFFFFFFF b.count bytes, err := b.err || err } }).wakeTile t

/-- TIL_BCNT_WRITE (06 R219): COUNT, or TARGET; a credit of the same cycle is added afterwards. -/
def execTilBcntWrite (g : Agent) (t : TileId) (n : Fin 64) (target : Bool) (v : Word) (credit : Nat)
    (s : State) : Answer :=
  .next ((s.tileWrite g t fun s => s.modTile t fun x => { x with bcnt := Tab.mod {} x.bcnt n fun b =>
    if target then { b with target := v.toNat, count := satAdd 0xFFFFFFFF b.count credit }
    else { b with count := satAdd 0xFFFFFFFF v.toNat credit } }).wakeTile t)

/-! ### Barriers (06 R223) -/

def Tile.mask (x : Tile) (b : Nat) : BitVec 16 := Tab.get 0 x.barMask b
def Tile.arrived (x : Tile) (b : Nat) : BitVec 16 := Tab.get 0 x.barArrived b

/-- Have all members of the barrier in the tile arrived, with at least one member? -/
def Tile.allArrived (x : Tile) (b : Nat) : Bool :=
  x.mask b != 0 && (x.mask b &&& ~~~(x.arrived b)) == 0

/-- The tiles of a context that hold a member of barrier b. -/
def State.memberTiles (s : State) (k b : Nat) : List Nat :=
  (s.tiles.filter fun t => s.tileIn k t.1 && t.2.mask b != 0).map Prod.fst

/-- Mask writes that no arrival holds any more take effect, in order (06 R223). -/
def Tile.maskFree (x : Tile) (j : Nat) : Bool := x.arrived (2 * j) == 0 && x.arrived (2 * j + 1) == 0

def Tile.setMask (x : Tile) (j : Nat) (v : Word) : Tile :=
  let m := Tab.set x.barMask (2 * j) (v.setWidth 16)
  { x with barMask := Tab.set m (2 * j + 1) ((v >>> 16).setWidth 16) }

def Tile.freeMasks (x : Tile) : Tile :=
  x.heldMask.foldl (fun x h =>
    if x.maskFree h.1 && !(x.heldMask.any fun y => y.1 == h.1) then x.setMask h.1 h.2
    else { x with heldMask := x.heldMask ++ [h] }) { x with heldMask := [] }

/-- A tile's part of a release: BAR_REL set and BAR_OUT clear in every member. -/
def State.releaseTile (s : State) (b t : Nat) : State :=
  let m := (s.tile t).mask b
  let s := (coresOfTile t).foldl (fun s c =>
    if m.getLsbD (c % 16) then
      s.modCore c fun x => { x with sync := { x.sync with barRel := true, barOut := none } }
    else s) s
  let s := s.modTile t fun x =>
    { x with barArrived := Tab.set x.barArrived b 0, barSent := x.barSent.filter (· != b) }
  (s.modTile t Tile.freeMasks).wakeTile t

/-- Has every tile with members of barrier b reported to the device root? -/
def State.barReady (s : State) (k b : Nat) : Bool :=
  let ts := s.memberTiles k b
  !ts.isEmpty && ts.all (Tab.get [] (s.ctx k).barAt b).contains

/-- SYNC_BAR_RELEASE: the root releases barrier b into its member tiles. -/
def State.releaseBar (s : State) (k b : Nat) : State :=
  let ts := s.memberTiles k b
  let s := s.modCtx k fun x => { x with barAt := Tab.set x.barAt b [] }
  ts.foldl (fun s t => s.releaseTile b t) s

/-- The mask registers with held writes, over the context's tiles. -/
def State.heldMasks (s : State) (k : Nat) : List Nat :=
  (s.tiles.filter fun t => s.tileIn k t.1).flatMap fun t => t.2.heldMask.map Prod.fst

/-- Release those of the listed barriers that are ready. A held mask write that a release lets take effect
can make the two barriers of its register ready (R223), so they are looked at again; with fuel. -/
def State.releaseFuel (k : Nat) : Nat → List Nat → State → State
  | 0, _, s => s
  | _, [], s => s
  | n + 1, b :: bs, s =>
    if s.barReady k b then
      let t := s.releaseBar k b
      let freed := (s.heldMasks k).filter fun j => (t.heldMasks k).count j < (s.heldMasks k).count j
      State.releaseFuel k n (bs ++ freed.flatMap fun j => [2 * j, 2 * j + 1]) t
    else State.releaseFuel k n bs s

/-- The device root releases barrier b when every tile with members has reported. -/
def State.tryRelease (s : State) (k b : Nat) : State :=
  State.releaseFuel k (1 + 4 * (s.heldMasks k).length) [b] s

/-- A BAR_ARRIVE of tile t reaches the roots. -/
def State.barReport (s : State) (k t b : Nat) : State :=
  let add := fun (l : List Nat) => if l.contains t then l else l ++ [t]
  (s.modCtx k fun x => { x with barAt := Tab.mod [] x.barAt b add }).tryRelease k b

/-- A tile whose members have all arrived sends its BAR_ARRIVE, once. -/
def State.tileArrives (s : State) (t b : Nat) : State :=
  let x := s.tile t
  if x.allArrived b && !x.barSent.contains b then
    let s := s.modTile t fun x => { x with barSent := x.barSent ++ [b] }
    match s.ownerOfTile t with
    | some k => s.barReport k t b
    | none => s
  else s

/-- Is the core a member of the barrier with no arrival outstanding? -/
def State.mayArrive (s : State) (c b : Nat) : Bool :=
  ((s.tile (tileOf c)).mask b).getLsbD (c % 16) && (s.core c).sync.barOut.isNone

/-- The core arrives; the tile's BAR_ARRIVE and a release may follow within the step (95,
SYNC_BAR_RELEASE). -/
def State.arriveAt (s : State) (c b : Nat) : State :=
  let s := s.modCore c fun x => { x with sync := { x.sync with barOut := some b } }
  let s := s.modTile (tileOf c) fun x =>
    { x with barArrived := Tab.mod 0 x.barArrived b fun m => m ||| oneBit 16 (c % 16) }
  s.tileArrives (tileOf c) b

/-- TIL_SYNC_ARRIVE (06 R223). -/
def execTilSyncArrive (a : At) (v : Word) (s : State) : Answer :=
  let b := bits v.toNat 5 0
  .next (if !(s.core a.core).canIssue then s
    else if !s.mayArrive a.core b then
      s.accessFault a true (BitVec.ofNat 32 (0x40000F00 + (a.core % 16) * 0x10))
    else (s.modCore a.core (·.advance a.pc a.short)).arriveAt a.core b)

/-- SYNC_BAR_ARRIVE (06 R221, R223): a stale or foreign message is discarded. -/
def execSyncBarArrive (k : CtxId) (gen : BitVec 12) (t : TileId) (b : Fin 64) (s : State) : Answer :=
  let m : SyncMsg := { kind := 0, id := BitVec.ofNat 6 b, ctx := BitVec.ofNat 4 k, gen }
  .next (if s.syncTaken t m then s.barReport m.ctx.toNat t m.id.toNat else s)

/-- TIL_BAR_MASK_WRITE (06 R223): held while a member of either barrier has arrived. -/
def execTilBarMaskWrite (g : Agent) (t : TileId) (j : Fin 32) (v : Word) (s : State) : Answer :=
  .next (s.tileWrite g t fun s =>
    let x := s.tile t
    if x.maskFree j && !(x.heldMask.any fun y => y.1 == j.val) then
      let s := s.modTile t (·.setMask j v)
      match s.ownerOfTile t with
      | some k => (s.tryRelease k (2 * j)).tryRelease k (2 * j + 1)
      | none => s
    else s.modTile t fun x => { x with heldMask := x.heldMask ++ [(j.val, v)] })

/-! ### Semaphores (06 R224) -/

/-- The local address of TIL_SYNC_SEM of a core. -/
def semAddr (c : Nat) : Word := BitVec.ofNat 32 (0x40000F0C + (c % 16) * 0x10)

/-- A POST of core c reaches the root: N is added to the count, saturating. -/
def State.semPostAt (s : State) (c : Nat) (v : Word) : State :=
  match s.ownerOfCore c with
  | some k => s.modCtx k fun x =>
      { x with sems := Tab.mod 0 x.sems (bits v.toNat 5 0) (satAdd 65535 · (bits v.toNat 15 8)) }
  | none => s

/-- A WAIT of core c reaches the root behind the earlier ones. -/
def State.semWaitAt (s : State) (c sem : Nat) : State :=
  let s := s.modCore c fun x => { x with sync := { x.sync with semOut := some sem } }
  match s.ownerOfCore c with
  | some k => s.modCtx k fun x => { x with semWaits := x.semWaits ++ [(sem, c)] }
  | none => s

/-- SEM_POST (06 R224). -/
def execSemPost (a : At) (v : Word) (s : State) : Answer :=
  .next (if !(s.core a.core).canIssue then s
    else (s.semPostAt a.core v).modCore a.core (·.advance a.pc a.short))

/-- SEM_WAIT (06 R224): one WAIT outstanding at most. -/
def execSemWait (a : At) (v : Word) (s : State) : Answer :=
  let x := s.core a.core
  let sem := bits v.toNat 5 0
  .next (if !x.canIssue then s
    else if x.sync.semOut.isSome then s.accessFault a true (semAddr a.core)
    else (s.modCore a.core (·.advance a.pc a.short)).semWaitAt a.core sem)

/-- SEM_GRANT (06 R221, R224): the oldest WAIT takes one from the count, and the message that names its core
tells it. -/
def execSemGrant (k : CtxId) (gen : BitVec 12) (sem : Fin 64) (s : State) : Answer :=
  let x := s.ctx k
  .next (if !s.syncFresh k gen || Tab.get 0 x.sems sem == 0 then s
    else match x.semWaits.find? (·.1 == sem.val) with
      | none => s
      | some w =>
        let m := s.syncMsg k 4 sem w.2
        let s := s.modCtx k fun x =>
          { x with sems := Tab.mod 0 x.sems sem (· - 1), semWaits := x.semWaits.erase w }
        let c := m.payload.toNat
        if !s.syncTaken (tileOf c) m then s
        else (s.modCore c fun y => { y with sync := { y.sync with semGrant := true, semOut := none } }).wakeWfi c)

/-! ### Time (06 R226; 09 R321) -/

/-- TIME_TRIPLE (06 R226): every tile's copy takes the time of the root's triple as one update. -/
def execTimeTriple (s : State) : Answer :=
  .next { s with tileTime := tripleTime (timeTriple s.deviceTime), tileTimeAt := s.deviceTime }

/-- The tiles' copy of time: as the last triple set it, and counting since (R226). -/
def State.tileClock (s : State) : DWord := s.tileTime + (s.deviceTime - s.tileTimeAt)

/-- TIL_TIME as a tile reads it: its copy to within 8 ns, by a free amount (R226, log 24). -/
def tileNow (s : State) (n : Nat) : DWord :=
  let d := (Config.free 64 n).toNat % 17
  let t := s.tileClock.toNat
  BitVec.ofNat 64 (t + d - min 8 (t + d))

/-- TIL_TIME_LO_READ: the low word, and TIL_TIME_HI latches the high word. A core's load writes rd. -/
def execTilTimeLoRead (g : Agent) (t : TileId) (rd : XReg) (s : State) : Answer :=
  .next (s.tileWrite g t fun s =>
    let (n, s) := s.fresh
    let now := tileNow s n
    let s := s.modTile t fun x => { x with timeHi := (now >>> 32).setWidth 32 }
    match g with
    | .core a => s.modCore a.core (·.setReg rd (now.setWidth 32))
    | _ => s.emit (.regData g (now.setWidth 32)))

/-- The requester number of a Plumb reader (09 Table 9.4): a function, or 16 for the BMC. -/
def plumbReader : Agent → Option Nat
  | .host f => some f
  | .bmc => some 16
  | _ => none

/-- PLB_TIME_LO_READ (09 R321): the same requester's PLB_TIME_HI latches. -/
def execPlbTimeLoRead (g : Agent) (s : State) : Answer :=
  .next (match plumbReader g with
    | none => s
    | some r =>
      (s.modPlumb fun p => { p with timeHi := Tab.set p.timeHi r ((s.deviceTime >>> 32).setWidth 32) }).emit
        (.regData g (s.deviceTime.setWidth 32)))

/-! ### Interrupts, traps and returns (06 R222; 12 R423, R424) -/

/-- Is the interrupt enabled: MIE of mstatus and MEIE of mie (PRESUMED, log 15)? -/
def Core.meiEnabled (x : Core) : Bool := x.csr.mstatus.getLsbD 3 && x.csr.mie.getLsbD 11

/-- MEIP_INTERRUPT: a pending, enabled interrupt is taken between instructions. -/
def execMeipInterrupt (c : CoreId) (s : State) : Answer :=
  .next (if s.meip c then
      let s := s.wakeWfi c
      let x := s.core c
      if x.canIssue && x.meiEnabled then s.takeTrap c x.pc irqMei 0 else s
    else s)

/-- WFI (06 R222; 05 Table 5.10). -/
def execWfi (a : At) (s : State) : Answer :=
  .next (if !(s.core a.core).canIssue then s
    else if s.meip a.core then s.modCore a.core (·.advance a.pc a.short)
    else s.modCore a.core (·.hold a.pc a.short .wfi))

/-- MRET (12 Table 12.4). -/
def execMret (a : At) (s : State) : Answer :=
  .next (if !(s.core a.core).canIssue then s
    else s.modCore a.core fun x => { x.returnTrap with prog := true })

/-- TRAP_UNHANDLED (12 R423): an exception or interrupt is taken at an instruction; with a handler
it is entered, without one the core halts and its context takes a contained fault. -/
def execTrapUnhandled (a : At) (cause tval : Word) (s : State) : Answer :=
  .next (if !(s.core a.core).canIssue then s else s.takeTrap a.core a.pc cause tval)

def causeCoreReported : Nat := 0x0203

/-- TIL_CORE_FAULT_WRITE (12 R424): a CODE other than zero halts the core with a contained fault. -/
def execTilCoreFaultWrite (a : At) (v : Word) (s : State) : Answer :=
  let code := bits v.toNat 7 0
  .next (if !(s.core a.core).canIssue then s
    else if code = 0 then s.modCore a.core (·.advance a.pc a.short)
    else (s.modCore a.core (·.advance a.pc a.short)).coreFault a.core causeCoreReported
      (leBytes 1 code))

/-! ### Kernel calls (10 R365 to R367) -/

/-- Take the oldest call: its arguments load, RUNNING is set, rd takes the PC. -/
def Core.takeCall (x : Core) (rd : Nat) : Option Core :=
  match x.krn.calls with
  | [] => none
  | k :: rest =>
    some ({ x with krn := { calls := rest, pc := k.pc, args := k.args, running := some k.desc } }.setReg rd
      (k.pc.setWidth 32))

/-- A core that waits in TIL_KRN_NEXT takes a call. -/
def State.wakeKernel (s : State) (c : Nat) : State :=
  let x := s.core c
  match x.wait with
  | some (.krnNext rd) =>
    if x.run ≠ .running then s
    else match x.takeCall rd with
      | some y => s.setCore c y.release
      | none => s
  | _ => s

/-- The local address of a core's kernel registers. -/
def krnAddr (c : Nat) : Nat := 0x40000400 + (c % 16) * 0x40

/-- TIL_KRN_NEXT (10 R366). -/
def execTilKrnNext (a : At) (rd : XReg) (s : State) : Answer :=
  let x := s.core a.core
  .next (if !x.canIssue then s
    else if x.krn.running.isSome then s.accessFault a false (BitVec.ofNat 32 (krnAddr a.core))
    else match x.takeCall rd with
      | some y => s.setCore a.core (y.advance a.pc a.short)
      | none => s.modCore a.core (·.hold a.pc a.short (.krnNext rd)))

/-- The queue and descriptor of a number, anywhere on the device. -/
def State.findDesc (s : State) (id : Nat) : Option (Nat × Nat × Desc) :=
  s.queues.findSome? fun q => (q.2.descs.find? (·.id == id)).map fun d => (q.1 / 16, q.1 % 16, d)

/-- One target core has ended its call of a KERNEL; the last one completes it with OK. -/
def State.coreEnds (s : State) (c id : Nat) (code : Nat) : State :=
  match s.findDesc id with
  | none => s
  | some (f, j, d) =>
    let d' := { d with coresLeft := d.coresLeft.erase c
                       codes := if code = 0 then d.codes else d.codes + 1
                       firstCode := if code ≠ 0 ∧ d.codes = 0 then BitVec.ofNat 8 code else d.firstCode }
    let s := s.modQueue f j fun q => { q with descs := q.descs.map fun x => if x.id = id then d' else x }
    if d'.coresLeft.isEmpty then s.complete f j d' stOk d'.kernelDetail else s

/-- TIL_KRN_DONE (10 R366, R367). -/
def execTilKrnDone (a : At) (v : Word) (s : State) : Answer :=
  let x := s.core a.core
  .next (if !x.canIssue then s
    else match x.krn.running with
      | none => s.accessFault a true (BitVec.ofNat 32 (krnAddr a.core + 0x24))
      | some id =>
        (s.modCore a.core fun x =>
          Core.advance { x with krn := { x.krn with running := none } } a.pc a.short).coreEnds a.core id
            (bits v.toNat 7 0))

end Sys2Proof.Machine
end

