-- ==== Sys2Proof/Machine/Delash.lean ====
section
/-! DEFINITION. Delash mailboxes: requests, their checks, responses, long operations (09 R327 to
R338, Tables 9.5 to 9.15). -/
namespace Sys2Proof.Machine

/-! ### Fields of a request (09 Table 9.7) -/

def rqOpcode (r : List Byte) : Nat := field r 0 2
def rqFlags (r : List Byte) : Nat := field r 2 2
def rqPoll (r : List Byte) : Bool := bits (rqFlags r) 1 1 == 1
def rqSeq (r : List Byte) : Word := BitVec.ofNat 32 (field r 4 4)
def rqLen (r : List Byte) : Nat := field r 8 2
def rqCheck (r : List Byte) : Word := BitVec.ofNat 32 (field r 12 4)
/-- A field of the payload. -/
def rq (r : List Byte) (off size : Nat) : Nat := field r (16 + off) size
/-- Are these payload bytes zero? -/
def rqZero (r : List Byte) (off size : Nat) : Bool := zeroBytes r (16 + off) size

/-- The response of a request; a status other than OK or PENDING carries no payload (R337). -/
def response (req : List Byte) (status : Nat) (payload : List Byte) : List Byte :=
  let p := if status = stOk ∨ status = stPending then payload else []
  leBytes 2 (rqOpcode req) ++ leBytes 2 (1 + 2 * bit (rqPoll req)) ++ leBytes 4 (rqSeq req).toNat
    ++ leBytes 2 p.length ++ leBytes 1 status ++ [0] ++ leBytes 4 (crc32c p).toNat ++ p

/-! ### Licence (13 Table 13.6; 08 R270) -/

def Licence.ports (l : Licence) : BitVec 16 :=
  match l.tier with
  | 0 => 0x0303#16
  | 1 => 0x0F0F#16
  | _ => 0xFFFF#16

def Licence.tier2 (l : Licence) : Bool := decide (1 ≤ l.tier)
def Licence.full (l : Licence) : Bool := decide (2 ≤ l.tier)
/-- FEATURES of DEV_IDENTIFY: tier-2, cross-check, periodic contexts. -/
def Licence.features (l : Licence) : Nat := bit l.tier2 + 6 * bit l.full

/-! ### Who owns what (R314) -/

/-- The function a source acts as: the BMC has the rights of the PF (R327). -/
def srcFn : Src → Nat
  | .mailbox f => f
  | .bmc => 0

def srcPf (x : Src) : Bool := srcFn x == 0

/-- Is the context the function's? -/
def State.ownsCtx (s : State) (f k : Nat) : Bool := (s.ctx k).st != .free && (s.ctx k).fn == f

/-! ### The checks of Table 9.8 -/

/-- Opcodes served while WAIT_HOST (13 R465) and while OUT_OF_SERVICE (12 R437). -/
def waitHostOpcodes : List Nat := [0x0101, 0x0102, 0x0701, 0x0802]
/-- Opcodes that the BMC may use (R327), any function, and the PF alone. -/
def bmcOpcodes : List Nat := [0x0101, 0x0102, 0x0103, 0x0701]
def anyOpcodes : List Nat :=
  [0x0101, 0x0102, 0x0201, 0x0202, 0x0203, 0x0204, 0x0301, 0x0302, 0x0401, 0x0402, 0x0403, 0x0501, 0x0701]
def pfOpcodes : List Nat :=
  [0x0103, 0x0601, 0x0602, 0x0603, 0x0702, 0x0703, 0x0704, 0x0801, 0x0802, 0x0901, 0x0902, 0x0A01,
   0x0A02, 0x0A03]

/-- Step 4: the opcode is known and permitted (Table 9.9). -/
def permitted (src : Src) (r : List Byte) : Bool :=
  let op := rqOpcode r
  match src with
  | .bmc => bmcOpcodes.contains op
  | .mailbox f =>
    if f.val = 0 then anyOpcodes.contains op || pfOpcodes.contains op
    else anyOpcodes.contains op && (op != 0x0701 || rqPoll r || rq r 0 1 == 3)

/-- Step 5: the life-cycle states of Table 9.9. -/
def lifecycleOk (lc : Nat) (r : List Byte) : Bool :=
  match rqOpcode r with
  | 0x0101 | 0x0102 | 0x0701 => true
  | 0x0703 => rq r 0 1 == 0 || lc == 2
  | 0x0704 => lc == 2 || lc == 3
  | 0x0801 => lc == 0 || lc == 3 || lc == 4
  | 0x0802 => lc == 2 || lc == 3 || lc == 4
  | _ => lc != 5

/-- The ports that a routing entry uses are ones that the licence enables (08 R270, Table 8.5). -/
def Licence.entryOk (l : Licence) (e : Word) : Bool :=
  (!e.getLsbD 4 || l.ports.getLsbD (bits e.toNat 3 0)) && (!e.getLsbD 9 || l.ports.getLsbD (bits e.toNat 8 5))

/-- Step 6: the licence (Table 9.9; R339, R270): for a port, every command that names one. -/
def licenceOk (l : Licence) (r : List Byte) : Bool :=
  if rqOpcode r = 0x0704 then l.full
  else if rqPoll r then true
  else match rqOpcode r with
    | 0x0501 => rq r 2 1 != 2 || l.tier2
    | 0x0201 => (bits (rq r 1 1) 2 2 == 0 || l.tier2)
        && (BitVec.ofNat 16 (rq r 2 2) &&& ~~~l.sectorMask) == 0
    | 0x0204 => rq r 4 4 == 0 || l.full
    | 0x0601 => match rq r 0 1 with
      | 1 => (BitVec.ofNat 16 (rq r 4 2) &&& ~~~l.ports) == 0
      | 2 => (BitVec.ofNat 16 (rq r 6 2) &&& ~~~l.ports) == 0 && (decide (15 < rq r 5 1) || l.ports.getLsbD (rq r 5 1))
      | _ => true
    | 0x0602 => (List.range (min 58 (rq r 2 2))).all fun i => l.entryOk (BitVec.ofNat 32 (rq r (8 + 4 * i) 4))
    | 0x0603 => (BitVec.ofNat 16 (rq r 0 2) &&& ~~~l.ports) == 0
    | _ => true

/-- The payload size of a request (R338). -/
def payloadSize (r : List Byte) : Nat :=
  match rqOpcode r with
  | 0x0103 => 1
  | 0x0201 => 20
  | 0x0202 | 0x0203 | 0x0302 | 0x0402 | 0x0403 => 1
  | 0x0204 | 0x0401 | 0x0501 | 0x0801 | 0x0A02 | 0x0A03 => 16
  | 0x0301 | 0x0802 | 0x0A01 => 24
  | 0x0601 => match rq r 0 1 with
    | 0 => 8 | 1 => 6 | 2 => 12 | 3 => 24 | 4 => 6 | _ => 0
  | 0x0602 => 8 + 4 * rq r 2 2
  | 0x0603 | 0x0704 | 0x0901 => 2
  | 0x0701 | 0x0702 => 6
  | 0x0703 | 0x0902 => 8
  | _ => 0

/-- A ring size: a power of two from 16 to 4,096, or 0 for no queue (Table 9.15). -/
def ringSize (n : Nat) : Bool := [0, 16, 32, 64, 128, 256, 512, 1024, 2048, 4096].contains n

/-- Fields in range and reserved bytes zero (step 7). -/
def fieldsOk (src : Src) (r : List Byte) : Bool :=
  match rqOpcode r with
  | 0x0103 => decide (rq r 0 1 ≤ 2)
  | 0x0201 => decide (rq r 0 1 ≤ 16) && decide (rq r 1 1 ≤ 7) && decide (rq r 16 4 ≤ 600000)
  | 0x0204 => rqZero r 1 3 && (rq r 4 4 == 0 || (decide (100 ≤ rq r 4 4) && decide (rq r 4 4 ≤ 10000000)))
  | 0x0301 => decide (rq r 1 1 ≤ 15) && ringSize (rq r 2 2) && ringSize (rq r 4 2)
      && (if srcPf src then decide (2 ≤ rq r 6 2) && decide (rq r 6 2 ≤ 63)
          else decide (1 ≤ rq r 6 2) && decide (rq r 6 2 ≤ 15))
      && decide (rq r 8 8 % 64 = 0) && decide (rq r 16 8 % 32 = 0)
  | 0x0302 => decide (rq r 0 1 ≤ 15)
  | 0x0401 => rqZero r 1 3
  | 0x0501 => decide (rq r 1 1 ≤ 3) && decide (1 ≤ rq r 2 1) && decide (rq r 2 1 ≤ 2) && rqZero r 3 1
      && (if rq r 1 1 ≤ 1 then decide (rq r 8 8 % 0x200000 = 0) else rq r 8 8 == 0)
  | 0x0601 => rqZero r 1 3 && (match rq r 0 1 with
      | 0 => decide (rq r 4 2 < 16384) && decide (rq r 6 2 < 16384)
      | 1 => true
      | 2 => decide (rq r 4 1 ≤ 63) && (decide (rq r 5 1 ≤ 15) || rq r 5 1 == 0xFF)
      | 3 => decide (rq r 4 1 ≤ 31) && decide (rq r 5 1 ≤ 1) && decide (rq r 6 1 ≤ 63)
          && decide (1 ≤ rq r 10 2) && decide (rq r 10 2 ≤ 16384) && decide (rq r 8 2 < rq r 10 2)
          && rqZero r 12 4
      | 4 => (rq r 4 1 == 0 && decide (rq r 5 1 ≤ 63)) || (rq r 4 1 == 1 && decide (rq r 5 1 ≤ 31))
      | _ => false)
  | 0x0602 => decide (rq r 0 1 ≤ 2) && decide (rq r 1 1 ≤ 7) && decide (rq r 2 2 ≤ 58)
      && decide (rq r 4 2 + rq r 2 2 ≤ 16384) && rqZero r 6 2
      && (List.range (rq r 2 2)).all fun i => decide (rq r (8 + 4 * i) 4 < 2 ^ 14)
  | 0x0701 => decide (rq r 0 1 ≤ 3) && rqZero r 1 1 && decide (rq r 4 2 ≤ 11)
  | 0x0702 => (decide (rq r 0 1 ≤ 3) || rq r 0 1 == 0xFF) && rqZero r 1 1
  | 0x0703 => decide (rq r 0 1 ≤ 3) && rqZero r 1 1
      && (if rq r 0 1 = 3 then decide (100 ≤ rq r 4 4) && decide (rq r 4 4 ≤ 10000) else rq r 4 4 == 0)
  | 0x0704 => decide (rq r 0 1 ≤ 3)
      && (if rq r 0 1 = 3 then decide (8 ≤ rq r 1 1) && decide (rq r 1 1 ≤ 20) else rq r 1 1 == 0)
  | 0x0801 => decide (rq r 0 2 < 576) && decide (rq r 2 1 ≤ 15)
      && decide (-80 ≤ signed 8 (rq r 3 1)) && decide (signed 8 (rq r 3 1) ≤ 0) && rqZero r 4 4
  | 0x0802 => rqZero r 2 2 && rqZero r 12 4 && (rq r 16 8 != 0 || decide (rq r 8 4 ≤ 232))
  | 0x0902 => decide (rq r 0 1 ≤ 1) && rqZero r 1 1 && (rq r 0 1 == 0
      || (decide (1 ≤ rq r 2 2) && decide (rq r 2 2 ≤ 255) && decide (1 ≤ rq r 4 4)
        && decide (rq r 4 4 ≤ 86400)))
  | 0x0A01 => decide (rq r 0 1 ≤ 4) && rqZero r 1 3 && rqZero r 12 4
  | 0x0A02 => rqZero r 4 4
  | 0x0A03 => decide (rq r 0 1 ≤ 2) && rqZero r 1 3
  | _ => true

/-- The context a request names. -/
def rqCtx (r : List Byte) : Option Nat :=
  match rqOpcode r with
  | 0x0202 | 0x0203 | 0x0204 | 0x0301 | 0x0401 | 0x0402 | 0x0403 | 0x0501 => some (rq r 0 1)
  | 0x0601 => if rq r 0 1 = 3 then some (rq r 7 1) else none
  | _ => none

/-- The context is the function's; CTX_ABORT and CTX_DESTROY of the PF reach every context (R314). -/
def State.ctxOk (s : State) (src : Src) (r : List Byte) : Bool :=
  match rqCtx r with
  | none => true
  | some k => decide (k < 16) && (s.ownsCtx (srcFn src) k
      || ((rqOpcode r == 0x0202 || rqOpcode r == 0x0203) && srcPf src && (s.ctx k).st != .free))

def State.pollOp (s : State) (src : Src) (r : List Byte) : Option LongOp :=
  s.delash.ops.find? fun o => o.fn == srcFn src && o.id.toNat == rq r 0 2 && o.opcode.toNat == rqOpcode r

/-- Steps 1 to 7 of Table 9.8: the first failure, if any. -/
def State.checkRequest (s : State) (src : Src) (r : List Byte) : Option Nat :=
  if !s.gafferUp then some stBusy
  else if (s.plumb.gaffer = .waitHost ∨ s.plumb.outOfService) ∧ !waitHostOpcodes.contains (rqOpcode r)
  then some stBusy
  else if 240 < rqLen r ∨ rqFlags r &&& 0xFFFD ≠ 0 ∨ !zeroBytes r 10 2 then some stInvalidArg
  else if crc32c ((r.drop 16).take (rqLen r)) ≠ rqCheck r then some stCheckFailed
  else if !permitted src r then some stUnsupported
  else if !lifecycleOk s.lifecycle.toNat r then some stLifecycle
  else if !licenceOk s.boot.licence r then some stNotLicensed
  else if rqPoll r then
    if rqLen r = 2 ∧ (s.pollOp src r).isSome then none else some stInvalidArg
  else if rqLen r = payloadSize r ∧ fieldsOk src r ∧ s.ctxOk src r then none
  else some stInvalidArg

/-! ### Responses (R328, R333) -/

/-- The request of a source, while it is not answered. -/
def State.request (s : State) : Src → Option (List Byte)
  | .mailbox f => (s.mailbox f).buf
  | .bmc => s.delash.bmcBuf

/-- Place a response in MBX_RSP: STATE DONE, the interrupt of MBX_IRQ. -/
def State.place' (s : State) (f : Nat) (rsp : List Byte) : State :=
  let s := s.modMailbox f fun m => { m with rsp := fit 256 rsp, state := 2, done := true, buf := none }
  if (s.mailbox f).doneEn then s.emit (.msix f 0) else s

/-- Answer the request of a source, and keep the response for a reissue unless it is BUSY. -/
def State.answer (s : State) (src : Src) (status : Nat) (payload : List Byte) : State :=
  match s.request src with
  | none => s
  | some req =>
    let rsp := response req status payload
    match src with
    | .mailbox f =>
      let kept : Saved := ⟨BitVec.ofNat 16 (rqOpcode req), rqSeq req, rqCheck req, rsp⟩
      let s := if status = stBusy then s
        else s.modDelash fun d => { d with saved := Tab.set d.saved f kept }
      s.place' f rsp
    | .bmc => (s.modDelash fun d => { d with bmcBuf := none }).emit (.mctpResponse rsp)

/-- The saved response of an identical request (R333). -/
def State.reissue (s : State) (src : Src) (req : List Byte) : Option (List Byte) :=
  match src with
  | .bmc => none
  | .mailbox f => match s.delash.saved.find? (·.1 == f.val) with
    | some x => if x.2.opcode.toNat = rqOpcode req ∧ x.2.seq = rqSeq req ∧ x.2.check = rqCheck req
        then some x.2.rsp else none
    | none => none

/-- The Gaffer takes requests in the order of their GO: those at the front that are reissues or
fail a check are answered at once (R329, R337). The number of rounds is that of the requests. -/
def State.takeRequests : Nat → State → State
  | 0, s => s
  | n + 1, s =>
    match s.delash.order with
    | [] => s
    | src :: rest =>
      let pop := s.modDelash fun d => { d with order := rest }
      match s.request src with
      | none => State.takeRequests n pop
      | some req =>
        if !s.gafferUp then s
        else match s.reissue src req, src with
          | some rsp, .mailbox f => State.takeRequests n (pop.place' f rsp)
          | _, _ => match s.checkRequest src req with
            | some st => State.takeRequests n (pop.answer src st [])
            | none => s

def State.takeFront (s : State) : State := s.takeRequests s.delash.order.length

/-! ### Serving a command -/

/-- What a command does: its state, its status and its response payload; no status where the
answer comes later. -/
structure Reply where
  st : State
  status : Option Nat := some 0
  payload : List Byte := []

def Reply.ok (s : State) (payload : List Byte := []) : Reply := { st := s, payload }
def Reply.fail (s : State) (status : Nat) : Reply := { st := s, status := some status }
/-- The command's answer comes later (R291). -/
def Reply.later (s : State) : Reply := { st := s, status := none }

/-- The long operations of a function (R331). -/
def State.opsOf (s : State) (f : Nat) : List LongOp := s.delash.ops.filter (·.fn == f)

/-- Is a long operation on the context in progress (R332)? -/
def State.ctxBusy (s : State) (k : Nat) : Bool :=
  s.delash.ops.any fun o => o.ctx == some k && o.final.isNone

/-- The next free OP_ID from `n` on, with fuel; an ID is from 1 to 65,535. -/
def freeId (ops : List LongOp) : Nat → Half → Half
  | 0, n => n
  | k + 1, n => if n = 0 ∨ ops.any (·.id == n) then freeId ops k (n + 1) else n

/-- Answer PENDING with a new long operation, or BUSY when the function has 8 (R331). `start`
changes the state once the operation is admitted. -/
def State.long (s : State) (src : Src) (opcode : Nat) (work : Work) (ctx : Option Nat)
    (start : State → State) : Reply :=
  if 8 ≤ (s.opsOf (srcFn src)).length then Reply.fail s stBusy
  else
    let id := freeId s.delash.ops 200 s.delash.nextOp
    let op : LongOp := { fn := srcFn src, id, opcode := BitVec.ofNat 16 opcode, work, ctx }
    let s := s.modDelash fun d => { d with ops := d.ops ++ [op], nextOp := id + 1 }
    { st := start s, status := some stPending, payload := leBytes 2 id.toNat }

/-- The answer of a command whose outcome is decided and whose work takes longer than 10 ms: PENDING, with
the final response kept for POLL (R331), on the context that it names, if one (R332). -/
def Reply.pending (r : Reply) (src : Src) (opcode : Nat) (ctx : Option Nat) (before : State) : Reply :=
  match r.status with
  | some st =>
    if 8 ≤ (before.opsOf (srcFn src)).length then Reply.fail before stBusy
    else r.st.long src opcode (.timed st (if st = stOk then r.payload else [])) ctx id
  | none => r

/-- Serve the request at the front of the order of GO when it is the source's and carries the
command: its checks, the conflicts of step 8, then the command itself. `sub` is a SUBOP, OP or
PHASE that the command has at payload byte 0. -/
def State.serveIf (s : State) (src : Src) (opcode : Nat) (sub : List Byte → Bool)
    (body : State → List Byte → Reply) : State :=
  match s.delash.order, s.request src with
  | x :: rest, some req =>
    if x ≠ src ∨ rqOpcode req ≠ opcode ∨ rqPoll req ∨ !sub req ∨ !s.gafferUp then s
    else
      let t := s.modDelash fun d => { d with order := rest }
      (match s.checkRequest src req with
        | some st => t.answer src st []
        | none =>
          let busy := match rqCtx req with
            | some k => s.ctxBusy k && opcode != 0x0202 && opcode != 0x0203
            | none => false
          if busy then t.answer src stBusy []
          else
            let r := body t req
            match r.status with
            | some st => r.st.answer src st r.payload
            | none => r.st).takeFront
  | _, _ => s

def State.serve (s : State) (src : Src) (opcode : Nat) (body : State → List Byte → Reply) : State :=
  s.serveIf src opcode (fun _ => true) body

/-- Serve a command that payload byte `off` names further. -/
def State.serveOp (s : State) (src : Src) (opcode off sub : Nat) (body : State → List Byte → Reply) :
    State :=
  s.serveIf src opcode (fun r => rq r off 1 == sub) body

/-! ### MBX_GO, MCTP_MESSAGE, POLL, the work of long operations -/

/-- MBX_GO (09 R328, R329, R337, R346): the request is copied and its checks are made when its turn
comes; hardware answers BUSY while firmware does not serve commands. -/
def execMbxGo (f : FnId) (v : Word) (s : State) : Answer :=
  let m := s.mailbox f
  .next (if !v.getLsbD 0 then s
    else if m.state = 1 then s.modMailbox f fun m => { m with overrun := true }
    else
      let s := s.modMailbox f fun m => { m with state := 1, buf := some (fit 256 m.req) }
      if s.gafferUp then (s.modDelash fun d => { d with order := d.order ++ [.mailbox f] }).takeFront
      else s.answer (.mailbox f) stBusy [])

/-- MCTP_MESSAGE (09 R327): the endpoint NACKs its address while firmware does not serve commands,
and while it holds a request (DESIGN CHOICE, log 25). -/
def execMctpMessage (bytes : List Byte) (s : State) : Answer :=
  .next (if !s.gafferUp || s.delash.bmcBuf.isSome then s.emit .mctpNack
    else (s.modDelash fun d =>
      { d with bmcBuf := some (fit 256 bytes), order := d.order ++ [.bmc] }).takeFront)

/-- POLL (09 R331): PENDING while the operation's work runs; the final response releases it. -/
def execPoll (src : Src) (s : State) : Answer :=
  .next (match s.delash.order, s.request src with
    | x :: rest, some req =>
      if x ≠ src ∨ !rqPoll req ∨ !s.gafferUp then s
      else
        let t := s.modDelash fun d => { d with order := rest }
        (match s.checkRequest src req with
          | some st => t.answer src st []
          | none => match s.pollOp src req with
            | none => t.answer src stInvalidArg []
            | some op => match op.final with
              | none => t.answer src stPending (leBytes 2 op.id.toNat)
              | some r =>
                (t.modDelash fun d => { d with ops := d.ops.filter fun o =>
                  !(o.fn == op.fn && o.id == op.id) }).answer src r.1.toNat r.2).takeFront
    | _, _ => s)

/-- Is the work flash work, which runs one piece at a time in the order of GO (13 R454)? -/
def Work.isFlash : Work → Bool
  | .flash _ _ | .activate => true
  | _ => false

/-- Is flash work of a command in progress? -/
def State.flashBusy (s : State) : Bool := s.delash.ops.any fun o => o.work.isFlash && o.final.isNone

/-- Does flash work of an earlier GO still run? -/
def State.flashBefore (s : State) (op : LongOp) : Bool :=
  (s.delash.ops.takeWhile fun o => !(o.fn == op.fn && o.id == op.id)).any fun o => o.work.isFlash && o.final.isNone

/-- Is the work of an operation at its end, and its final status and payload? A self-test run on a tile at
thermal level 2 or 3 is abandoned and repeated once the tile is below level 2 (14 R487). -/
def State.workEnd (s : State) (op : LongOp) : Option (Nat × List Byte) :=
  match op.work with
  | .teardown k g => if (s.ctx k).st = .teardown ∧ (s.ctx k).gen.toNat = g then none else some (stOk, [])
  | .sectorReset m =>
    if (setBits m).any fun n => (s.sector n).reset.isSome then none else some (stOk, [])
  | .linkRetrain m =>
    if (setBits m).any fun p => (s.port p).st == .training then none
    else
      let up := ((setBits m).filter fun p => (s.port p).st == .up).foldl (fun a p => a + 2 ^ p) 0
      some (stOk, leBytes 2 up)
  | .qDestroy f j => if (s.queue f j).descs.isEmpty then some (stOk, []) else none
  | .timed st p => some (st, p)
  | .flash st p => if s.flashBefore op then none else some (st, p)
  | .activate => if s.flashBefore op || !s.gafferUp then none else some (stOk, leBytes 1 1)
  | .bist p _ _ _ b => if 2 ≤ (s.phy p).thermLevel then none else some (stOk, b)

/-- A DIAG_BIST_RUN ends: a SPARE that it placed in LEHR returns, and a compute domain that it powered goes off
(11 R418). A tile whose visit a sector reset has started meanwhile stays in it. -/
def Phys.bistEnds (x : Phys) (fails : Nat) (spare powered : Bool) : Phys :=
  { x with
    lbistFail := satAdd 0xFFFF x.lbistFail fails, diag := none, powered := x.powered && powered
    cad := if spare && x.cad == .lehr && x.visit.isNone then .spare else x.cad }

/-- The effect that a finished operation still owes: a destroyed queue leaves its slot, a tile its run. -/
def State.workDone (s : State) : Work → State
  | .qDestroy f j => s.setQueue f j {}
  | .bist p fails spare powered _ => s.modPhy p fun x => x.bistEnds fails spare powered
  | _ => s

/-- HEARTBEAT (09 R322). -/
def execHeartbeat (s : State) : Answer :=
  .next (if s.gafferUp then s.modPlumb fun p => { p with heartbeat := p.heartbeat + 1 } else s)

end Sys2Proof.Machine
end

