-- ==== Sys2Proof/Machine/Memory.lean ====
section
/-! DEFINITION. Tier memory: address decoding and homing, the sector stores, error protection, scrub
and repair (07 R231 to R246). Bytes and lines are kept under the SECTOR-mode device address of
their place in a sector's memory, so a change of mode moves no data (07 R232). -/
namespace Sys2Proof.Machine

/-! ### Ports and channels (06 R198; 09 R341) -/

/-- The sector store port (06 R198). -/
def portOf (a : Nat) : Nat := bits a 10 9

/-- The sector of a place, and its memory channel as HEALTH_READ numbers it (09 R341). -/
def placeSector (l : Nat) : Nat := (l - tierBase l) / tierSectorBytes l
def placeChannel (l : Nat) : Nat :=
  let o := (l - tierBase l) % tierSectorBytes l
  if inTier2 l then 128 + placeSector l else 8 * placeSector l + ((o / 2 ^ 8) ^^^ (o / 2 ^ 16)) % 8

/-- The sector of a memory channel. -/
def channelSector (ch : Nat) : Nat := if 128 ≤ ch then ch - 128 else ch / 8

/-! ### The sector stores (07 R240) -/

/-- The sets of all slices by number: sector, slice behind a port, and Set of the line's offset. -/
def cacheKey (l : Nat) : Nat :=
  let o := (l - tierBase l) % tierSectorBytes l
  (placeSector l * 4 + bits o 10 9) * 4096 + ((o / 2 ^ 7) ^^^ (o / 2 ^ 19)) % 4096

/-- A set after an access to a line: the line is the most recently used one; of more than 16 the least
recently used is evicted, and a dirty one is written back. -/
def touchSet (ls : List CacheLine) (line : Nat) (write : Bool) : List CacheLine :=
  let was := (ls.find? (·.line == line)).any (·.dirty)
  (({ line, dirty := was || write } : CacheLine) :: ls.filter (·.line != line)).take 16

/-- The lines of a range of tier addresses, by place. -/
def State.linesOf (s : State) (a n : Nat) : List Nat :=
  (s.places a n).flatMap fun p => (List.range ((p.1 + p.2 - 1) / 128 + 1 - p.1 / 128)).map (p.1 / 128 + ·)

/-- An access through the sector stores: a miss allocates, of a read and of a write (R240). -/
def State.touch (s : State) (a n : Nat) (write : Bool) : State :=
  if !(s.addrKind a).isTier then s
  else (s.linesOf a n).foldl (fun s line =>
    { s with caches := Tab.mod [] s.caches (cacheKey (line * 128)) fun ls => touchSet ls line write }) s

/-- A read that the sector stores answered, OK or POISONED, has its lines there (R240, R242). -/
def State.touchRead (s : State) (st a n : Nat) : State :=
  if st = stOk ∨ st = stPoisoned then s.touch a n false else s

/-- The lines of which `p` holds are written back and invalidated. -/
def State.invalidate (s : State) (p : Nat → Bool) : State :=
  { s with caches := (s.caches.map fun (e : Nat × List CacheLine) =>
      (e.1, e.2.filter fun c => !p c.line)).filter fun e => !e.2.isEmpty }

/-! ### Granules (07 R234, R238), numbered by place -/

/-- The drain area of a sector: the top 162 MiB of its tier-1 range (05 R181). -/
def drainArea (n : Nat) : Nat × Nat := ((n + 1) * sectorBytes1 - 0xA200000, (n + 1) * sectorBytes1)

/-- The dump area of a sector: the top 16 MiB of its tier-2 memory; without tier-2 the 16 MiB below its drain
area (07 R238). -/
def State.dumpArea (s : State) (n : Nat) : Nat × Nat :=
  if s.hasTier2 then (tier2Base + (n + 1) * sectorBytes2 - 0x1000000, tier2Base + (n + 1) * sectorBytes2)
  else ((drainArea n).1 - 0x1000000, (drainArea n).1)

/-- Firmware writes in the drain area of a sector what the spec lists and lays out nowhere: the tile records of a
drain (05 Table 5.9), the core initialisation image (13 R461), the kept descriptors of a placement (10 Table
10.8). Its bytes are free values (log 67). -/
def State.openDrainArea (s : State) (n : Nat) : State := s.scramble (drainArea n).1 (drainArea n).2

/-- The granules of a sector in a tier. -/
def sectorGranules (tier2 : Bool) (sec : Nat) : Nat × Nat :=
  let lo := if tier2 then tier2Base / granuleBytes + sec * 24576 else sec * 9216
  (lo, lo + if tier2 then 24576 else 9216)

/-- The FIRMWARE granules of a sector: the drain area and the dump area. -/
def State.firmwareFrom (s : State) (tier2 : Bool) (sec : Nat) : Nat :=
  (sectorGranules tier2 sec).2 - (if tier2 then 8 else if s.hasTier2 then 81 else 89)

/-- The intervals of FIRMWARE granules of a tier. -/
def State.firmware (s : State) (tier2 : Bool) : ISet :=
  (List.range 16).map fun n => (s.firmwareFrom tier2 n, (sectorGranules tier2 n).2)

/-- The part of an interval set inside an interval. -/
def ISet.within (s : ISet) (lo hi : Nat) : ISet :=
  s.filterMap fun i => if max i.1 lo < min i.2 hi then some (max i.1 lo, min i.2 hi) else none

def ISet.insertAll (s : ISet) (rs : ISet) : ISet := rs.foldl (fun s r => ISet.insert r.1 r.2 s) s
def ISet.removeAll (s : ISet) (rs : ISet) : ISet := rs.foldl (fun s r => ISet.remove r.1 r.2 s) s
def ISet.withinAll (s : ISet) (rs : ISet) : ISet := rs.flatMap fun r => ISet.within s r.1 r.2

/-- Is a place homed to the context? -/
def State.isHomed (s : State) (k l : Nat) : Bool :=
  s.owns k (placeSector l) && ISet.mem (s.ctx k).homed (l / granuleBytes)

/-- The granules that a range of device addresses lies in; under GLOBAL mode those of all sectors
that hold a piece of it (DESIGN CHOICE, log 26). -/
def State.granulesOf (s : State) (a n : Nat) : ISet :=
  if n = 0 then []
  else if s.isGlobal a then
    let lo := (a - tierBase a) / 0x2000000
    let hi := (a + n - 1 - tierBase a) / 0x2000000 + 1
    (List.range 16).map fun sec =>
      let g := (sectorGranules (inTier2 a) sec).1
      (g + lo, g + hi)
  else [(a / granuleBytes, (a + n) / granuleBytes)]

/-- Granules become HOMED: they read as zero (R236) and lose their poison. -/
def State.homeGranules (s : State) (k : Nat) (rs : ISet) : State :=
  let s := s.modCtx k fun x => { x with homed := ISet.insertAll x.homed rs }
  { s with tierPz := ISet.insertAll s.tierPz (rs.map fun r => (r.1 * 512, r.2 * 512))
           poison := ISet.removeAll s.poison (rs.map fun r => (r.1 * 16384, r.2 * 16384)) }

/-- Granules of the context leave HOMED: FREE, or RETIRED when marked; the sector stores write back and
invalidate their lines (R235, R244). -/
def State.releaseGranules (s : State) (k : Nat) (rs : ISet) : State :=
  let gone := ISet.withinAll (s.ctx k).homed rs
  let s := s.invalidate fun line => ISet.mem gone (line / 16384)
  let s := s.modCtx k fun x => { x with homed := ISet.removeAll x.homed rs }
  let gone := ISet.withinAll s.retireMark rs
  { s with retired := ISet.insertAll s.retired gone, retireMark := ISet.removeAll s.retireMark gone }

/-- All granules of the tier homed to a context. -/
def State.tierHomed (s : State) (k : Nat) (tier2 : Bool) : ISet :=
  ISet.withinAll (s.ctx k).homed ((List.range 16).map (sectorGranules tier2))

/-! ### MEM_HOME (07 R233 to R238; 09 Table 9.10, R340) -/

/-- The first holes of the spans that RETIRED granules affect, lowest address first. -/
def State.holes (s : State) (tier2 : Bool) : List Nat :=
  let base := if tier2 then tier2Base else 0
  let count := if tier2 then 24576 else 9216
  (List.range count).flatMap fun g =>
    ((List.range 16).filter fun sec => ISet.mem s.retired ((sectorGranules tier2 sec).1 + g)).map
      fun sec => base + g * 0x2000000 + sec * 0x800

/-- The response of MEM_HOME. -/
def homeReply (changed : Nat) (holes : List Nat) (first : Nat) : List Byte :=
  leBytes 4 changed ++ leBytes 4 holes.length ++ ((holes.drop first).take 29).flatMap (leBytes 8)

def rqTier2 (r : List Byte) : Bool := rq r 2 1 == 2

/-- The range of HOME and RELEASE: an error, or its granules (R235). -/
def State.homeRange (s : State) (r : List Byte) : Option ISet :=
  let a := rq r 8 8
  let n := rq r 4 4 * granuleBytes
  let base := if rqTier2 r then tier2Base else 0
  let size := if rqTier2 r then tier2Size else tier1Size
  if a % granuleBytes ≠ 0 ∨ a < base ∨ base + size ≤ a ∨ base + size < a + n then none
  else
    let rs := s.granulesOf a n
    let k := rq r 0 1
    let foreign := (List.range 16).any fun sec =>
      let g := sectorGranules (rqTier2 r) sec
      !s.owns k sec && ISet.meets rs g.1 g.2
    if foreign then none else some rs

/-- The holes that the response lists: those of a tier the context holds in GLOBAL mode (R238; 09 R340). -/
def State.holesOf (s : State) (k : Nat) (tier2 : Bool) : List Nat :=
  if (if tier2 then (s.ctx k).global2 else (s.ctx k).global1) then s.holes tier2 else []

/-- MEM_HOME with OP HOME (07 R235, R236, R238). -/
def State.memHome (s : State) (r : List Byte) : Reply :=
  match s.homeRange r with
  | none => Reply.fail s stInvalidArg
  | some rs =>
    let k := rq r 0 1
    if rs.any fun i => ISet.meets (s.firmware (rqTier2 r)) i.1 i.2 || ISet.meets s.retired i.1 i.2 then
      Reply.fail s stNoResource
    else
      let new := ISet.removeAll rs (ISet.withinAll (s.ctx k).homed rs)
      Reply.ok (s.homeGranules k new) (homeReply (ISet.count new) (s.holesOf k (rqTier2 r)) 0)

/-- MEM_HOME with OP RELEASE (07 R235, R244). -/
def State.memRelease (s : State) (r : List Byte) : Reply :=
  match s.homeRange r with
  | none => Reply.fail s stInvalidArg
  | some rs =>
    let k := rq r 0 1
    let gone := ISet.withinAll (s.ctx k).homed rs
    Reply.ok (s.releaseGranules k gone) (homeReply (ISet.count gone) (s.holesOf k (rqTier2 r)) 0)

def Ctx.isGlobal (x : Ctx) (tier2 : Bool) : Bool := if tier2 then x.global2 else x.global1
def Ctx.setGlobal (x : Ctx) (tier2 on : Bool) : Ctx :=
  if tier2 then { x with global2 := on } else { x with global1 := on }

/-- GLOBAL mode homes the whole tier but its FIRMWARE and RETIRED granules (R233, R238). -/
def State.setGlobal (s : State) (k : Nat) (tier2 : Bool) : State × Nat :=
  let all := (List.range 16).map fun n => ((sectorGranules tier2 n).1, s.firmwareFrom tier2 n)
  let new := ISet.removeAll all s.retired
  ((s.modCtx k (·.setGlobal tier2 true)).homeGranules k new, ISet.count new)

/-- MEM_HOME with OP SET_GLOBAL (07 R233; 09 R340). -/
def State.memSetGlobal (s : State) (r : List Byte) : Reply :=
  let k := rq r 0 1
  let t := rqTier2 r
  if (s.ctx k).isGlobal t then Reply.ok s (homeReply 0 (s.holes t) (rq r 4 4))
  else if (s.ctx k).sectors ≠ 0xFFFF ∨ !(s.tierHomed k t).isEmpty then Reply.fail s stInvalidArg
  else
    let (s, n) := s.setGlobal k t
    Reply.ok s (homeReply n (s.holes t) (rq r 4 4))

/-- MEM_HOME with OP SET_SECTOR (07 R233): leaving GLOBAL mode releases the whole tier. -/
def State.memSetSector (s : State) (r : List Byte) : Reply :=
  let k := rq r 0 1
  let t := rqTier2 r
  if (s.ctx k).isGlobal t then
    let gone := s.tierHomed k t
    Reply.ok ((s.modCtx k (·.setGlobal t false)).releaseGranules k gone) (homeReply (ISet.count gone) [] 0)
  else Reply.ok s (homeReply 0 [] 0)

/-- MEM_HOME_HOME (07 R235). -/
def execMemHomeHome (src : Src) (s : State) : Answer := .next (s.serveOp src 0x0501 1 0 State.memHome)
/-- MEM_HOME_RELEASE (07 R235). -/
def execMemHomeRelease (src : Src) (s : State) : Answer := .next (s.serveOp src 0x0501 1 1 State.memRelease)
/-- MEM_HOME_SET_GLOBAL (07 R233). -/
def execMemHomeSetGlobal (src : Src) (s : State) : Answer :=
  .next (s.serveOp src 0x0501 1 2 State.memSetGlobal)
/-- MEM_HOME_SET_SECTOR (07 R233). -/
def execMemHomeSetSector (src : Src) (s : State) : Answer :=
  .next (s.serveOp src 0x0501 1 3 State.memSetSector)

/-- BACKGROUND_ZERO_GRANULE (07 R236): a background write of zeros to a pending 4 KiB unit. -/
def execBackgroundZeroGranule (u : Nat) (s : State) : Answer :=
  .next (if u * 4096 < spadBase then s.settle (u * 4096) else s)

/-! ### Reads and writes of tier memory -/

def State.readTier (s : State) (a n : Nat) : List Byte :=
  (s.places a n).flatMap fun p => s.readBytes p.1 p.2

/-- Does a range lie partly on a poisoned line? -/
def State.isPoisoned (s : State) (a n : Nat) : Bool :=
  (s.places a n).any fun p => ISet.meets s.poison (p.1 / 128) ((p.1 + p.2 - 1) / 128 + 1)

/-- Is every byte of the range homed to the context? -/
def State.allHomed (s : State) (k a n : Nat) : Bool := (s.places a n).all fun p => s.isHomed k p.1

/-- Write bytes: a line that the write covers wholly is poisoned no more (R242). -/
def State.writePlace (s : State) (l : Nat) (bs : List Byte) : State :=
  let s := s.writeBytes l bs
  { s with poison := ISet.remove ((l + 127) / 128) ((l + bs.length) / 128) s.poison }

def State.writeTier (s : State) (a : Nat) (bs : List Byte) : State :=
  (cutAt 2048 a bs.length).foldl (fun t p =>
    t.writePlace (s.loc p.1) ((bs.drop (p.1 - a)).take p.2)) s

/-- Units that read as zero and hold a byte of a range are zeroed before a write of it (10 R379). -/
def State.settleUnits (s : State) (a n : Nat) : State :=
  (s.places a n).foldl (fun s p =>
    (List.range ((p.1 + p.2 - 1) / 4096 + 1 - p.1 / 4096)).foldl (fun s i => s.settle ((p.1 / 4096 + i) * 4096)) s) s

/-- Poison the lines of a range: a write, before which its pending units are zeroed, so that their zeroing does
not drop the poison (R242). -/
def State.poisonTier (s : State) (a n : Nat) : State :=
  let s := s.settleUnits a n
  { s with poison := (s.places a n).foldl (fun x p =>
      ISet.insert (p.1 / 128) ((p.1 + p.2 - 1) / 128 + 1) x) s.poison }

/-- Is the home sector of a tier address fenced, under reset or OUT? -/
def State.homeFenced (s : State) (a : Nat) : Bool := (s.sector (s.homeSector a)).st.isFenced

/-- A read of tier memory for a context: its status and bytes (R237, R242, 06 R214). -/
def State.storeRead (s : State) (k a n : Nat) : Nat × List Byte :=
  if s.homeFenced a then (stFenced, [])
  else if !s.allHomed k a n then (stInvalidArg, [])
  else if s.isPoisoned a n then (stPoisoned, [])
  else (stOk, s.readTier a n)

/-- A write of tier memory for a context, or a poisoned write of `n` bytes. -/
def State.storeWrite (s : State) (k a : Nat) (bs : List Byte) : Nat × State :=
  if s.homeFenced a then (stFenced, s)
  else if !s.allHomed k a bs.length then (stInvalidArg, s)
  else (stOk, (s.writeTier a bs).touch a bs.length true)

def State.storePoison (s : State) (k a n : Nat) : Nat × State :=
  if s.homeFenced a then (stFenced, s)
  else if !s.allHomed k a n then (stInvalidArg, s)
  else (stPoisoned, (s.poisonTier a n).touch a n true)

/-! ### Answers to engines (07 R249, R250, Table 7.5) -/

def stagingBase : Nat := 0xF8000000000
/-- The address in an engine's staging window of a descriptor place. -/
def stagingAddr (e place : Nat) : Nat := stagingBase + e * 0x100000 + place * 0x80000

/-- The physical tile of sector store port p of a sector (06 R198). -/
def portTile (sec p : Nat) : Nat := physOfLocal sec ((2 + p / 2) * 6 + 2 + p % 2)

/-- The route word to a sector's store or controller port. -/
def State.routePort (s : State) (sec p k : Nat) : RouteWord :=
  { px := BitVec.ofNat 5 (physX (portTile sec p)), py := BitVec.ofNat 5 (physY (portTile sec p))
    destTile := BitVec.ofNat 9 (sec * 32), memPort := true, ctx := BitVec.ofNat 4 k
    gen := (s.ctx k).gen }

/-- The header of a DMA_CTL ACK. -/
def ackHeader (e place bytes status : Nat) : Nat :=
  5 * 2 ^ 4 + e * 2 ^ 10 + place * 2 ^ 15 + (bytes % 128) * 2 ^ 16 + (bytes / 128 % 2) * 2 ^ 23
    + (bytes / 256 % 4) * 2 ^ 24 + status * 2 ^ 26

/-- Post an acknowledgement to an engine, from a local port of a router. -/
def State.postAck (s : State) (at_ k e place bytes status : Nat) (port : Nat := 0) : State :=
  s.post .control at_ (.control
    { route := s.routePort (e / 2) 0 k, header := BitVec.ofNat 48 (ackHeader e place bytes status) }) port

/-- The engine and place of a staging window address. -/
def stagingPlace (a : Nat) : Nat × Nat := ((a - stagingBase) / 0x100000, bits (a - stagingBase) 19 19)

/-- Is an address in a staging window of the 32 engines? -/
def inStaging (a : Nat) : Bool := decide (stagingBase ≤ a) && decide (a < stagingBase + 32 * 0x100000)

/-- The acknowledgement of a refused READ_REQ (R250). The engine will know it as one: the header does not
say how (DEDUCED, log 27). -/
def State.ackRead (s : State) (at_ k raddr bytes port : Nat) : State :=
  let (e, i) := stagingPlace raddr
  (s.modPlace e i fun p => if p.desc.isSome then { p with readAcks := p.readAcks + 1 } else p).postAck at_ k e i
    bytes stInvalidArg port

/-- STATUS of a bulk packet. -/
def bulkStatus (status : Nat) : BitVec 2 :=
  if status = stOk then 0 else if status = stFenced then 2 else 1

/-- Post the response of a read to an address, one packet and so the last; a POISONED or FENCED one has no data flits (06 R215). -/
def State.postRsp (s : State) (at_ k raddr rbcnt bytes status : Nat) (data : List Byte) (port : Nat := 0) :
    State :=
  let route := if stagingBase ≤ raddr then
      let e := (raddr - stagingBase) / 0x100000
      s.routePort (e / 2) (2 * (e % 2) + bits raddr 9 9) k
    else match s.addrKind raddr with
      | .spad t _ => s.routeTo t k
      | _ => s.routePort (s.homeSector raddr) (portOf raddr) k
  s.post .bulk at_ (.bulk
    { route, kind := 2, nflits := BitVec.ofNat 4 ((data.length + 63) / 64), bytes := BitVec.ofNat 10 bytes
      last := true, status := bulkStatus status, bcnt := BitVec.ofNat 6 rbcnt, addr := BitVec.ofNat 48 raddr
      data }) port

/-- SECTOR_STORE_REQUEST (07 R237, R241, R242, R250; 10 R375): one request, performed whole. -/
def execSectorStoreRequest (r : StoreRequest) (s : State) : Answer :=
  let k := r.ctx.val
  let n := match r.data with
    | some bs => bs.length
    | none => r.len
  let at_ := portTile (s.homeSector r.addr) (portOf r.addr)
  let ra := stagingAddr r.engine r.place
  .next (if !(s.addrKind r.addr).isTier || !(s.addrKind (r.addr + n - 1)).isTier || n == 0 then s
    else if s.homeFenced r.addr then
      match r.data with
      | none => s.postRsp at_ k ra 0 n stFenced [] 2
      | some _ => s.postAck at_ k r.engine r.place n stFenced 2
    else if !s.owns k (s.homeSector r.addr) then s
    else if r.gen ≠ (s.ctx k).gen then
      match r.data with
      | none => s.postRsp at_ k ra 0 n stPoisoned [] 2
      | some _ => s
    else match r.data with
      | none =>
        let (st, bs) := s.storeRead k r.addr n
        let s := (s.touchRead st r.addr n).postRsp at_ k ra 0 n st bs 2
        if st = stInvalidArg then s.ackRead at_ k ra n 2 else s
      | some bs =>
        let (st, s) := if r.poisoned then s.storePoison k r.addr n else s.storeWrite k r.addr bs
        s.postAck at_ k r.engine r.place n st 2)

/-! ### Scrub and repair (07 R243 to R245; counters of 11 Table 11.10) -/

/-- Trouble counters saturate at 0xFFFF (11 R415). -/
def bump (n : Nat) : Nat := satAdd 0xFFFF n 1

/-- Is a memory channel's domain powered, which the licence decides (01 R35)? -/
def State.channelPowered (s : State) (ch : Nat) : Bool :=
  (s.sector (channelSector ch)).st != .off && (decide (ch < 128) || s.hasTier2)

/-- Is a memory channel in service: powered, and its sector neither fenced nor under reset? -/
def State.channelOn (s : State) (ch : Nat) : Bool :=
  s.channelPowered ch && !(s.sector (channelSector ch)).st.isFenced

/-- PATROL_SCRUB (07 R243): the line `line` x 128, by place. -/
def execPatrolScrub (line : Nat) (found : LineState) (s : State) : Answer :=
  let l := line * 128
  .next (if !(s.addrKind l).isTier || !s.channelOn (placeChannel l) then s
    else match found with
      | .clean => s
      | .corrected => s.modChannel (placeChannel l) fun c => { c with ce := bump c.ce }
      | .uncorrectable =>
        if ISet.mem s.poison line then s
        else
          let s := s.modChannel (placeChannel l) fun c => { c with ue := bump c.ue }
          { s with poison := ISet.insert line (line + 1) s.poison })

/-- ROW_REPAIR (07 R244): the row is repaired with a spare; without one its granule is marked for
retirement at its next release. -/
def execRowRepair (ch : ChannelId) (granule : Nat) (spareRow : Bool) (s : State) : Answer :=
  let l := granule * granuleBytes
  .next (if !s.gafferRuns || !(s.addrKind l).isTier || placeSector l != channelSector ch
      || inTier2 l != decide (128 ≤ ch.val) || !s.channelOn ch then s
    else if spareRow then s.modChannel ch fun c => { c with rowRepair := bump c.rowRepair }
    else if ISet.mem s.retired granule then s
    else { s with retireMark := ISet.insert granule (granule + 1) s.retireMark })

/-- RECALIBRATION (07 R245): the channel's requests wait; its contents are kept. -/
def execRecalibration (ch : ChannelId) (s : State) : Answer :=
  .next (if !s.channelOn ch then s
    else s.modChannel ch fun c => { c with lastRecal := s.deviceTime })

end Sys2Proof.Machine
end

