-- ==== Sys2Proof/Machine/Transfer.lean ====
section
/-! DEFINITION. Dispatch of descriptors in ring order, and the DMA engines: DMA and TILEFEED
descriptors, their requests, acknowledgements and completion (07 R247 to R255; 10 R360). An engine
issues requests as far as its claims and its 64 outstanding requests allow; the responses and
acknowledgements carry it on. A row or strip begins once the requests of the one before have ended
(DESIGN CHOICE, log 27). -/
namespace Sys2Proof.Machine

/-! ### Dispatch (10 R360, R361) -/

/-- Does a descriptor hold the later ones of its queue? -/
def Desc.holds (d : Desc) : Bool :=
  match d.type with
  | 5 | 7 | 8 => true
  | 6 => false
  | _ => !d.dispatched

/-- The descriptor may be dispatched: no earlier one of its queue holds it. -/
def HostQueue.reaches (q : HostQueue) (id : Nat) : Bool :=
  (q.descs.takeWhile (·.id != id)).all fun d => !d.holds

def State.modDesc (s : State) (f j id : Nat) (g : Desc → Desc) : State :=
  s.modQueue f j fun q => { q with descs := q.descs.map fun d => if d.id = id then g d else d }

/-- Dispatch: T_START is taken (10 Table 10.5). -/
def State.dispatch (s : State) (f j id : Nat) : State :=
  s.modDesc f j id fun d => { d with dispatched := true, tStart := s.deviceTime }

/-! ### Fields of the bodies (07 Tables 7.6 and 7.7) -/

def dmSrc (d : Desc) : Nat := field d.bytes 0x10 8
def dmDst (d : Desc) : Nat := field d.bytes 0x18 8
def dmRowBytes (d : Desc) : Nat := field d.bytes 0x20 4
def dmRows (d : Desc) : Nat := field d.bytes 0x24 4
def dmSrcStride (d : Desc) : Nat := field d.bytes 0x28 4
def dmDstStride (d : Desc) : Nat := field d.bytes 0x2C 4
def dmBcnt (d : Desc) : Nat := field d.bytes 0x30 1
def dmFlags (d : Desc) : Nat := field d.bytes 0x31 1
def dmStreamSrc (d : Desc) : Bool := dmFlags d % 2 == 1
def dmStreamDst (d : Desc) : Bool := bits (dmFlags d) 1 1 == 1
def dmCast (d : Desc) : Nat := bits (dmFlags d) 3 2
def dmSrcRegion (d : Desc) : Nat := field d.bytes 0x32 1
def dmDstRegion (d : Desc) : Nat := field d.bytes 0x33 1
def dmSmask (d : Desc) : Nat := field d.bytes 0x34 2
def dmImask (d : Desc) : Nat := field d.bytes 0x38 4

def tfSrc (d : Desc) : Nat := field d.bytes 0x10 8
def tfScaleSrc (d : Desc) : Nat := field d.bytes 0x18 8
def tfRowBytes (d : Desc) : Nat := field d.bytes 0x20 4
def tfSrcStride (d : Desc) : Nat := field d.bytes 0x24 4
def tfScaleStride (d : Desc) : Nat := field d.bytes 0x28 4
def tfMb (d : Desc) : Nat := field d.bytes 0x2C 2
def tfNb (d : Desc) : Nat := field d.bytes 0x2E 2
def tfFirst (d : Desc) : Nat := field d.bytes 0x30 2
def tfTiles (d : Desc) : Nat := field d.bytes 0x32 1
def tfFlags (d : Desc) : Nat := field d.bytes 0x33 1
def tfWalk (d : Desc) : Nat := tfFlags d % 4
def tfRoleB (d : Desc) : Bool := bits (tfFlags d) 2 2 == 1
def tfMx (d : Desc) : Bool := bits (tfFlags d) 3 3 == 1
def tfRegion (d : Desc) : Nat := field d.bytes 0x34 1
def tfScaleRegion (d : Desc) : Nat := field d.bytes 0x35 1
def tfBcnt (d : Desc) : Nat := field d.bytes 0x36 1
def tfScaleOff (d : Desc) : Nat := field d.bytes 0x38 4
def tfScaleRow (d : Desc) : Nat := field d.bytes 0x3C 2

/-! ### Multicast members (06 R212) -/

def castMembers (cast smask imask : Nat) : List Nat :=
  if cast = 1 then
    (List.range 16).flatMap fun sec =>
      if bits smask 1 0 ≤ sec % 4 ∧ sec % 4 ≤ bits smask 3 2 ∧ bits smask 5 4 ≤ sec / 4
          ∧ sec / 4 ≤ bits smask 7 6 then
        ((List.range 32).filter fun i => decide (bits imask 4 0 ≤ i) && decide (i ≤ bits imask 9 5)).map
          (sec * 32 + ·)
      else []
  else
    (setBits (BitVec.ofNat 16 smask)).flatMap fun sec =>
      (setBits (BitVec.ofNat 32 imask)).map (sec * 32 + ·)

/-- The sectors a multicast selects (06 R212), whether or not it selects an index in them. -/
def castSectors (cast smask : Nat) : List Nat :=
  if cast = 1 then
    (List.range 16).filter fun sec => decide (bits smask 1 0 ≤ sec % 4) && decide (sec % 4 ≤ bits smask 3 2)
      && decide (bits smask 5 4 ≤ sec / 4) && decide (sec / 4 ≤ bits smask 7 6)
  else setBits (BitVec.ofNat 16 smask)

/-! ### Checks (07 R253) -/

/-- The tile whose scratchpad window names an address, whatever its offset. -/
def windowTile (a : Nat) : Option Nat :=
  if spadBase ≤ a ∧ a < spadBase + 512 * 0x400000 then some ((a - spadBase) / 0x400000) else none

/-- A run of bytes a descriptor may name: populated, in owned sectors, not in register space; a
scratchpad address is word-aligned (06 R200). The pieces looked at lie in one sector each: the bounds of
tier-2 sectors are multiples of 16 GiB. -/
def State.spanOk (s : State) (k a n : Nat) : Bool :=
  match s.addrKind a, s.addrKind (a + n - 1) with
  | .spad t _, .spad u _ => t == u && a % 4 == 0 && s.owns k (sectorOfTile t)
  | .tier1, .tier1 | .tier2, .tier2 =>
    (cutAt (if s.isGlobal a then 2048 else if inTier2 a then 0x400000000 else sectorBytes1 / 2) a n).all
      fun p => s.owns k (s.homeSector p.1)
  | _, _ => false

/-- All rows of a strided run; with no rows or bytes its first byte (R12). -/
def State.rowsOk (s : State) (k a stride rows n : Nat) : Bool :=
  (List.range (max 1 rows)).all fun r => s.spanOk k (a + r * stride) (max 1 n)

/-- Does a row of `words` words fit a region that its context may stream through (04 R138)? A region of
another context counts as disabled (04 R129), and a LINEAR one takes no claim (DEDUCED, log 27). -/
def State.streamFits (s : State) (t region words : Nat) : Bool :=
  let r := s.region t region
  words == 0 || (s.enabled t region && r.circular && decide (words ≤ r.size))

/-- A side of a stream: its window names an owned tile, and a row fits its region (R138). The offset is ignored and
may be unpopulated: R251 says so of SRC, and DST is taken in the same way (DESIGN CHOICE, log 69). -/
def State.streamOk (s : State) (k a region words : Nat) : Bool :=
  match windowTile a with
  | none => false
  | some t => decide (region < 32) && s.owns k (sectorOfTile t) && s.streamFits t region words

/-- R253 for a DMA descriptor. A multicast's rows lie in the populated part of every member's window, and
every sector it selects is owned, also where it selects no member (06 R212). -/
def State.dmaOk (s : State) (k : Nat) (d : Desc) : Bool :=
  let n := dmRowBytes d
  n % 4 == 0 && dmCast d != 3 && decide (dmBcnt d < 64)
  && (if dmStreamSrc d then s.streamOk k (dmSrc d) (dmSrcRegion d) (n / 4)
      else s.rowsOk k (dmSrc d) (dmSrcStride d) (dmRows d) n)
  && (if dmCast d ≠ 0 then
        !dmStreamSrc d && !dmStreamDst d && dmDst d % 4 == 0 && dmDstStride d % 4 == 0
        && (castSectors (dmCast d) (dmSmask d)).all (s.owns k ·)
        && (List.range (max 1 (dmRows d))).all fun r =>
            decide (dmDst d % 2 ^ 22 + r * dmDstStride d + max 1 n ≤ 0x300000)
      else if dmStreamDst d then s.streamOk k (dmDst d) (dmDstRegion d) (n / 4)
      else s.rowsOk k (dmDst d) (dmDstStride d) (dmRows d) n)

/-- R252: where strip `j` of scales of a tile lies, in bytes from the base of the tile's window. -/
def scaleStrip (d : Desc) (base j : Nat) : Nat := 4 * base + 16 * (tfScaleOff d + j % 2 * tfScaleRow d)

/-- R253 for a TILEFEED descriptor. -/
def State.feedOk (s : State) (k : Nat) (d : Desc) : Bool :=
  let last := (tfMb d * tfNb d - 1) / max 1 (tfTiles d)
  let n := tfRowBytes d
  let rows := 16 * (if tfRoleB d then tfNb d else tfMb d)
  let tiles := (List.range (max 1 (tfTiles d))).map (tfFirst d + ·)
  n % 4 == 0 && decide (tfTiles d ≤ 32) && decide (tfWalk d ≤ 2) && decide (tfRegion d < 32)
  && decide (tfScaleRegion d < 32) && decide (tfBcnt d < 64)
  && (s.addrKind (tfSrc d)).isTier && s.rowsOk k (tfSrc d) (tfSrcStride d) rows n
  && (!tfMx d || s.rowsOk k (tfScaleSrc d) (tfScaleStride d) rows (tfScaleRow d))
  && tiles.all fun t => decide (t < 512) && s.owns k (sectorOfTile t)
      && s.streamFits t (tfRegion d) (4 * n)
      && (!tfMx d || (List.range (min 2 (last + 1))).all fun j => decide
        (scaleStrip d (s.region t (tfScaleRegion d)).base j + 16 * tfScaleRow d ≤ 0x300000))

/-! ### Moving bytes -/

/-- The order of statuses of R254. -/
def worse (a b : Nat) : Nat :=
  if a = stInvalidArg ∨ b = stInvalidArg then stInvalidArg
  else if a = stFenced ∨ b = stFenced then stFenced
  else if a = stPoisoned ∨ b = stPoisoned then stPoisoned
  else stOk

/-- Is a tile's sector fenced, or the tile withdrawn (06 R214)? -/
def State.tileFenced (s : State) (t : Nat) : Bool :=
  let x := s.sector (sectorOfTile t)
  x.st.isFenced || x.withdrawn.getLsbD (t % 32)

/-- Do the words of a run of scratchpad bytes all lie in enabled regions of the context (04 R134)? R134 speaks
of a word: a packet of which some words do not is refused whole (DESIGN CHOICE, log 27). -/
def State.runReaches (s : State) (k t off n : Nat) : Bool :=
  (List.range ((off + n + 3) / 4 - off / 4)).all fun i => s.engineReaches k t (off / 4 + i)

/-- Read `n` bytes, at most one packet. -/
def State.engineRead (s : State) (k a n : Nat) : Nat × List Byte :=
  match s.addrKind a with
  | .spad t off =>
    if s.tileFenced t then (stFenced, [])
    else if !s.runReaches k t off n then (stInvalidArg, [])
    else (stOk, s.readBytes a n)
  | .tier1 | .tier2 => s.storeRead k a n
  | _ => (stInvalidArg, [])

/-- Write the bytes of one packet, or a POISONED packet of `n` bytes; a tile credits its counter
(06 R215, R217; 07 R242). -/
def State.engineWrite (s : State) (k a bcnt : Nat) (bs : List Byte) (poisoned : Bool) (n : Nat) :
    Nat × State :=
  match s.addrKind a with
  | .spad t off =>
    if s.tileFenced t then (stFenced, s)
    else if poisoned then (stPoisoned, s.creditBcnt t bcnt n true)
    else if !s.runReaches k t off n then (stInvalidArg, s)
    else (stOk, (s.writeBytes a bs).creditBcnt t bcnt n false)
  | .tier1 | .tier2 => if poisoned then s.storePoison k a n else s.storeWrite k a bs
  | _ => (stInvalidArg, s)

/-- Is an address in the tier memory of the engine's own sector (R247)? -/
def State.isLocal (s : State) (e a : Nat) : Bool :=
  (s.addrKind a).isTier && s.homeSector a == e / 2

/-- Cut a row into packets: no packet crosses 512 bytes of its source or destination, or the end of
a segment of either. -/
def packets : Nat → List (Nat × Nat) → List (Nat × Nat) → List (Nat × Nat × Nat)
  | 0, _, _ => []
  | f + 1, (a, n) :: ss, (b, m) :: ds =>
    if n = 0 then packets f ss ((b, m) :: ds)
    else if m = 0 then packets f ((a, n) :: ss) ds
    else
      let c := min (min n m) (min (512 - a % 512) (512 - b % 512))
      (a, b, c) :: packets f ((a + c, n - c) :: ss) ((b + c, m - c) :: ds)
  | _ + 1, _, _ => []

/-- The segments of a granted claim, as device addresses. -/
def State.claimSegs (s : State) (c : ClaimRef) : List (Nat × Nat) :=
  let r := s.region c.tile c.region
  match s.claimOf c with
  | none => []
  | some k =>
    let head := min k.words (r.size - k.start.off)
    [(spadAddr c.tile (4 * (r.base + k.start.off)), 4 * head),
     (spadAddr c.tile (4 * r.base), 4 * (k.words - head))]

/-! ### Places of the engines (07 R247, R248) -/

def Place.isFree (p : Place) : Bool := p.desc.isNone
def Engine.active (e : Engine) : Nat := bit (!e.p0.isFree) + bit (!e.p1.isFree)

/-- The engine and place of a sector that takes a descriptor, if one is free. -/
def State.freePlace (s : State) (sec : Nat) : Option (Nat × Nat) :=
  let e := if (s.engine (2 * sec + 1)).active < (s.engine (2 * sec)).active then 2 * sec + 1 else 2 * sec
  let x := s.engine e
  if x.p0.isFree then some (e, 0) else if x.p1.isFree then some (e, 1) else none

/-- The place that holds a descriptor. -/
def State.placeOf (s : State) (f j id : Nat) : Option (Nat × Nat) :=
  (List.range 64).findSome? fun n =>
    if (s.place (n / 2) (n % 2)).desc = some (f, j, id) then some (n / 2, n % 2) else none

/-- The sector of an address as R248 names it: none for an unpopulated one. -/
def State.sectorAt (s : State) (a : Nat) : Option Nat :=
  match s.addrKind a with
  | .tier1 | .tier2 => some (s.homeSector a)
  | .spad t _ => some (sectorOfTile t)
  | _ => none

/-- The sector whose engine takes the descriptor; the lowest owned one where R248 names none. The first destination
byte of a multicast is that of its lowest-numbered member (DESIGN CHOICE, log 69). -/
def State.engineSector (s : State) (k : Nat) (d : Desc) : Nat :=
  let named :=
    if d.type = 3 then (if tfFirst d < 512 then some (sectorOfTile (tfFirst d)) else none)
    else if (s.addrKind (dmSrc d)).isTier then s.sectorAt (dmSrc d)
    else if dmStreamDst d && dmCast d == 0 then (windowTile (dmDst d)).map sectorOfTile
    else if dmCast d ≠ 0 then (castMembers (dmCast d) (dmSmask d) (dmImask d)).head?.map sectorOfTile
    else s.sectorAt (dmDst d)
  match named with
  | some n => if s.owns k n then n else (s.sectorsOf k).headD 0
  | none => (s.sectorsOf k).headD 0

/-- A waiting claim is withdrawn (04 R140). -/
def State.withdraw (s : State) (c : ClaimRef) : State :=
  s.modRegion c.tile c.region fun r =>
    { r with pWait := r.pWait.filter (·.id != c.id), cWait := r.cWait.filter (·.id != c.id) }

/-- Commit the claims of a place's row: also of one that an error stopped, once its requests have ended
(R254). -/
def State.endRow (s : State) (e i : Nat) : State :=
  let s := (s.place e i).claims.foldl State.finishClaim s
  s.modPlace e i fun p => { p with claims := [] }

/-- Withdraw the claim a place waits for. -/
def State.dropWaiting (s : State) (e i : Nat) : State :=
  match (s.place e i).waiting with
  | some c => (s.withdraw c).modPlace e i fun p => { p with waiting := none }
  | none => s

/-- Complete the descriptor of a place and free the place. -/
def State.endPlace (s : State) (e i : Nat) : State :=
  let s := (s.endRow e i).dropWaiting e i
  let p := s.place e i
  match p.desc with
  | none => s
  | some (f, j, id) =>
    match s.desc f j id with
    | none => s.modPlace e i fun _ => {}
    | some d =>
      (s.complete f j d p.status (min 0xFFFFFFFF p.written)).modPlace e i fun _ => {}

/-! ### Claims of a row (04 R135 to R138; 07 R251) -/

/-- Request the claim of a row if the place does not hold or await it; true when it is granted. -/
def State.rowClaim (s : State) (e i t region : Nat) (side : Side) (words : Nat) : Bool × State :=
  let p := s.place e i
  let held := p.claims.find? fun c => c.tile == t && c.region == region && c.side == side
  if held.isSome then (true, s)
  else
    let (ref, s) := match p.waiting with
      | some w => (w, s)
      | none => s.requestClaim t region side words (.engine e i)
    if (s.claimOf ref).isSome then
      (true, s.modPlace e i fun p => { p with claims := p.claims ++ [ref], waiting := none })
    else (false, s.modPlace e i fun p => { p with waiting := some ref })

/-- The row holds or awaits its claim, or its region can still take it. -/
def State.rowFits (s : State) (e i t region : Nat) (side : Side) (words : Nat) : Bool :=
  let p := s.place e i
  p.waiting.isSome || (p.claims.any fun c => c.tile == t && c.region == region && c.side == side)
    || s.streamFits t region words

/-- A claim that is refused ends the transfer with INVALID_ARG (04 R138; R253, R254). -/
def State.refuseRow (s : State) (e i : Nat) : State :=
  s.modPlace e i fun p => { p with status := worse p.status stInvalidArg, rowsDone := true }

/-- The claim of a row on a side. -/
def State.rowRef (s : State) (e i : Nat) (side : Side) : Option ClaimRef :=
  (s.place e i).claims.find? (·.side == side)

/-- Segments of a plain row. -/
def oneSeg (a n : Nat) : List (Nat × Nat) := [(a, n)]

/-- Do two lists of segments share a byte? -/
def segsMeet (xs ys : List (Nat × Nat)) : Bool :=
  xs.any fun p => ys.any fun q => decide (max p.1 q.1 < min (p.1 + p.2) (q.1 + q.2))

/-! ### DMA (07 R251) -/

/-- The destination segments of a row of the first target, and the distances to each target. -/
def State.dmaTargets (s : State) (e i : Nat) (d : Desc) (r : Nat) : List (Nat × Nat) × List Nat :=
  let n := dmRowBytes d
  if dmStreamDst d then
    (match s.rowRef e i .producer with
      | some c => s.claimSegs c
      | none => [], [0])
  else if dmCast d ≠ 0 then
    (oneSeg (spadBase + dmDst d % 2 ^ 22 + r * dmDstStride d) n,
      (castMembers (dmCast d) (dmSmask d) (dmImask d)).map (· * 0x400000))
  else (oneSeg (dmDst d + r * dmDstStride d) n, [0])

def State.dmaSource (s : State) (e i : Nat) (d : Desc) (r : Nat) : List (Nat × Nat) :=
  if dmStreamSrc d then
    match s.rowRef e i .consumer with
    | some c => s.claimSegs c
    | none => []
  else oneSeg (dmSrc d + r * dmSrcStride d) (dmRowBytes d)

/-- Do source and destination of a plain copy overlap (R253)? -/
def dmaOverlaps (d : Desc) : Bool :=
  let rows := List.range (dmRows d)
  let n := dmRowBytes d
  let dsts := if dmCast d = 0 then [dmDst d]
    else (castMembers (dmCast d) (dmSmask d) (dmImask d)).map fun t => spadAddr t (dmDst d % 2 ^ 22)
  !dmStreamSrc d && !dmStreamDst d && rows.any fun r => rows.any fun q =>
    segsMeet (oneSeg (dmSrc d + r * dmSrcStride d) n) (dsts.map fun a => (a + q * dmDstStride d, n))

/-- An overlapping copy leaves the destination rows it wrote unpredictable. -/
def State.dmaBlur (s : State) (d : Desc) (rows : Nat) : State :=
  let dsts := if dmCast d = 0 then [dmDst d]
    else (castMembers (dmCast d) (dmSmask d) (dmImask d)).map fun t => spadAddr t (dmDst d % 2 ^ 22)
  (List.range rows).foldl (fun s r => dsts.foldl (fun s a =>
    s.scrambleRange (a + r * dmDstStride d) (dmRowBytes d)) s) s

/-! ### TILEFEED (07 R252) -/

/-- The visits of the walk. -/
def tfVisits (d : Desc) : List (Nat × Nat) := walkSeq (tfWalk d) (tfMb d) (tfNb d)

/-- The block index i and the tile of a visit. -/
def tfBlock (d : Desc) (v : Nat) : Nat :=
  let p := (tfVisits d).getD v (0, 0)
  if tfRoleB d then p.2 else p.1
def tfTile (d : Desc) (v : Nat) : Nat := tfFirst d + v % max 1 (tfTiles d)

/-- The segments of sixteen source rows. -/
def tfSource (src stride n i : Nat) : List (Nat × Nat) :=
  (List.range 16).map fun r => (src + (16 * i + r) * stride, n)

/-- Has TAIL passed the strip of the visit two before on the same tile? -/
def State.scaleFree (s : State) (e i : Nat) (d : Desc) (v : Nat) : Bool :=
  decide (v < 2 * max 1 (tfTiles d)) ||
    match (s.place e i).strips.find? (·.1 == v - 2 * max 1 (tfTiles d)) with
    | some p => decide (p.2 ≤ (s.region (tfTile d v) (tfRegion d)).taken)
    | none => true

/-- The byte address in the tile's window of a visit's scale strip; a strip that does not lie in the
scratchpad is at no populated address of that window (01 R39). -/
def State.scaleAddr (s : State) (d : Desc) (v : Nat) : Nat :=
  let off := scaleStrip d (s.region (tfTile d v) (tfScaleRegion d)).base (v / max 1 (tfTiles d))
  if off + 16 * tfScaleRow d ≤ 0x300000 then off else 0x300000

/-! ### The current row or strip of a place -/

def isFeed (d : Desc) : Bool := d.type == 3

/-- The rows of a DMA, the visits of a TILEFEED. -/
def rowCount (d : Desc) : Nat := if isFeed d then tfMb d * tfNb d else dmRows d

/-- Bytes of a row, of an element strip. -/
def rowBytes (d : Desc) : Nat := if isFeed d then 16 * tfRowBytes d else dmRowBytes d

/-- Source and destination segments of the row or strip that is under way. A multicast's are those of
tile 0's window, whose offsets are the members'. -/
def State.jobSegs (s : State) (e i : Nat) (d : Desc) : List (Nat × Nat) × List (Nat × Nat) :=
  let p := s.place e i
  if isFeed d then
    match p.scaleDue with
    | some (v, _) =>
      (tfSource (tfScaleSrc d) (tfScaleStride d) (tfScaleRow d) (tfBlock d v),
        oneSeg (spadAddr (tfTile d v) (s.scaleAddr d v)) (16 * tfScaleRow d))
    | none =>
      (tfSource (tfSrc d) (tfSrcStride d) (tfRowBytes d) (tfBlock d p.row),
        match s.rowRef e i .producer with
        | some c => s.claimSegs c
        | none => [])
  else (s.dmaSource e i d p.row, (s.dmaTargets e i d p.row).1)

/-- The packets of the row or strip that is under way. -/
def State.jobPackets (s : State) (e i : Nat) (d : Desc) : List (Nat × Nat × Nat) :=
  let x := s.jobSegs e i d
  packets (2 * ((x.1.map (·.2)).sum + (x.2.map (·.2)).sum) + x.1.length + x.2.length) x.1 x.2

/-- Does the descriptor end with the row or strip that is under way? -/
def Place.lastRow (p : Place) (d : Desc) : Bool :=
  decide (p.row + 1 = rowCount d) && (!isFeed d || !tfMx d || p.scaleDue.isSome)

/-! ### Requests (R247, R249, R254; 06 R200, R218) -/

/-- Requests outstanding at an engine. -/
def Place.pendingReqs (p : Place) : Nat := p.reads.length + p.writes.length
def State.outstanding (s : State) (e : Nat) : Nat :=
  (s.place e 0).pendingReqs + (s.place e 1).pendingReqs

/-- An error that the engine sees: it issues nothing more (R254). -/
def State.failPlace (s : State) (e i st : Nat) : State :=
  s.modPlace e i fun p => { p with status := worse p.status st, rowsDone := p.rowsDone || st != stOk }

/-- The context's transfers have moved bytes (05 R184). -/
def State.moved (s : State) (k : Nat) : State := s.modCtx k fun c => { c with progressed := true }

/-- The members that a WRITE of the descriptor reaches, and its multicast fields. -/
def castOf (d : Desc) : Nat := if isFeed d then 0 else dmCast d
def writeMembers (d : Desc) : Nat :=
  if castOf d = 0 then 1 else (castMembers (dmCast d) (dmSmask d) (dmImask d)).length

/-- The route word to a device address of a tile or a tier (06 R198). -/
def State.routeAddr (s : State) (a k : Nat) : RouteWord :=
  match s.addrKind a with
  | .spad t _ => s.routeTo t k
  | _ => s.routePort (s.homeSector a) (portOf a) k

/-- The tile of the sector store port at which an engine injects (R247): of its two ports, by the slot of a read or
by ADDR[9] of a destination (DESIGN CHOICE, log 69). -/
def enginePort (e x : Nat) : Nat := portTile (e / 2) (2 * (e % 2) + x % 2)

/-- The WRITE packet of an engine: RADDR in its staging half asks for an acknowledgement. -/
def State.writePacket (s : State) (k e i : Nat) (d : Desc) (a : Nat) (bs : List Byte) (poisoned : Bool)
    (n : Nat) (last : Bool) : BulkPacket :=
  { route := s.routeAddr a k, kind := 0, nflits := BitVec.ofNat 4 ((bs.length + 63) / 64)
    bytes := BitVec.ofNat 10 n, last, status := if poisoned then 1 else 0
    cast := BitVec.ofNat 2 (castOf d), bcnt := BitVec.ofNat 6 (if isFeed d then tfBcnt d else dmBcnt d)
    addr := BitVec.ofNat 48 a, raddr := BitVec.ofNat 48 (stagingAddr e i)
    smask := if castOf d = 0 then 0 else BitVec.ofNat 16 (dmSmask d)
    imask := if castOf d = 0 then 0 else BitVec.ofNat 32 (dmImask d), data := bs }

/-- Send the bytes of one packet on: into the own store directly, else by a WRITE. -/
def State.engineSend (s : State) (k e i : Nat) (d : Desc) (a : Nat) (bs : List Byte) (poisoned : Bool)
    (n : Nat) (last : Bool) : State :=
  let s := s.moved k
  let bs := if poisoned then [] else bs
  if castOf d = 0 && s.isLocal e a then
    let (st, s) := s.engineWrite k a 0 bs poisoned n
    (s.modPlace e i fun p =>
      if st = stOk then { p with written := p.written + n, rowWritten := p.rowWritten + n } else p).failPlace e i
        st
  else
    (s.post .bulk (enginePort e (a / 512)) (.bulk (s.writePacket k e i d a bs poisoned n last)) 2).modPlace e i
      fun p => { p with writes := p.writes ++ [writeMembers d], unacked := p.unacked + n * writeMembers d }

/-- The lowest free 512 bytes of a place's staging half. -/
def Place.freeSlot (p : Place) : Nat :=
  ((List.range 65).find? fun j => !(p.reads.any (·.slot == j))).getD 64

/-- Read a packet's bytes: from the own store directly, else by a READ_REQ. A poisoned packet goes on as a
POISONED WRITE before the engine stops (07 R242, R254). -/
def State.engineIssue (s : State) (k e i : Nat) (d : Desc) (q : Nat × Nat × Nat) (last : Bool) : State :=
  let (a, b, n) := q
  if s.isLocal e a then
    let (rs, bs) := s.engineRead k a n
    if rs ≠ stOk ∧ rs ≠ stPoisoned then s.failPlace e i rs
    else ((s.touch a n false).engineSend k e i d b bs (rs == stPoisoned) n last).failPlace e i rs
  else
    let j := (s.place e i).freeSlot
    let ra := stagingAddr e i + 512 * j
    (s.post .bulk (enginePort e j) (.bulk
      { route := s.routeAddr a k, kind := 1, bytes := BitVec.ofNat 10 n, last, addr := BitVec.ofNat 48 a
        raddr := BitVec.ofNat 48 ra }) 2).modPlace e i fun p =>
      { p with reads := p.reads ++ [⟨j, b, n, last⟩] }

/-! ### Rows (R251, R252) -/

/-- Ready the row or strip that comes next: its claims are granted, its scale slot is free. -/
def State.readyRow (s : State) (e i : Nat) (d : Desc) : Bool × State :=
  let p := s.place e i
  if rowCount d ≤ p.row then (false, s.modPlace e i fun p => { p with rowsDone := true })
  else if isFeed d then
    match p.scaleDue with
    | some (v, _) => (s.scaleFree e i d v, s)
    | none =>
      let t := tfTile d p.row
      let words := 4 * tfRowBytes d
      if !s.rowFits e i t (tfRegion d) .producer words then (false, s.refuseRow e i)
      else s.rowClaim e i t (tfRegion d) .producer words
  else
    let words := dmRowBytes d / 4
    let ts := (windowTile (dmSrc d)).getD 0
    let td := (windowTile (dmDst d)).getD 0
    if dmStreamSrc d && !s.rowFits e i ts (dmSrcRegion d) .consumer words then (false, s.refuseRow e i)
    else
      let (ok, s) := if dmStreamSrc d then s.rowClaim e i ts (dmSrcRegion d) .consumer words else (true, s)
      if !ok then (false, s)
      else if !dmStreamDst d then (true, s)
      else if !s.rowFits e i td (dmDstRegion d) .producer words then (false, s.refuseRow e i)
      else s.rowClaim e i td (dmDstRegion d) .producer words

/-- A streamed row whose claims overlap leaves its destination unpredictable (R253). -/
def State.blurRow (s : State) (e i : Nat) (d : Desc) : State :=
  let x := s.jobSegs e i d
  if !isFeed d && (dmStreamSrc d || dmStreamDst d) && segsMeet x.1 x.2 then
    x.2.foldl (fun s g => if g.2 = 0 then s else s.scrambleRange g.1 g.2) s
  else s

/-- The row or strip has ended: its claims commit. After an element strip with scales its scale strip is
due; TAIL will have passed the strip when it has passed all that lies before its end. -/
def State.rowEnds (s : State) (e i : Nat) (d : Desc) : State :=
  let p := s.place e i
  let next := fun (s : State) => s.modPlace e i fun p =>
    { p with row := p.row + 1, pkt := 0, rowWritten := 0, scaleDue := none }
  if !isFeed d then next ((s.blurRow e i d).endRow e i)
  else if p.scaleDue.isSome then next s
  else
    let c := (s.rowRef e i .producer).bind s.claimOf
    let r := s.region (tfTile d p.row) (tfRegion d)
    let start := (c.map (·.start)).getD {}
    let past := r.taken + fill r.size start r.tail + 4 * tfRowBytes d
    let s := (s.endRow e i).modPlace e i fun q => { q with strips := q.strips ++ [(p.row, past)] }
    if tfMx d then
      s.modPlace e i fun q => { q with scaleDue := some (p.row, start), pkt := 0, rowWritten := 0 }
    else next s

/-- Issue requests as far as claims and the 64 outstanding requests allow, with fuel. -/
def State.pump (k e i : Nat) (d : Desc) : Nat → State → State
  | 0, s => s
  | fuel + 1, s =>
    let p := s.place e i
    if p.desc.isNone ∨ p.paused ∨ p.rowsDone then s
    else
      let (ok, s) := s.readyRow e i d
      if !ok then s
      else
        let qs := s.jobPackets e i d
        match qs[p.pkt]? with
        | some q =>
          if 64 ≤ s.outstanding e then s
          else
            let last := (s.place e i).lastRow d && decide (p.pkt + 1 = qs.length)
            let s := s.modPlace e i fun p => { p with pkt := p.pkt + 1 }
            State.pump k e i d fuel (s.engineIssue k e i d q last)
        | none =>
          if (s.place e i).pendingReqs ≠ 0 then s else State.pump k e i d fuel (s.rowEnds e i d)

/-- A descriptor that issues nothing more and whose requests have all ended completes (R254). -/
def State.tryComplete (s : State) (e i : Nat) (d : Desc) : State :=
  let p := s.place e i
  if p.desc.isSome ∧ p.rowsDone ∧ p.pendingReqs = 0 ∧ p.readAcks = 0 ∧ !p.paused then
    let s := if !isFeed d && dmaOverlaps d then s.dmaBlur d (min (dmRows d) (p.row + 1)) else s
    s.endPlace e i
  else s

/-- Carry a descriptor on. Each turn of `pump` issues a packet or ends a row, so the fuel suffices. -/
def State.runPlace (s : State) (k e i : Nat) (d : Desc) : State :=
  (State.pump k e i d (rowCount d * (2 * (2 * rowBytes d + 32 * tfScaleRow d) + 80) + 2) s).tryComplete e i d

/-- The descriptor at a place, with its context. -/
def State.placeDesc (s : State) (e i : Nat) : Option (Nat × Desc) :=
  match (s.place e i).desc with
  | none => none
  | some (f, j, id) => (s.desc f j id).map fun d => ((s.queue f j).ctx, d)

/-- Carry on what is at a place. -/
def State.carryOn (s : State) (e i : Nat) : State :=
  match s.placeDesc e i with
  | some (k, d) => s.runPlace k e i d
  | none => s

/-! ### Responses and refusals (R249, R250, R254, R255; 06 R199) -/

/-- A READ_RSP written in a staging window: the bytes go on. While the descriptor is paused, or once an
error is seen, they go nowhere. -/
def State.engineRsp (s : State) (a : Nat) (status : BitVec 2) (bs : List Byte) : State :=
  let (e, i) := stagingPlace a
  let slot := (a - stagingBase) % 0x80000 / 512
  match (s.place e i).reads.find? (·.slot == slot), s.placeDesc e i with
  | some r, some (k, d) =>
    let s := s.modPlace e i fun p => { p with reads := p.reads.filter (·.slot != slot), redo := p.redo || p.paused }
    if (s.place e i).paused then s
    else
      let s :=
        if (s.place e i).status ≠ stOk then s
        else if status = 2 then s.failPlace e i stFenced
        else if status = 0 then s.engineSend k e i d r.dst bs false r.bytes r.last
        else (s.engineSend k e i d r.dst [] true r.bytes r.last).failPlace e i stPoisoned
      s.runPlace k e i d
  | _, _ => s

/-- The engine that issued a refused WRITE, READ_REQ or ATOMIC_REQ sees INVALID_ARG (06 R199; R237). -/
def State.engineRefused (s : State) (b : BulkPacket) : State :=
  let a := b.raddr.toNat
  if 2 ≤ b.kind.toNat ∧ b.kind ≠ 3 ∨ !inStaging a then s
  else
    let (e, i) := stagingPlace a
    let slot := (a - stagingBase) % 0x80000 / 512
    let members := if b.cast = 0 then 1 else (castMembers b.cast.toNat b.smask.toNat b.imask.toNat).length
    if (s.place e i).desc.isNone then s
    else
      let s := (s.modPlace e i fun p =>
        if b.kind = 1 then { p with reads := p.reads.filter (·.slot != slot) }
        else if b.kind = 0 then
          { p with writes := p.writes.erase members, unacked := p.unacked - b.bytes.toNat * members }
        else p).failPlace e i stInvalidArg
      s.carryOn e i

/-! ### The commands -/

def State.engineOk (s : State) (k : Nat) (d : Desc) : Bool := if isFeed d then s.feedOk k d else s.dmaOk k d

/-- Zero work (R12, R264). -/
def engineIdle (d : Desc) : Bool :=
  if isFeed d then tfRowBytes d == 0 || tfMb d == 0 || tfNb d == 0 || tfTiles d == 0
  else dmRowBytes d == 0 || dmRows d == 0
    || (dmCast d != 0 && (castMembers (dmCast d) (dmSmask d) (dmImask d)).isEmpty)

/-- A DMA or TILEFEED descriptor of a queue: dispatched to an engine and checked, or carried on. -/
def State.engineDesc (s : State) (f j id type : Nat) : State :=
  let q := s.queue f j
  match s.desc f j id with
  | none => s
  | some d =>
    if d.type ≠ type ∨ (s.ctx q.ctx).st = .drained then s
    else if d.dispatched then
      match s.placeOf f j id with
      | some (e, i) => s.runPlace q.ctx e i d
      | none => s
    else if !q.reaches id then s
    else match s.freePlace (s.engineSector q.ctx d) with
      | none => s
      | some (e, i) =>
        let s := s.dispatch f j id
        let d := { d with dispatched := true, tStart := s.deviceTime }
        if !s.engineOk q.ctx d then s.completeNow f j d stInvalidArg
        else if engineIdle d then s.completeNow f j d stOk
        else (s.modPlace e i fun _ => { desc := some (f, j, id) }).runPlace q.ctx e i d

/-- DMA (07 R251 to R254). -/
def execDma (f : FnId) (slot : SlotId) (id : Nat) (s : State) : Answer := .next (s.engineDesc f slot id 2)

/-- TILEFEED (07 R252 to R254). -/
def execTilefeed (f : FnId) (slot : SlotId) (id : Nat) (s : State) : Answer :=
  .next (s.engineDesc f slot id 3)

/-- TILEFEED_SCALE_WRITE (07 R252): the scale strip that waits for its slot. -/
def execTilefeedScaleWrite (e : EngineId) (place : Fin 2) (s : State) : Answer :=
  .next (if (s.place e place).scaleDue.isSome then s.carryOn e place else s)

/-- The bytes and the status of an ACK (07 Table 7.5). -/
def ackBytes (h : Nat) : Nat := bits h 22 16 + 128 * bits h 23 23 + 256 * bits h 25 24

/-- One acknowledgement fewer is due, of the oldest WRITE (DEDUCED, log 27: an ACK names no WRITE). -/
def ackOne : List Nat → List Nat
  | [] => []
  | n :: ns => if 2 ≤ n then (n - 1) :: ns else ns

/-- An acknowledgement at a place: of a refused READ_REQ if one is due, else of a WRITE. -/
def Place.acked (p : Place) (bytes st : Nat) : Place :=
  if st = stInvalidArg ∧ p.readAcks ≠ 0 then { p with readAcks := p.readAcks - 1 }
  else
    let p := { p with unacked := p.unacked - bytes, writes := ackOne p.writes }
    if st = stOk then { p with written := p.written + bytes, rowWritten := p.rowWritten + bytes } else p

/-- DMA_ACK (07 R250, R254): bytes are acknowledged with a status. -/
def execDmaAck (p : CtlPacket) (s : State) : Answer :=
  let h := p.header.toNat
  let e := bits h 14 10
  let i := bits h 15 15
  let s := s.takeCtl p
  .next (if s.fate p.route ≠ .deliver ∨ hdrKind p ≠ 5 ∨ bits h 9 7 ≠ 0 ∨ (s.place e i).desc.isNone then s
    else ((s.modPlace e i fun x => x.acked (ackBytes h) (bits h 29 26)).failPlace e i (bits h 29 26)).carryOn e i)

/-! ### Pause and resume (R255) -/

/-- A paused descriptor whose requests have ended: a row that is not wholly acknowledged is done again. -/
def State.parkPlace (s : State) (e i : Nat) : State :=
  match s.placeDesc e i with
  | none => s
  | some (_, d) =>
    let whole := !(s.place e i).redo && decide ((s.jobPackets e i d).length ≤ (s.place e i).pkt)
    s.modPlace e i fun p =>
      let p := { p with redo := false, reads := [], writes := [], readAcks := 0, unacked := 0 }
      if whole then p else { p with pkt := 0, written := p.written - p.rowWritten, rowWritten := 0 }

end Sys2Proof.Machine
end

