-- ==== Sys2Proof/Machine/Atomics.lean ====
section
/-! DEFINITION. Atomics at the sector stores, the atomic units of the cores and the leased work
counter (07 R256 to R263). -/
namespace Sys2Proof.Machine

/-! ### Operations at the home sector store (Table 7.8) -/

/-- A little-endian word of tier memory. -/
def State.tierNat (s : State) (a n : Nat) : Nat := leVal (s.readTier a n)
def State.setTierNat (s : State) (a n v : Nat) : State := (s.writeTier a (leBytes n v)).touch a n true

/-- The new value of a word of `n` bytes under OP 0 to 5. -/
def atomNew (op n old a b : Nat) : Nat :=
  let a := a % 2 ^ (8 * n)
  let b := b % 2 ^ (8 * n)
  match op with
  | 0 => (old + a) % 2 ^ (8 * n)
  | 1 => if old = a then b else old
  | 2 => if signed (8 * n) a < signed (8 * n) old then a else old
  | 3 => if signed (8 * n) old < signed (8 * n) a then a else old
  | 4 => min old a
  | _ => max old a

/-- The outcome of an atomic: status, result and state. -/
structure AtomOut where
  status : Nat
  res : Nat := 0
  st : State

/-- An item record (Table 7.10): COMMITTED and the expiry of its lease. -/
def recCommitted (r : Nat) : Bool := r / 2 ^ 63 == 1
def recExpiry (r : Nat) : Nat := r % 2 ^ 63

/-- The address of item record i of the object at `a`. -/
def State.itemAt (s : State) (a i : Nat) : Nat := s.tierNat (a + 0x10) 8 + 8 * i
def State.item (s : State) (a i : Nat) : Nat := s.tierNat (s.itemAt a i) 8
def State.setExpiry (s : State) (a i : Nat) : State :=
  let now := s.deviceTime.toNat + 1000 * s.tierNat (a + 8) 4
  s.setTierNat (s.itemAt a i) 8 (s.item a i / 2 ^ 63 * 2 ^ 63 + now % 2 ^ 63)

/-- R262: the object and every item record are homed to the context on one sector, under GLOBAL
mode in one 2 KiB piece. Records at a STATE_BASE that is not 8-byte aligned are refused like the unaligned atomics
of R256 (DESIGN CHOICE, log 69). -/
def State.counterOk (s : State) (k a : Nat) : Bool :=
  let base := s.itemAt a 0
  let n := 8 * s.tierNat (a + 4) 4
  n == 0 || (base % 8 == 0 && (s.addrKind base).isTier && (s.addrKind (base + n - 1)).isTier
    && s.homeSector base == s.homeSector a
    && (if s.isGlobal a || s.isGlobal base then a / 2048 == base / 2048 && a / 2048 == (base + n - 1) / 2048
        else s.homeSector (base + n - 1) == s.homeSector a)
    && s.allHomed k base n)

/-- The lowest item not seen committed, passing at most `n` items. -/
def State.passCommitted (s : State) (a limit : Nat) : Nat → Nat → Nat
  | 0, o => o
  | n + 1, o => if o < limit ∧ recCommitted (s.item a o) then s.passCommitted a limit n (o + 1) else o

/-- Item records that a CLAIM or COMMIT reads have their lines in the sector store (R240). -/
def State.readItems (s : State) (a : Nat) (js : List Nat) : State :=
  js.foldl (fun t j => t.touch (s.itemAt a j) 8 false) s

/-- R261: CLAIM. The items it reads are `reads`; one on a poisoned line stops it (R256). -/
def State.claimItem (s : State) (a : Nat) : AtomOut :=
  let next := s.tierNat a 4
  let limit := s.tierNat (a + 4) 4
  if next < limit then
    if s.isPoisoned (s.itemAt a next) 8 then { status := stPoisoned, st := s }
    else { status := stOk, res := next, st := (s.setTierNat a 4 (next + 1)).setExpiry a next }
  else
    let first := s.tierNat (a + 0xC) 4
    let oldest := s.passCommitted a limit 64 first
    let window := (List.range (min (oldest + 64) limit - oldest)).map (oldest + ·)
    let hit := window.find? fun j =>
      s.isPoisoned (s.itemAt a j) 8
        || (!recCommitted (s.item a j) && decide (recExpiry (s.item a j) ≤ s.deviceTime.toNat))
    let seen := (List.range (min (oldest + 1) limit - first)).map (first + ·)
    let bad := (seen.any fun j => s.isPoisoned (s.itemAt a j) 8)
      || (match hit with
          | some j => s.isPoisoned (s.itemAt a j) 8
          | none => false)
    if bad then { status := stPoisoned, st := s }
    else
      let passed := window.takeWhile fun j => hit != some j
      let t := (s.readItems a (seen ++ passed ++ hit.toList)).setTierNat (a + 0xC) 4 oldest
      if oldest = limit then { status := stOk, res := 2 ^ 62, st := t }
      else match hit with
        | some j =>
          { status := stOk, res := j + 2 ^ 32
            st := (t.setExpiry a j).setTierNat (a + 0x18) 4 (satAdd 0xFFFFFFFF (s.tierNat (a + 0x18) 4) 1) }
        | none => { status := stOk, res := 2 ^ 63, st := t }

/-- R261: COMMIT of item i. -/
def State.commitItem (s : State) (a i : Nat) : AtomOut :=
  if s.tierNat (a + 4) 4 ≤ i then { status := stInvalidArg, st := s }
  else if s.isPoisoned (s.itemAt a i) 8 then { status := stPoisoned, st := s }
  else if recCommitted (s.item a i) then
    { status := stOk, res := 1
      st := (s.readItems a [i]).setTierNat (a + 0x1C) 4 (satAdd 0xFFFFFFFF (s.tierNat (a + 0x1C) 4) 1) }
  else { status := stOk, res := 0, st := s.setTierNat (s.itemAt a i) 8 (s.item a i + 2 ^ 63) }

/-- An atomic at its home sector store. -/
def State.atomic (s : State) (k a op : Nat) (wide : Bool) (opA opB : Nat) : AtomOut :=
  let n := if op < 6 then (if wide then 8 else 4) else 64
  if !(s.addrKind a).isTier || a % n ≠ 0 || (6 ≤ op && !wide) then { status := stInvalidArg, st := s }
  else if !s.allHomed k a n then { status := stInvalidArg, st := s }
  else if s.isPoisoned a n then { status := stPoisoned, st := s }
  else if op < 6 then
    let old := s.tierNat a n
    { status := stOk, res := old, st := s.setTierNat a n (atomNew op n old opA opB) }
  else if !s.counterOk k a then { status := stInvalidArg, st := s }
  else if op = 6 then (s.touch a n false).claimItem a
  else (s.touch a n false).commitItem a opA

/-- The result that an atomic of status other than OK answers is stated nowhere: a free value (log 28). -/
def AtomOut.settle (o : AtomOut) : Nat × DWord × State :=
  if o.status = stOk then (o.status, BitVec.ofNat 64 o.res, o.st)
  else
    let (n, s) := o.st.fresh
    (o.status, Config.free 64 n, s)

/-! ### Requests of cores (R257, R260, Table 7.5) -/

def rqCore (h : Nat) : Nat := bits h 14 10 + 32 * bits h 22 15
def rqTgl (h : Nat) : Bool := bits h 23 23 == 1
def rqAddr (p : CtlPacket) : Nat :=
  bits p.header.toNat 47 24 * 8 + bits p.tag.toNat 13 0 * 2 ^ 27

/-- The header of a core's atomic request. -/
def atomHeader (sub core : Nat) (tgl : Bool) (addr : Nat) : Nat :=
  5 * 2 ^ 4 + sub * 2 ^ 7 + (core % 32) * 2 ^ 10 + (core / 32) * 2 ^ 15 + bit tgl * 2 ^ 23
    + bits addr 26 3 * 2 ^ 24

/-- Post an ATOM_RSP to a core. -/
def State.postAtomRsp (s : State) (at_ k core : Nat) (tgl : Bool) (status : Nat) (res : DWord) : State :=
  let header := core % 16 + 5 * 2 ^ 4 + 3 * 2 ^ 7 + (core % 32) * 2 ^ 10 + (core / 32) * 2 ^ 15
    + bit tgl * 2 ^ 23 + status * 2 ^ 24
  s.post .control at_ (.control
    { route := s.routeTo (tileOf core) k, header := BitVec.ofNat 48 header
      word0 := res.setWidth 32, word1 := (res >>> 32).setWidth 32 }) 2

/-- A request of a core at its home sector store: answered from the replay cache, or applied. A
stale request is not applied and is not answered (DEDUCED, log 28). -/
def State.coreAtomic (s : State) (p : CtlPacket) (op : Nat) (wide : Bool) (addr opA opB : Nat)
    (bad : Bool) : State :=
  let h := p.header.toNat
  let core := rqCore h
  let k := p.route.ctx.toNat
  let sec := sectorOfTile p.route.destTile.toNat
  let at_ := portTile sec 0
  match s.fate p.route with
  | .fenced =>
    let (_, res, s) := AtomOut.settle { status := stFenced, st := s }
    s.postAtomRsp at_ k core (rqTgl h) stFenced res
  | .wrongOwner | .stale => s
  | .deliver =>
    match s.replay.find? (fun r => r.1 == sec * 8192 + core && r.2.tgl == rqTgl h) with
    | some r => s.postAtomRsp at_ k core (rqTgl h) r.2.status.toNat r.2.res
    | none =>
      let (st, res, t) :=
        (if bad then { status := stInvalidArg, st := s } else s.atomic k addr op wide opA opB).settle
      let t := { t with replay := Tab.set t.replay (sec * 8192 + core) ⟨rqTgl h, res, BitVec.ofNat 4 st⟩ }
      t.postAtomRsp at_ k core (rqTgl h) st res

/-- ATOM_REQ (07 R256, R257, R260, Table 7.5). -/
def execAtomReq (p : CtlPacket) (s : State) : Answer :=
  let w := p.word3.toNat
  let wide := bits w 3 3 == 1
  let half := bits w 4 4
  let s := s.takeCtl p
  .next (if hdrKind p ≠ 5 ∨ bits p.header.toNat 9 7 ≠ 1 then s
    else s.coreAtomic p (w % 8) wide (rqAddr p + 4 * half) (p.word0.toNat + 2 ^ 32 * p.word1.toNat)
      p.word2.toNat (wide && half == 1))

/-- ATOM_CAS64 (07 R257, Table 7.5). -/
def execAtomCas64 (p : CtlPacket) (s : State) : Answer :=
  let s := s.takeCtl p
  .next (if hdrKind p ≠ 5 ∨ bits p.header.toNat 9 7 ≠ 2 then s
    else s.coreAtomic p 1 true (rqAddr p) (p.word0.toNat + 2 ^ 32 * p.word1.toNat)
      (p.word2.toNat + 2 ^ 32 * p.word3.toNat) false)

/-! ### Requests of engines (R257) -/

/-- Two bulk packets are one packet: the route word's counts apart. -/
def sameBulk (p q : BulkPacket) : Bool :=
  p.kind == q.kind && p.addr == q.addr && p.raddr == q.raddr && p.data == q.data
    && p.bytes == q.bytes && p.route.ctx == q.route.ctx && p.route.gen == q.route.gen

def isBulk (p : BulkPacket) (x : Transit) : Bool :=
  match x.pkt with
  | .bulk q => sameBulk p q
  | .control _ => false

/-- A bulk packet reaches its receiver and leaves the network (log 21). -/
def State.takeBulk (s : State) (p : BulkPacket) : State :=
  s.modNet fun x =>
    match x.ejectedBulk.findIdx? (sameBulk p) with
    | some i => { x with ejectedBulk := x.ejectedBulk.eraseIdx i }
    | none => match x.slots.findIdx? (isBulk p) with
      | some i => { x with slots := x.slots.eraseIdx i }
      | none => match x.sources.findIdx? (isBulk p) with
        | some i => { x with sources := x.sources.eraseIdx i }
        | none => x

/-- The answer of an ATOMIC_REQ: ATOMIC_RSP, and for a refusal an ACK of INVALID_ARG (R250). -/
def State.postAtomicRsp (s : State) (at_ k : Nat) (p : BulkPacket) (st : Nat) (res : DWord) : State :=
  let ra := p.raddr.toNat
  let e := (ra - stagingBase) / 0x100000
  let data := if st = stOk then leBytes 8 res.toNat else []
  let s := s.post .bulk at_ (.bulk
    { route := s.routePort (e / 2) (2 * (e % 2) + bits ra 9 9) k, kind := 4
      nflits := BitVec.ofNat 4 ((data.length + 63) / 64), bytes := 8, last := true, status := bulkStatus st
      bcnt := p.rbcnt, addr := p.raddr, data }) 2
  if st = stInvalidArg then s.postAck at_ k e (bits (ra - stagingBase) 19 19) 8 stInvalidArg 2 else s

/-- ATOMIC_REQ (07 R256, R257): an engine's atomic at a sector store port. One whose data flit took an
uncorrectable error comes with STATUS POISONED (06 R216), and its operands are not to be had: it is answered INVALID_ARG
(DESIGN CHOICE, log 69). -/
def execAtomicReq (p : BulkPacket) (s : State) : Answer :=
  let s := s.takeBulk p
  let k := p.route.ctx.toNat
  let a := p.addr.toNat
  let at_ := portTile (sectorOfTile p.route.destTile.toNat) (portOf a)
  let w := field p.data 0 8
  .next (if p.kind ≠ 3 then s
    else match s.fate p.route with
      | .fenced => s.postAtomicRsp at_ k p stFenced 0
      | .wrongOwner => s
      | .stale => s.postAtomicRsp at_ k p stPoisoned 0
      | .deliver =>
        let bad := p.status ≠ 0 ∨ p.nflits ≠ 1 ∨ p.bytes ≠ 24 ∨ p.data.length ≠ 24 ∨ w / 16 ≠ 0
        let (st, res, s) := (if bad then { status := stInvalidArg, st := s }
          else s.atomic k a (w % 8) (bits w 3 3 == 1) (field p.data 8 8) (field p.data 16 8)).settle
        s.postAtomicRsp at_ k p st res)

/-! ### The core's atomic unit (Table 7.9, R258, R259) -/

def Core.modAtom (x : Core) (f : AtomUnit → AtomUnit) : Core := { x with atom := f x.atom }

/-- Send the last request of a core's unit (Table 7.5). -/
def State.sendAtom (s : State) (c : Nat) (q : AtomLast) : State :=
  let sec := s.homeSector q.addr.toNat
  let k := (s.ownerOfCore c).getD 0
  let cas64 := q.op == 1 && q.size
  let lo := fun (v : DWord) => v.setWidth 32
  let hi := fun (v : DWord) => (v >>> 32).setWidth 32
  let word3 : Word := BitVec.ofNat 32 (q.op.toNat + 8 * bit q.size
    + 16 * bit (!q.size && q.addr.getLsbD 2))
  let pkt : CtlPacket :=
    { route := s.routePort sec 0 k
      header := BitVec.ofNat 48 (atomHeader (if cas64 then 2 else 1) c q.tgl q.addr.toNat)
      tag := BitVec.ofNat 16 (bits q.addr.toNat 40 27)
      word0 := lo q.opA, word1 := if q.size then hi q.opA else 0
      word2 := lo q.opB, word3 := if cas64 then hi q.opB else word3 }
  s.post .control (s.transOf (tileOf c)).phys (.control pkt)

/-- The unit answers INVALID_ARG itself when the address is aligned to no word or homed on no
sector of the context: the request is refused at the source (06 R199), its toggle stays and its
result is stated nowhere (DEDUCED, log 28). -/
def State.atomRefused (s : State) (c : Nat) (u : AtomUnit) (size : Bool) : Bool :=
  let a := u.addr.toNat
  !(s.addrKind a).isTier || a % (if size then 8 else 4) != 0
    || s.owner (s.homeSector a) != s.ownerOfCore c || (s.ownerOfCore c).isNone

/-- Perform a store to TIL_ATOM_CMD with BUSY clear. A request refused at its source is not sent: the last request
that RETRY reissues stays the one before (DESIGN CHOICE, log 69). -/
def State.issueAtom (s : State) (c : Nat) (v : Word) : State :=
  let u := (s.core c).atom
  if v.getLsbD 4 then
    match u.last with
    | none => s.modCore c (·.modAtom fun u => { u with status := BitVec.ofNat 4 stInvalidArg })
    | some q => (s.modCore c (·.modAtom fun u => { u with busy := true, tries := 0 })).sendAtom c q
  else
    let size := v.getLsbD 3
    if s.atomRefused c u size then
      let (n, s) := s.fresh
      s.modCore c (·.modAtom fun u =>
        { u with status := BitVec.ofNat 4 stInvalidArg, res := Config.free 64 n, tries := 0 })
    else
      let sec := s.homeSector u.addr.toNat
      let tgl := !u.toggles.getLsbD sec
      let q : AtomLast := ⟨v.setWidth 3, size, u.addr, u.opA, u.opB, tgl⟩
      (s.modCore c (·.modAtom fun u =>
        { u with busy := true, tries := 0, last := some q, toggles := u.toggles ^^^ oneBit 16 sec })).sendAtom
          c q

/-- A core's store to TIL_ATOM_CMD: held while BUSY. -/
def State.atomCmd (s : State) (a : At) (v : Word) : State :=
  let x := s.core a.core
  if !x.canIssue then s
  else if x.atom.busy then s.modCore a.core (·.hold a.pc a.short (.atomCmd v))
  else (s.issueAtom a.core v).modCore a.core (·.advance a.pc a.short)

/-- The store of a row: its OP is the row's, and RETRY is clear. -/
def State.atomOp (s : State) (a : At) (op : Nat) (v : Word) : State :=
  if v.toNat % 8 = op ∧ !v.getLsbD 4 then s.atomCmd a v else s

/-- What waits for BUSY to clear goes on. -/
def State.wakeAtom (s : State) (c : Nat) : State :=
  let x := s.core c
  if x.run ≠ .running ∨ x.atom.busy then s
  else match x.wait with
    | some (.atomCmd v) => (s.issueAtom c v).modCore c Core.release
    | some (.atomRes rd) => s.setCore c (x.setReg rd (x.atom.res.setWidth 32)).release
    | _ => s

/-- ATOM_FADD (07 R256, R258). -/
def execAtomFadd (a : At) (v : Word) (s : State) : Answer := .next (s.atomOp a 0 v)
/-- ATOM_CSWAP (07 R256, R258). -/
def execAtomCswap (a : At) (v : Word) (s : State) : Answer := .next (s.atomOp a 1 v)
/-- ATOM_SMIN (07 R256, R258). -/
def execAtomSmin (a : At) (v : Word) (s : State) : Answer := .next (s.atomOp a 2 v)
/-- ATOM_SMAX (07 R256, R258). -/
def execAtomSmax (a : At) (v : Word) (s : State) : Answer := .next (s.atomOp a 3 v)
/-- ATOM_UMIN (07 R256, R258). -/
def execAtomUmin (a : At) (v : Word) (s : State) : Answer := .next (s.atomOp a 4 v)
/-- ATOM_UMAX (07 R256, R258). -/
def execAtomUmax (a : At) (v : Word) (s : State) : Answer := .next (s.atomOp a 5 v)
/-- ATOM_CLAIM (07 R258, R261). -/
def execAtomClaim (a : At) (v : Word) (s : State) : Answer := .next (s.atomOp a 6 v)
/-- ATOM_COMMIT (07 R258, R261). -/
def execAtomCommit (a : At) (v : Word) (s : State) : Answer := .next (s.atomOp a 7 v)

/-- ATOM_RETRY (07 R259). -/
def execAtomRetry (a : At) (v : Word) (s : State) : Answer :=
  .next (if v.getLsbD 4 then s.atomCmd a v else s)

/-- ATOM_RSP (07 R258): the response of the outstanding request. -/
def execAtomRsp (p : CtlPacket) (s : State) : Answer :=
  let h := p.header.toNat
  let c := rqCore h
  let s := s.takeCtl p
  let u := (s.core c).atom
  .next (if s.fate p.route ≠ .deliver ∨ hdrKind p ≠ 5 ∨ bits h 9 7 ≠ 3 ∨ !u.busy
      ∨ (u.last.map (·.tgl)) ≠ some (rqTgl h) then s
    else (s.modCore c (·.modAtom fun u =>
      { u with busy := false, status := BitVec.ofNat 4 (bits h 27 24)
               res := (p.word1 ++ p.word0 : BitVec 64) })).wakeAtom c)

/-- ATOM_REISSUE_TIMEOUT (07 R259): 20 µs without a response; three reissues, then TIMEOUT. -/
def execAtomReissueTimeout (c : CoreId) (s : State) : Answer :=
  let u := (s.core c).atom
  .next (match u.last with
    | none => s
    | some q =>
      if !u.busy then s
      else if u.tries < 3 then
        (s.modCore c (·.modAtom fun u => { u with tries := u.tries + 1 })).sendAtom c q
      else (s.modCore c (·.modAtom fun u =>
        { u with busy := false, status := BitVec.ofNat 4 stTimeout })).wakeAtom c)

/-- TIL_ATOM_RES_LO_LOAD (07 R258): held while BUSY. -/
def execTilAtomResLoLoad (a : At) (rd : XReg) (s : State) : Answer :=
  let x := s.core a.core
  .next (if !x.canIssue then s
    else if x.atom.busy then s.modCore a.core (·.hold a.pc a.short (.atomRes rd))
    else s.setCore a.core ((x.setReg rd (x.atom.res.setWidth 32)).advance a.pc a.short))

end Sys2Proof.Machine
end

