-- ==== Sys2Proof/Machine/Clocks.lean ====
section
/-! DEFINITION. Tile clock ceilings, issue gates and voltages as functions of the state (14 R473 to
R487, Tables 14.1 and 14.3; 01 Table 1.8). -/
namespace Sys2Proof.Machine

/-- The tile clock maximum of a profile, in MHz (01 Table 1.8); 0b11 is read as AIR (R473). -/
def profileMHz (p : BitVec 2) : Nat := if p = 1 then 1500 else if p = 2 then 1650 else 1000

/-- The envelope of a profile, in W. -/
def profileWatts (p : BitVec 2) : Nat := if p = 1 then 1600 else if p = 2 then 1750 else 1050

def State.pmax (s : State) : Nat := profileMHz s.plumb.profile

/-- R477: the module power limit. -/
def State.powerLimit (s : State) : Nat :=
  let env := profileWatts s.plumb.profile
  let board := if s.power.limitW = 0 then env else min env s.power.limitW
  if s.power.pwrbrk then min board 500 else board

/-- Round down to a step of 25 MHz. -/
def step25 (f : Nat) : Nat := f / 25 * 25

/-- Table 14.3: the thermal ceiling and gate of a level. -/
def thermalCeil (pmax level : Nat) : Nat :=
  max 400 (match level with
    | 0 => pmax
    | 1 => step25 (pmax * 85 / 100)
    | 2 => step25 (pmax * 60 / 100)
    | _ => 400)

def thermalGate (level : Nat) : Nat := if level = 3 then 4 else 16

/-- R481: GUARD of a tile. -/
def Phys.guard (x : Phys) : Nat := min 60 x.drift.toNat + x.droopMv + 15 * bit x.marginOnly

/-- R481: the highest ceiling, in steps of 25 MHz, whose voltage fits; 400 MHz when none does. -/
def voltageCeil (p guard : Nat) : Nat :=
  ((List.range 51).reverse.map fun i => 400 + 25 * i).find?
    (fun f => decide (Config.voltage p f + guard ≤ Config.maxVoltage p)) |>.getD 400

def State.thermalCeilOf (s : State) (p : Nat) : Nat := thermalCeil s.pmax (s.phy p).thermLevel
def State.voltageCeilOf (s : State) (p : Nat) : Nat := voltageCeil p (s.phy p).guard

/-- Are all runs of the visit done? -/
def Visit.finished (v : Visit) : Bool := v.runs.length == 8 && (v.retest || !v.anyFail)

/-- Is the tile in an LBIST run, of a Lehr visit or of DIAG_BIST_RUN? A run on a tile that reaches level 2 is
abandoned (R487). -/
def Phys.inRun (x : Phys) : Bool :=
  (x.diag.isSome || x.visit.any fun v => !v.finished) && decide (x.thermLevel < 2)

/-- How far below its nominal voltage a run has the tile, in mV (R487; 11 R395, R418). -/
def Phys.margin (x : Phys) : Nat :=
  if !x.inRun then 0
  else match x.diag, x.visit with
    | some m, _ => m
    | none, some v => if !v.retest && v.runs.length % 2 == 1 then 40 else 0
    | none, none => 0

/-- R478, R487: the effective ceiling of a tile; a tile in an LBIST run runs at its test clock. -/
def State.effectiveCeil (s : State) (p : Nat) : Nat :=
  if (s.phy p).inRun then min s.pmax (s.voltageCeilOf p)
  else min (min s.pmax s.power.ceil) (min (s.thermalCeilOf p) (s.voltageCeilOf p))

/-- The issue gate of a tile: the lower of the two loops; no gating during a run (R487). -/
def State.gateOf (s : State) (p : Nat) : Nat :=
  if (s.phy p).inRun then 16 else min s.power.gate (thermalGate (s.phy p).thermLevel)

/-- TIL_PWR_CLK. A ceiling counts as the lowest when it is below the profile maximum and no other
ceiling is lower (DEDUCED, log 29). -/
def State.pwrClkWord (s : State) (p : Nat) : Word :=
  let x := s.phy p
  if !x.powered then BitVec.ofNat 32 (16 * 2 ^ 15)
  else
    let f := s.effectiveCeil p
    BitVec.ofNat 32 (f + 2 ^ 11 * x.thermLevel
      + 2 ^ 13 * bit (s.power.ceil == f && decide (f < s.pmax))
      + 2 ^ 14 * bit (s.voltageCeilOf p == f && decide (f < s.pmax)) + 2 ^ 15 * s.gateOf p)

/-- TIL_PWR_VOLT: V(f) + GUARD, less the margin of a run. -/
def State.pwrVoltWord (s : State) (p : Nat) : Word :=
  let x := s.phy p
  if !x.powered then 0
  else BitVec.ofNat 32 ((Config.voltage p (s.effectiveCeil p) + x.guard - x.margin) % 1024 + 2 ^ 10 * x.guard)

/-- TIL_PWR_TEMP. -/
def Phys.tempWord (x : Phys) : Word := BitVec.ofNat 32 (x.temp % 256 + 2 ^ 8 * (x.peak % 256))

end Sys2Proof.Machine
end

