-- ==== Sys2Proof/Machine/Spatial.lean ====
section
/-! DEFINITION. The quiescence probe and the spill (05 R183 to R192). -/
namespace Sys2Proof.Machine

/-- The kind of a wait (05 Table 5.10). -/
inductive WaitKind where
  | empty | full
  deriving DecidableEq, Repr

/-- The STREAM wait of an instruction that waits on a region itself: the kind and the region. -/
def State.ownStreamWait (s : State) (i : InFlight) : Option (WaitKind × Nat) :=
  if i.executed then none
  else match i.claims.find? (fun k => (s.claimOf k).isNone) with
    | some k => some (match k.side with
        | .consumer => (.empty, k.region)
        | .producer => (.full, k.region))
    | none => none

/-- The STREAM waits of a core's in-flight instructions, oldest first: an instruction that R111
orders after one in a STREAM wait takes its kind; none for one that can proceed (R183). -/
def State.streamWaits (s : State) (c : Nat) : List (Option (WaitKind × Nat)) :=
  let go := (s.core c).btx.foldl (fun (acc : List (InFlight × Option (WaitKind × Nat))) j =>
    let w := match s.ownStreamWait j with
      | some w => some w
      | none =>
        if j.executed then none
        else
          let before := acc.filter fun a => !a.1.executed && s.ordered (tileOf c) a.1 j
          if before.all (fun a => a.2.isSome) then (before.head?).bind (·.2) else none
    acc ++ [(j, w)]) []
  go.map (·.2)

/-- Is the scalar unit in a wait of 05 Table 5.10, or is the core halted? -/
def State.scalarBlocked (s : State) (c : Nat) : Bool :=
  let x := s.core c
  match x.run with
  | .halted => true
  | .drained => false
  | .running => match x.wait with
    | some (.fire _) | some (.qhead _ _ _) | some (.pop _) | some .wfi | some (.krnNext _) => true
    | some (.send v) => (x.binding (txBind v)).avail == 0
    | some (.tfence _ _ _) | some (.tstatSlot _ _ _) | some (.btxIssue _) => true
    | _ => false

/-- R183. -/
def State.coreBlocked (s : State) (c : Nat) : Bool :=
  s.scalarBlocked c && ((s.core c).run == .halted || (s.streamWaits c).all Option.isSome)

/-- Does the head entry of a queue wait for region space (04 R153)? -/
def State.headWaits (s : State) (c q : Nat) : Bool :=
  match ((s.core c).queue q).vis with
  | [] => false
  | e :: _ =>
    let n := e.param.toNat
    let r := s.region (tileOf c) n
    e.isStored && s.usable c n && r.circular && decide (e.nw ≤ r.size)
      && !(r.pClaims.any (·.who == .port c q))
      && !(r.pWait.isEmpty && r.unheld && r.canGrant .producer e.nw)

/-- The core is in a full wait. -/
def State.coreFull (s : State) (c : Nat) : Bool :=
  let x := s.core c
  (match x.run, x.wait with
    | .running, some (.send v) => (x.binding (txBind v)).avail == 0
    | _, _ => false)
  || (s.streamWaits c).any (fun w => match w with
      | some (.full, _) => true
      | _ => false)
  || (List.range 16).any fun q => s.headWaits c q

/-- The wait byte of cause DEADLOCK_UNRESOLVED (12 Table 12.3). -/
def State.waitByte (s : State) (c : Nat) : Nat :=
  let x := s.core c
  let none2 := 0x80
  let btx := match (s.streamWaits c).find? Option.isSome with
    | some (some (.full, n)) => n + 0x20
    | some (some (.empty, n)) => n + 0x20 + 0x40
    | _ => none2
  match x.run, x.wait with
  | .running, some (.send v) => bindQueue (x.binding (txBind v)).word
  | .running, some (.qhead q _ _) => q + 0x40
  | .running, some (.pop q) => q + 0x40
  | .running, some (.tfence _ _ _) | .running, some (.tstatSlot _ _ _)
  | .running, some (.btxIssue _) => btx
  | _, _ => none2

/-- The cores of a context that State lists; any other core is halted and idle. -/
def State.listedCores (s : State) (k : Nat) : List Nat := (s.cores.map Prod.fst).filter (s.coreIn k)

/-- R187: the wait set, receiving core and queue. -/
def State.waitSet (s : State) (k : Nat) : List (Nat × Nat) :=
  let sends := (s.listedCores k).filterMap fun c =>
    let x := s.core c
    match x.run, x.wait with
    | .running, some (.send v) =>
      let b := x.binding (txBind v)
      if b.avail = 0 then some (bindDest b.word, bindQueue b.word) else none
    | _, _ => none
  let heads := (s.listedCores k).flatMap fun c =>
    ((List.range 16).filter (s.headWaits c)).map fun q => (c, q)
  (sends ++ heads).foldl (fun acc p => if acc.contains p then acc else acc ++ [p]) []

/-- The entries of a queue that are still in it: the visible ones first. -/
def InQueue.present (v : InQueue) : List (Entry × Bool) :=
  (v.vis.filter (·.spill.isNone)).map (·, true) ++ (v.early.filter (·.spill.isNone)).map (·, false)

/-- Can every record destined for a core's spill region be written (R188)? Cores of one tile may name one
region. -/
def State.spillFits (s : State) (w : List (Nat × Nat)) (c : Nat) : Bool :=
  let same := fun (p : Nat × Nat) =>
    tileOf p.1 == tileOf c && (s.core p.1).spillRegion == (s.core c).spillRegion
  let n := ((w.filter same).map fun p => ((s.core p.1).queue p.2).present.length).sum
  let r := s.region (tileOf c) (s.core c).spillRegion
  (s.core c).df.spillCfg.getLsbD 5 && s.usable c (s.core c).spillRegion && r.circular
    && r.unheld && r.pWait.isEmpty && decide (8 * n + fill r.size r.rhead r.tail ≤ r.size)

/-- The eight words of a spill record (05 Table 5.11). -/
def Entry.spillWords (e : Entry) (q : Nat) (visible : Bool) : List Word :=
  [e.words.getD 0 0, e.words.getD 1 0, e.words.getD 2 0, e.words.getD 3 0,
   BitVec.ofNat 32 (e.tag.toNat + 2 ^ 16 * e.nw + 2 ^ 19 * e.port.toNat + 2 ^ 22 * q
     + 2 ^ 27 * bit visible),
   BitVec.ofNat 32 (e.src + 2 ^ 13 * e.bind + 2 ^ 18 * e.seq.toNat), 0, 0]

/-- Spill one entry: its record at the HEAD of the spill region, its credit back (R187, R189). -/
def State.spillEntry (s : State) (c q : Nat) (e : Entry) (visible : Bool) : State :=
  let t := tileOf c
  let n := (s.core c).spillRegion
  let r := s.region t n
  let off := r.rhead.off
  let (k, s) := s.requestClaim t n .producer 8 (.spill c)
  let s := ((List.range 8).zip (e.spillWords q visible)).foldl
    (fun s p => s.writeWord t (r.wordAt (off + p.1)) p.2) s
  let s := s.finishClaim k
  let set := fun (y : Entry) => if y.uid = e.uid then { y with spill := some (n, off) } else y
  let s := s.modCore c fun x =>
    let x := { x with df := { x.df with spillRecs := x.df.spillRecs ++ [(n, off)] } }
    let v := x.queue q
    (x.setQueue q { v with vis := v.vis.map set, early := v.early.map set }).count 12
  let s := match s.carrier t with
    | some p => s.modPhy p fun y => { y with spill := satAdd 0xFFFF y.spill 1 }
    | none => s
  s.returnCredit c e

def causeDeadlock : Nat := 0x0206

/-- The DETAIL of R188: up to 16 blocked cores, full waits first. Cores that no image started are halted,
so they count among the empty waits (R183). -/
def State.deadlockDetail (s : State) (k : Nat) : List Byte :=
  let cs := (s.coresOf k).filter fun c => s.coreBlocked c
  let ordered := (cs.filter s.coreFull ++ cs.filter fun c => !s.coreFull c).take 16
  let es := ordered.flatMap fun c => leBytes 2 c ++ leBytes 1 (s.waitByte c) ++ leBytes 1 0
  es ++ (List.replicate (16 - ordered.length) (leBytes 2 0xFFFF ++ leBytes 2 0)).flatten

/-- A context declared stuck: the spill of its wait set, or DEADLOCK_UNRESOLVED (R187, R188). -/
def State.unstick (s : State) (k : Nat) : State :=
  let w := s.waitSet k
  if w.isEmpty || !(w.all fun p => s.spillFits w p.1) then
    s.contained k causeDeadlock (s.deadlockDetail k)
  else
    w.foldl (fun s p =>
      ((s.core p.1).queue p.2).present.foldl (fun s e => s.spillEntry p.1 p.2 e.1 e.2) s) s
      |>.modCtx k fun x => { x with probeSince := some s.deviceTime }

/-- One probe round of a context with a placement running (R185, R186, R192). The rounds that span the
quiescence time begin with the last one that was not quiet, from which on no progress is found: the context
is declared stuck T_Q to 1.5 times T_Q after its last progress (Table 5.14). -/
def State.probe (s : State) (k : Nat) : State :=
  let x := s.ctx k
  if x.st ≠ .running ∨ !x.placed then s
  else
    let cs := s.listedCores k
    let progress := x.progressed || cs.any fun c => (s.core c).prog
    let quiet := !progress && cs.all fun c => s.coreBlocked c
    let full := cs.any fun c => s.coreFull c
    let s := (s.modCores (s.coreIn k) fun _ y => { y with prog := false }).modCtx k fun x =>
      { x with progressed := false }
    if !quiet then s.modCtx k fun x => { x with probeSince := some s.deviceTime }
    else match x.probeSince with
      | none => s.modCtx k fun x => { x with probeSince := some s.deviceTime }
      | some t => if full && s.passed t (x.quiesceUs * 1000) then s.unstick k else s

/-- PROBE_ROUND (05 R185). -/
def execProbeRound (k : CtxId) (s : State) : Answer := .next (s.probe k)

end Sys2Proof.Machine
end

