-- ==== Sys2Proof/Machine/TileRegs.lean ====
section
/-! DEFINITION. The tile register block as a whole: which register each offset names, its reads
with their side effects, and its writes (04 Table 4.2; 02 R59; 05 R161; 06 Tables 6.8 and 6.10;
07 Table 7.9; 10 Table 10.7; 12 Table 12.4; 14 Table 14.1; 00 Table 0.4). -/
namespace Sys2Proof.Machine

/-- The state a meaning answers with. -/
def after (r : Answer) (s : State) : State :=
  match r with
  | .next t => t
  | _ => s

/-- Take one value out of a sum of set bits. -/
def maskOf (n : Nat) (f : Nat → Bool) : Nat := ((List.range n).map fun i => 2 ^ i * bit (f i)).sum

/-! ### Words of registers -/

def Sync.pendWord (y : Sync) (bcntDone : Bool) : Word :=
  BitVec.ofNat 32 (bit y.barRel + 2 * bit bcntDone + 4 * bit y.semGrant + 8 * bit y.barOut.isSome
    + 16 * bit y.semOut.isSome)

def AtomUnit.statWord (u : AtomUnit) : Word :=
  BitVec.ofNat 32 (bit u.busy + 2 * u.status.toNat + 2 ^ 5 * u.tries)

def Kernels.statWord (k : Kernels) : Word := BitVec.ofNat 32 (k.calls.length + 8 * bit k.running.isSome)

def Binding.statWord (b : Binding) : Word := BitVec.ofNat 32 (b.avail + 2 ^ 8 * b.nextSeq.toNat)

def Core.msWord (x : Core) : Word :=
  BitVec.ofNat 32 (x.df.ms.length + 2 ^ 9 * (x.df.ms.filter fun e => e.ready.isSome && !e.fired).length
    + 2 ^ 18 * bit (!x.df.unindexed.isEmpty))

/-- Does the quiescence probe see the core: has its context a placement that no abort has suspended (05 R183,
R185, R192)? -/
def State.probed (s : State) (c : Nat) : Bool :=
  match s.ownerOfCore c with
  | some k => (s.ctx k).placed && !(s.ctx k).dead
  | none => false

/-- TIL_DF_STATUS. A core that no placement's probe counts is neither blocked nor in a full wait, as
after reset (05 Table 5.3; DEDUCED, log 63). -/
def State.dfWord (s : State) (c : Nat) : Word :=
  BitVec.ofNat 32 (bit (s.core c).df.badWrite + 2 * bit (s.probed c && s.coreBlocked c)
    + 4 * bit (s.probed c && s.coreFull c))

/-- TIL_SPILL_STAT: the records the core holds, consumed or not. -/
def State.spillWord (s : State) (c : Nat) : Word := BitVec.ofNat 32 (s.core c).df.spillRecs.length

def Core.chnStatus (x : Core) : Word :=
  BitVec.ofNat 32 (bit x.chnBadWrite + 2 * bit (match x.wait with
    | some (.send _) => true
    | _ => false))

def Tile.doneWord (x : Tile) (lo : Nat) : Word := BitVec.ofNat 32 (maskOf 32 fun i => (x.counter (lo + i)).isDone)
def Tile.errWord (x : Tile) (lo : Nat) : Word := BitVec.ofNat 32 (maskOf 32 fun i => (x.counter (lo + i)).err)

/-! ### Reads -/

/-- A CHN_ register of core `c` (04 Tables 4.11 to 4.16; 05 Table 5.4): no read changes it. -/
def State.chnRead (s : State) (c off : Nat) : Word :=
  let x := s.core c
  if off < 0x80 then (x.binding (off / 4)).word
  else if off < 0x100 then (x.binding ((off - 0x80) / 4)).statWord
  else if off < 0x110 then Tab.get 0 x.txData ((off - 0x100) / 4)
  else if off = 0x118 then x.chnStatus
  else if 0x120 ≤ off ∧ off < 0x160 then x.fireData ((off - 0x120) / 16) ((off - 0x120) % 16 / 4)
  else if 0x160 ≤ off ∧ off < 0x1E0 then
    let q := (off - 0x160) / 8
    BitVec.ofNat 32 (Tab.get 0 (if off % 8 = 0 then x.df.snap.qWait else x.df.snap.qFull) q)
  else if 0x200 ≤ off then
    let v := x.queue ((off - 0x200) / 0x20)
    let i := off % 0x20 / 4
    if i = 0 then v.statWord else if i ≤ 6 then v.headWord (i - 1) else 0
  else 0

/-- A dataflow register (05 Tables 5.1 and 5.3). -/
def State.dataflowRead (s : State) (c off : Nat) : Word :=
  let x := s.core c
  if off < 0x40 then Tab.get 0 x.df.act (off / 4)
  else if off < 0x80 then (Tab.get (0 : Half) x.df.actNext ((off - 0x40) / 4)).setWidth 32
  else if off = 0x80 then x.fireWord
  else if off = 0x84 then match x.firedSet with
    | some e => BitVec.ofNat 32 e.entry
    | none => 0
  else if off = 0x88 then x.msWord
  else if off = 0x8C then x.df.spillCfg.setWidth 32
  else if off = 0x90 then s.spillWord c
  else if off = 0x94 then s.dfWord c
  else if 0xA0 ≤ off ∧ off < 0xD8 then BitVec.ofNat 32 (Tab.get 0 x.df.snap.count ((off - 0xA0) / 4))
  else 0

/-- A kernel register of core `c`, as any other agent reads it: TIL_KRN_NEXT accepts only its own core
(10 R365), whose load is TIL_KRN_NEXT; another agent reads zero (DEDUCED, log 63). -/
def State.kernelRead (s : State) (c off : Nat) : Word :=
  let k := (s.core c).krn
  if off = 0 then 0
  else if off < 0x24 then k.args.getD (off / 4 - 1) 0
  else if off = 0x28 then k.statWord
  else if off = 0x2C then match s.ownerOfCore c with
    | some n => (s.ctx n).periodSeq
    | none => 0
  else 0

def AtomUnit.read (u : AtomUnit) (off : Nat) : Word :=
  match off with
  | 0x00 => u.addr.setWidth 32
  | 0x04 => (u.addr >>> 32).setWidth 32
  | 0x08 => u.opA.setWidth 32
  | 0x0C => (u.opA >>> 32).setWidth 32
  | 0x10 => u.opB.setWidth 32
  | 0x14 => (u.opB >>> 32).setWidth 32
  | 0x1C => u.statWord
  | 0x20 => u.res.setWidth 32
  | 0x24 => (u.res >>> 32).setWidth 32
  | _ => 0

def State.syncRead (s : State) (c off : Nat) : Word :=
  let y := (s.core c).sync
  if off = 4 then y.pendWord (s.bcntDone c) else if off = 8 then y.cfg.setWidth 32 else 0

/-- A region register (04 Table 4.4). -/
def Region.read (r : Region) (off : Nat) : Word :=
  match off with
  | 0x00 => r.baseWord
  | 0x04 => BitVec.ofNat 32 r.size
  | 0x08 => r.ownerWord
  | 0x0C => r.head.word
  | 0x10 => r.tail.word
  | 0x14 => r.rhead.word
  | 0x18 => r.rtail.word
  | 0x1C => r.headInit.word
  | 0x20 => r.tailInit.word
  | 0x24 => r.statusWord
  | _ => 0

/-- A word of the power registers of the tile's carrier. -/
def State.powerRead (s : State) (t off : Nat) : Word × State :=
  match s.carrier t with
  | none => (0, s)
  | some p =>
    if off = 0xE28 then (s.pwrClkWord p, s)
    else if off = 0xE2C then (s.pwrVoltWord p, s)
    else ((s.phy p).tempWord, s.modPhy p fun x => { x with peak := 0 })

/-- A read of a word of the register block of logical tile `t`: its value, and the state after the
clear of an RC field or the latch of TIL_TIME_HI. -/
def State.tileRead (s : State) (t off : Nat) : Word × State :=
  let x := s.tile t
  let core := fun (n : Nat) => t * 16 + n
  if off % 4 ≠ 0 then (0, s)
  else if off < 0x400 then ((s.slot (core (off / 0x40)) (off % 0x40 / 4)).word, s)
  else if off < 0x800 then (s.kernelRead (core ((off - 0x400) / 0x40)) (off % 0x40), s)
  else if off < 0xC00 then ((s.core (core ((off - 0x800) / 0x40))).atom.read (off % 0x40), s)
  else if off < 0xE00 then
    let b := x.counter ((off - 0xC00) / 8)
    (BitVec.ofNat 32 (if off % 8 = 0 then b.count else b.target), s)
  else if off = 0xE00 ∨ off = 0xE04 then (x.doneWord (8 * (off - 0xE00)), s)
  else if off = 0xE08 ∨ off = 0xE0C then (x.errWord (8 * (off - 0xE08)), s)
  else if off = 0xE10 then (BitVec.ofNat 32 x.misroute, s.modTile t fun x => { x with misroute := 0 })
  else if off = 0xE14 then (BitVec.ofNat 32 x.defl, s.modTile t fun x => { x with defl := 0 })
  else if off = 0xE20 then
    let (n, s) := s.fresh
    let now := tileNow s n
    (now.setWidth 32, s.modTile t fun x => { x with timeHi := (now >>> 32).setWidth 32 })
  else if off = 0xE24 then (x.timeHi, s)
  else if off = 0xE28 ∨ off = 0xE2C ∨ off = 0xE30 then s.powerRead t off
  else if 0xE40 ≤ off ∧ off < 0xE80 then
    (BitVec.ofNat 32 (2 ^ 8 * bit (s.core (core ((off - 0xE40) / 4))).inTrap), s)
  else if 0xE80 ≤ off ∧ off < 0xF00 then
    let j := (off - 0xE80) / 4
    (BitVec.ofNat 32 ((x.mask (2 * j)).toNat + 2 ^ 16 * (x.mask (2 * j + 1)).toNat), s)
  else if 0xF00 ≤ off ∧ off < 0x1000 then (s.syncRead (core ((off - 0xF00) / 0x10)) (off % 0x10), s)
  else if 0x1000 ≤ off ∧ off < 0x2000 then (s.dataflowRead (core ((off - 0x1000) / 0x100)) (off % 0x100), s)
  else if 0x2000 ≤ off ∧ off < 0x2800 then ((s.region t ((off - 0x2000) / 0x40)).read (off % 0x40), s)
  else if 0x2800 ≤ off ∧ off < 0x284C then
    let p := (off - 0x2800) / 4
    (BitVec.ofNat 32 (Tab.get 0 x.conflict p),
      s.modTile t fun x => { x with conflict := Tab.set x.conflict p 0 })
  else if off = 0x2880 then (BitVec.ofNat 32 (bit x.badWrite), s)
  else if 0x4000 ≤ off ∧ off < 0x8000 then (s.chnRead (core ((off - 0x4000) / 0x400)) (off % 0x400), s)
  else (0, s)

/-! ### Writes -/

/-- A write that has no effect: a core's store completes. -/
def State.ignored (s : State) (g : Agent) (t : Nat) : State := s.tileWrite g t fun s => s

/-- A write that only the core `c` itself makes (04 R147; 07 R258; 10 R365; 12 R424). -/
def State.ownWrite (s : State) (g : Agent) (c : Nat) (f : At → State) : State :=
  match g with
  | .core a => if a.core.val = c then f a else s.ignored g (tileOf c)
  | _ => s.ignored g (tileOf c)

/-- The same for a register that simply takes the value. -/
def State.ownSet (s : State) (g : Agent) (c : Nat) (f : Core → Core) : State :=
  s.ownWrite g c fun a => s.tileWrite (.core a) (tileOf c) fun s => s.modCore c f

/-- Replace the low or the high word of a doubleword. -/
def setLo (d : DWord) (v : Word) : DWord := (d &&& 0xFFFFFFFF00000000#64) ||| v.setWidth 64
def setHi (d : DWord) (v : Word) : DWord := (d &&& 0xFFFFFFFF#64) ||| (v.setWidth 64 <<< 32)

def AtomUnit.write (u : AtomUnit) (off : Nat) (v : Word) : AtomUnit :=
  match off with
  | 0x00 => { u with addr := (u.addr &&& 0xFFFF00000000#48) ||| v.setWidth 48 }
  | 0x04 => { u with addr := (u.addr &&& 0xFFFFFFFF#48) ||| (v.setWidth 48 <<< 32) }
  | 0x08 => { u with opA := setLo u.opA v }
  | 0x0C => { u with opA := setHi u.opA v }
  | 0x10 => { u with opB := setLo u.opB v }
  | 0x14 => { u with opB := setHi u.opB v }
  | _ => u

/-- Stores to TIL_ATOM_CMD by its OP and RETRY. -/
def State.atomStore (s : State) (a : At) (v : Word) : State :=
  if v.getLsbD 4 then after (execAtomRetry a v s) s
  else match v.toNat % 8 with
    | 0 => after (execAtomFadd a v s) s
    | 1 => after (execAtomCswap a v s) s
    | 2 => after (execAtomSmin a v s) s
    | 3 => after (execAtomSmax a v s) s
    | 4 => after (execAtomUmin a v s) s
    | 5 => after (execAtomUmax a v s) s
    | 6 => after (execAtomClaim a v s) s
    | _ => after (execAtomCommit a v s) s

/-- A write of TIL_SYNC_PEND clears the bits written 1. -/
def Sync.clearPend (y : Sync) (v : Word) : Sync :=
  { y with barRel := y.barRel && !v.getLsbD 0, semGrant := y.semGrant && !v.getLsbD 2 }

/-- Is the agent the core itself? -/
def isOwn (g : Agent) (c : Nat) : Bool :=
  match g with
  | .core a => a.core.val == c
  | _ => false

/-- A write of a sync register of core `c`. Any agent may write TIL_SYNC_ARRIVE and TIL_SYNC_SEM (00 R8:
writes of a WO field act through every port); what its own core's store would trap on, another
agent's write does not do (DEDUCED, log 63). -/
def State.syncWrite (s : State) (g : Agent) (c off : Nat) (v : Word) : State :=
  let t := tileOf c
  let b := bits v.toNat 5 0
  if off = 0 then
    if isOwn g c then s.ownWrite g c fun a => after (execTilSyncArrive a v s) s
    else s.tileWrite g t fun s => if s.mayArrive c b then s.arriveAt c b else s
  else if off = 4 then
    s.tileWrite g t fun s => s.modCore c fun x => { x with sync := x.sync.clearPend v }
  else if off = 8 then
    s.tileWrite g t fun s => (s.modCore c fun x => { x with sync := { x.sync with cfg := v.setWidth 9 } }).wakeWfi c
  else if isOwn g c then s.ownWrite g c fun a =>
    if v.getLsbD 6 then after (execSemWait a v s) s else after (execSemPost a v s) s
  else s.tileWrite g t fun s =>
    if !v.getLsbD 6 then s.semPostAt c v
    else if (s.core c).sync.semOut.isSome then s else s.semWaitAt c b

/-- A write of a dataflow register. Actors, next tags and the spill configuration take only the writes of
the core and firmware (05 R162); RETIRE and SNAP take every agent's (R169, R193; 00 R8). -/
def State.dataflowWrite (s : State) (g : Agent) (c : CoreId) (off : Nat) (v : Word) : State :=
  if off < 0x40 then
    if s.mayWriteActor g c then after (execTilActWrite g c (Fin.ofNat 16 (off / 4)) v s) s
    else s.ignored g (tileOf c)
  else if off < 0x80 then
    if s.mayWriteActor g c then
      let next := v.setWidth 16
      ((s.modCore c fun x => (Core.nextMoment { x with df := { x.df with
        actNext := Tab.set x.df.actNext ((off - 0x40) / 4) next } }).markReady).storeDone g).wakeQueues c
    else s.ignored g (tileOf c)
  else if off = 0x80 then
    if isOwn g c then s.ownWrite g c fun a => after (execTilFireRetire a v s) s
    else s.tileWrite g (tileOf c) fun s => if v.getLsbD 31 then s.retireFired c else s
  else if off = 0x8C then
    if s.mayWriteActor g c then after (execTilSpillCfgWrite g c v s) s else s.ignored g (tileOf c)
  else if off = 0x94 then
    s.tileWrite g (tileOf c) fun s => s.modCore c fun x =>
      { x with df := { x.df with badWrite := x.df.badWrite && !v.getLsbD 0 } }
  else if off = 0x98 then after (execTilPerfSnap g c v s) s
  else s.ignored g (tileOf c)

/-- A write of a CHN_ register (04 R143, R145, R147). -/
def State.chnWrite (s : State) (g : Agent) (c : CoreId) (off : Nat) (v : Word) : State :=
  let t := tileOf c
  if off < 0x80 then after (execChnBindWrite g c (Fin.ofNat 32 (off / 4)) v s) s
  else if 0x100 ≤ off ∧ off < 0x110 then
    s.ownSet g c fun x => { x with txData := Tab.set x.txData ((off - 0x100) / 4) v }
  else if off = 0x110 then s.ownWrite g c fun a => after (execChnTxCmd a v s) s
  else if off = 0x114 then s.ownWrite g c fun a => after (execChnRxPop a v s) s
  else if off = 0x118 then
    s.tileWrite g t fun s => s.modCore c fun x => { x with chnBadWrite := x.chnBadWrite && !v.getLsbD 0 }
  else if 0x200 ≤ off ∧ off % 0x20 = 0 then
    s.tileWrite g t fun s => s.modCore c fun x =>
      let q := (off - 0x200) / 0x20
      let y := x.queue q
      x.setQueue q { y with overrun := y.overrun && !v.getLsbD 8, portErr := y.portErr && !v.getLsbD 9 }
  else s.ignored g t

/-- A write of a region register (04 Table 4.4); the pointers that are RO are not written. -/
def State.regionWrite (s : State) (g : Agent) (t : TileId) (n : RegionId) (off : Nat) (v : Word) : State :=
  match off with
  | 0x00 => after (execSpdRgnBaseWrite g t n v s) s
  | 0x04 => after (execSpdRgnSizeWrite g t n v s) s
  | 0x08 => after (execSpdRgnOwnerWrite g t n v s) s
  | 0x0C => after (execSpdRgnHeadWrite g t n v s) s
  | 0x10 => after (execSpdRgnTailWrite g t n v s) s
  | _ => s.ignored g t

/-- A write of a word of the register block of logical tile `t`. -/
def State.tileWriteReg (s : State) (g : Agent) (t : TileId) (off : Nat) (v : Word) : State :=
  let core := fun (n : Nat) => Fin.ofNat 8192 (t.val * 16 + n)
  if off % 4 ≠ 0 then s.ignored g t
  else if 0x400 ≤ off ∧ off < 0x800 then
    if off % 0x40 = 0x24 then
      s.ownWrite g (core ((off - 0x400) / 0x40)) fun a => after (execTilKrnDone a v s) s
    else s.ignored g t
  else if 0x800 ≤ off ∧ off < 0xC00 then
    let c := core ((off - 0x800) / 0x40)
    if off % 0x40 = 0x18 then s.ownWrite g c fun a => s.atomStore a v
    else if off % 0x40 < 0x18 then s.ownSet g c (·.modAtom fun u => u.write (off % 0x40) v)
    else s.ignored g t
  else if 0xC00 ≤ off ∧ off < 0xE00 then
    after (execTilBcntWrite g t (Fin.ofNat 64 ((off - 0xC00) / 8)) (off % 8 == 4) v 0 s) s
  else if off = 0xE08 ∨ off = 0xE0C then
    s.tileWrite g t fun s => s.modTile t fun x =>
      { x with bcnt := x.bcnt.map fun e =>
          (e.1, if e.1 / 32 = (off - 0xE08) / 4 ∧ v.getLsbD (e.1 % 32) then { e.2 with err := false } else e.2) }
  else if 0xE40 ≤ off ∧ off < 0xE80 then
    s.ownWrite g (core ((off - 0xE40) / 4)) fun a => after (execTilCoreFaultWrite a v s) s
  else if 0xE80 ≤ off ∧ off < 0xF00 then
    after (execTilBarMaskWrite g t (Fin.ofNat 32 ((off - 0xE80) / 4)) v s) s
  else if 0xF00 ≤ off ∧ off < 0x1000 then s.syncWrite g (core ((off - 0xF00) / 0x10)) (off % 0x10) v
  else if 0x1000 ≤ off ∧ off < 0x2000 then
    s.dataflowWrite g (core ((off - 0x1000) / 0x100)) (off % 0x100) v
  else if 0x2000 ≤ off ∧ off < 0x2800 then
    s.regionWrite g t (Fin.ofNat 32 ((off - 0x2000) / 0x40)) (off % 0x40) v
  else if off = 0x2880 then
    s.tileWrite g t fun s => s.modTile t fun x => { x with badWrite := x.badWrite && !v.getLsbD 0 }
  else if 0x4000 ≤ off ∧ off < 0x8000 then s.chnWrite g (core ((off - 0x4000) / 0x400)) (off % 0x400) v
  else s.ignored g t

end Sys2Proof.Machine
end

