-- ==== Sys2Proof/Machine/Network.lean ====
section
/-! DEFINITION. The bulk and control networks: injection, routing, ejection, multicast, flit errors,
starvation and fencing (06 R196 to R218, R227 to R229). A ROUTER_HEADER command is one fabric cycle
of one router (DESIGN CHOICE, log 30). -/
namespace Sys2Proof.Machine

/-! ### Links (06 R203, R211) -/

/-- The links in the order of R204. -/
def allDirs : List Dir := [.n, .e, .s, .w, .bn, .be, .bs, .bw]

def oppDir : Dir → Dir
  | .n => .s | .e => .w | .s => .n | .w => .e
  | .bn => .bs | .be => .bw | .bs => .bn | .bw => .be

/-- The number of a link output in DETAIL of NET_FENCED: its place in that order (DEDUCED, log 31). -/
def dirNo (d : Dir) : Nat := allDirs.findIdx (· == d)

/-- The router at the far end of a link, if the mesh goes that far. -/
def stepDir (d : Dir) (p : Nat) : Option Nat :=
  let x := physX p
  let y := physY p
  match d with
  | .n => if 1 ≤ y then some (physAt x (y - 1)) else none
  | .s => if y + 1 < 24 then some (physAt x (y + 1)) else none
  | .w => if 1 ≤ x then some (physAt (x - 1) y) else none
  | .e => if x + 1 < 24 then some (physAt (x + 1) y) else none
  | .bn => if 6 ≤ y then some (physAt x (y - 6)) else none
  | .bs => if y + 6 < 24 then some (physAt x (y + 6)) else none
  | .bw => if 6 ≤ x then some (physAt (x - 6) y) else none
  | .be => if x + 6 < 24 then some (physAt (x + 6) y) else none

/-- Is the link pair at an output left by the fences of routers and of the network's links? -/
def linkLeft (routers : List Nat) (links : List (Nat × Dir)) (p : Nat) (d : Dir) : Bool :=
  match stepDir d p with
  | none => false
  | some q => !routers.contains p && !routers.contains q && !links.contains (p, d)
      && !links.contains (q, oppDir d)

/-- The fenced links of one network. -/
def linksOfNet (net : Net) (links : List (Net × Nat × Dir)) : List (Nat × Dir) :=
  (links.filter (·.1 == net)).map (·.2)

/-- Is the output in the router's port set? -/
def State.linkOk (s : State) (net : Net) (p : Nat) (d : Dir) : Bool :=
  linkLeft s.net.fencedRouters (linksOfNet net s.net.fencedLinks) p d

/-! ### Productive outputs (06 R204) -/

def absDiff (a b : Nat) : Nat := max a b - min a b

/-- Hops left: Baseline jumps of six and mesh hops in each dimension. -/
def hops (p q : Nat) : Nat :=
  let dx := absDiff (physX p) (physX q)
  let dy := absDiff (physY p) (physY q)
  dx / 6 + dx % 6 + dy / 6 + dy % 6

/-- The Baseline and the mesh link toward a column, a row. -/
def towardX (p q : Nat) : Dir × Dir := if physX p < physX q then (.be, .e) else (.bw, .w)
def towardY (p q : Nat) : Dir × Dir := if physY p < physY q then (.bs, .s) else (.bn, .n)

/-- The links of one dimension that lower the hop distance, Baseline first. Where the Baseline link is
fenced the mesh link lowers it too (the last row of Table 6.7). -/
def legs (ok : Dir → Bool) (far : Nat) (d : Dir × Dir) : List Dir :=
  (if 6 ≤ far ∧ ok d.1 then [d.1] else [])
    ++ (if far % 6 ≠ 0 ∨ (6 ≤ far ∧ !ok d.1) then [d.2].filter ok else [])

/-- The links that lower the hop distance in order of preference; of equal distances X goes first (log 30). -/
def nearer (ok : Dir → Bool) (p q : Nat) : List Dir :=
  let dx := absDiff (physX p) (physX q)
  let dy := absDiff (physY p) (physY q)
  if dx < dy then legs ok dy (towardY p q) ++ legs ok dx (towardX p q)
  else legs ok dx (towardX p q) ++ legs ok dy (towardY p q)

/-! ### Escape tables (06 R208, R228) -/

/-- The table of an intact mesh: X, then Y, over mesh links. -/
def meshEscape (p q : Nat) : Option Dir :=
  if physX p ≠ physX q then some (towardX p q).2
  else if physY p ≠ physY q then some (towardY p q).2
  else none

/-- The routers from which a destination is `n` hops away or less. -/
def within (ok : Nat → Dir → Bool) (q : Nat) : Nat → List Nat
  | 0 => [q]
  | n + 1 =>
    let near := within ok q n
    (List.range 576).filter fun p => near.contains p || allDirs.any fun d =>
      ok p d && (stepDir d p).any near.contains

/-- A shortest way around the fences. -/
def shortestEscape (ok : Nat → Dir → Bool) (p q : Nat) : Option Dir :=
  match (List.range 576).find? fun n => (within ok q n).contains p with
  | some (n + 1) => allDirs.find? fun d => ok p d && (stepDir d p).any (within ok q n).contains
  | _ => none

/-- A table followed from a router reaches the destination over links that are left. -/
def followsTo (ok : Nat → Dir → Bool) (table : Nat → Nat → Option Dir) (q : Nat) : Nat → Nat → Bool
  | 0, p => p == q
  | n + 1, p => p == q || match table p q with
    | none => false
    | some d => ok p d && (stepDir d p).any (followsTo ok table q n)

/-- R208 of a table: from every router it reaches every router that the links left lead to. -/
def escapeValid (ok : Nat → Dir → Bool) (table : Nat → Nat → Option Dir) : Bool :=
  (List.range 576).all fun q => (within ok q 576).all fun p => followsTo ok table q 576 p

/-- The escape table as firmware last wrote it. Around fences firmware writes any table that R208 allows: an
open table if it is one, else a shortest way (log 30). -/
def State.escapeOut (s : State) (net : Net) (p q : Nat) : Option Dir :=
  let routers := s.net.escapeFor.1
  let links := linksOfNet net s.net.escapeFor.2
  if routers.isEmpty && links.isEmpty then meshEscape p q
  else
    let ok := linkLeft routers links
    let open_ := Config.escape routers links
    if escapeValid ok open_ then open_ p q else shortestEscape ok p q

/-- The productive outputs (R204). Where fences leave no link that lowers the hop distance, the escape table's
output is the productive one (DEDUCED, log 30). -/
def State.productive (s : State) (net : Net) (p q : Nat) : List Dir :=
  match nearer (s.linkOk net p) p q with
  | [] => (s.escapeOut net p q).toList
  | ds => ds

/-- A change of the escape tables: T_DELIVER, 5.12 µs, after every source was held, firmware writes the tables
and releases the sources (R228). -/
def State.settleEscape (s : State) : State :=
  match s.net.escapeHold with
  | none => s
  | some t =>
    if s.passed t 5120 then
      s.modNet fun n => { n with escapeFor := (n.fencedRouters, n.fencedLinks), escapeHold := none }
    else s

/-! ### Packets -/

def routeOf : Packet → RouteWord
  | .bulk b => b.route
  | .control c => c.route

def withRoute (r : RouteWord) : Packet → Packet
  | .bulk b => .bulk { b with route := r }
  | .control c => .control { c with route := r }

/-- The destination router of a packet. -/
def destOf (p : Packet) : Nat := physAt (routeOf p).px.toNat (routeOf p).py.toNat

/-- Point a route word at a physical tile. -/
def aimAt (p : Nat) (r : RouteWord) : RouteWord :=
  { r with px := BitVec.ofNat 5 (physX p), py := BitVec.ofNat 5 (physY p) }

/-- The members a copy of a multicast has still to reach (R213), as logical tiles. -/
def membersOf : Packet → List Nat
  | .bulk b => if b.cast = 0 then [] else castMembers b.cast.toNat b.smask.toNat b.imask.toNat
  | .control _ => []

/-- The member nearest to a router, the lower index of two at one distance. -/
def State.nearest (s : State) (p : Nat) : List Nat → Option Nat
  | [] => none
  | t :: ts => some (ts.foldl (fun b u =>
      if hops p (s.transOf u).phys < hops p (s.transOf b).phys then u else b) t)

/-- The copy of a multicast for members of one sector, pointed at the nearest of them, of those not passed
already while there are any. -/
def State.castCopy (s : State) (p : Nat) (b : BulkPacket) (ts passed : List Nat) : Option BulkPacket :=
  match (s.nearest p (ts.filter (!passed.contains ·))).or (s.nearest p ts) with
  | none => none
  | some t =>
    let route := aimAt (s.transOf t).phys { b.route with destTile := BitVec.ofNat 9 t }
    let smask := oneBit 16 (sectorOfTile t)
    let imask := BitVec.ofNat 32 ((ts.map fun u => 2 ^ (u % 32)).sum)
    some { b with route, cast := 2, smask, imask }

/-! ### Delivery (06 R214, R215, R217; 07 R249, R250) -/

/-- The local port of an answer: the one at which the request ejected. -/
def answerPort (r : RouteWord) : Nat := if r.memPort then 2 else 0

/-- Answer a WRITE whose return address asks for it. -/
def State.ackWrite (s : State) (p : Nat) (b : BulkPacket) (status : Nat) : State :=
  if b.kind = 0 ∧ inStaging b.raddr.toNat then
    let (e, i) := stagingPlace b.raddr.toNat
    s.postAck p b.route.ctx.toNat e i b.bytes.toNat status (answerPort b.route)
  else s

/-- The address a bulk packet writes at this tile: of a multicast only the offset counts. -/
def bulkAddr (b : BulkPacket) : Nat :=
  if b.cast = 0 then b.addr.toNat else spadAddr b.route.destTile.toNat (b.addr.toNat % 2 ^ 22)

/-- A firmware copy is not held to the context's regions and granules (06 Table 6.4). -/
def State.firmwareCopy (s : State) (b : BulkPacket) : Nat × State :=
  match s.addrKind (bulkAddr b) with
  | .spad t _ => (stOk, (s.writeBytes (bulkAddr b) b.data).creditBcnt t b.bcnt.toNat b.bytes.toNat false)
  | .tier1 | .tier2 => (stOk, s.writeTier (bulkAddr b) b.data)
  | _ => (stInvalidArg, s)

/-- A WRITE, COPY, READ_RSP or ATOMIC_RSP is performed. -/
def State.performWrite (s : State) (p : Nat) (b : BulkPacket) : State :=
  let a := bulkAddr b
  let bad := b.status ≠ 0
  if stagingBase ≤ a then
    let s := if bad then s else s.writeBytes a b.data
    if b.kind = 2 ∧ inStaging a then s.engineRsp a b.status b.data else s
  else
    let (st, s) := if b.kind = 5 ∧ !bad then s.firmwareCopy b
      else s.engineWrite b.route.ctx.toNat a b.bcnt.toNat b.data bad b.bytes.toNat
    s.ackWrite p b st

/-- A READ_REQ is performed and answered. -/
def State.performRead (s : State) (p : Nat) (b : BulkPacket) : State :=
  let k := b.route.ctx.toNat
  let n := b.bytes.toNat
  let port := answerPort b.route
  let (st, bs) := s.engineRead k b.addr.toNat n
  let s := s.touchRead st b.addr.toNat n
  let s := s.postRsp p k b.raddr.toNat b.rbcnt.toNat n st bs port
  if st = stInvalidArg ∧ inStaging b.raddr.toNat then s.ackRead p k b.raddr.toNat n port else s

/-- A bulk packet at its port, by the checks of R214 after the first. -/
def State.deliverBulk (s : State) (p : Nat) (b : BulkPacket) : State :=
  let k := b.route.ctx.toNat
  let refuse := fun (st : Nat) =>
    if b.kind = 1 then s.postRsp p k b.raddr.toNat b.rbcnt.toNat b.bytes.toNat st [] (answerPort b.route)
    else if b.kind = 3 then s.postAtomicRsp p k b st 0
    else if st = stFenced then s.ackWrite p b st
    else s
  match s.fate b.route with
  | .fenced => refuse stFenced
  | .wrongOwner => s
  | .stale => refuse stPoisoned
  | .deliver =>
    if b.kind = 1 then s.performRead p b
    else if b.kind = 3 then s.modNet fun x => { x with ejectedBulk := x.ejectedBulk ++ [b] }
    else s.performWrite p b

/-- Answer a REG_RD (Table 6.6). -/
def State.postRegRsp (s : State) (p : Nat) (c : CtlPacket) (status : Nat) (v : Word) : State :=
  let h := c.header.toNat
  let req := bits h 19 7
  s.post .control p (.control
    { route := s.routeTo (tileOf req) c.route.ctx.toNat, word0 := v
      header := BitVec.ofNat 48 (req % 16 + 4 * 2 ^ 4 + bits h 27 7 * 2 ^ 7 + status * 2 ^ 28) })
    (answerPort c.route)

/-- A control packet at its port. Packets whose effect is a command of its own wait for it. -/
def State.deliverCtl (s : State) (p : Nat) (c : CtlPacket) : State :=
  let kind := hdrKind c
  let sub := bits c.header.toNat 9 7
  match s.fate c.route with
  | .fenced =>
    if kind = 2 then s.postRegRsp p c 2 0
    else if kind = 5 ∧ (sub = 1 ∨ sub = 2) then s.coreAtomic c 0 false 0 0 0 true
    else s
  | .wrongOwner => s
  | .stale => if kind = 2 then s.postRegRsp p c 1 0 else s
  | .deliver =>
    if kind = 2 then
      let (v, s) := s.tileRead c.route.destTile.toNat c.word0.toNat
      s.postRegRsp p c 0 v
    else if kind = 3 then s.tileWriteReg .net c.route.destTile.toFin c.word0.toNat c.word1
    else if kind = 0 ∨ kind = 1 ∨ kind = 5 then s.modNet fun x => { x with ejected := x.ejected ++ [c] }
    else s

/-- Is the packet misrouted: the tile does not carry its logical tile (R214 check 1)? -/
def State.misrouted (s : State) (p : Nat) (r : RouteWord) : Bool :=
  !r.memPort && s.logicalOf p != some r.destTile.toNat && !(s.transOf r.destTile.toNat).withdrawn

/-- Add to a counter of the logical tile that a physical tile carries, if it carries one. -/
def State.modCarried (s : State) (p : Nat) (f : Tile → Tile) : State :=
  match s.logicalOf p with
  | some t => s.modTile t f
  | none => s

/-- A tile's TIL_NET_MISROUTE adds one, that of a SPARE or LEHR tile too (R214); it saturates (log 63). -/
def State.countMisroute (s : State) (p : Nat) : State :=
  match s.logicalOf p with
  | some t => s.modTile t fun x => { x with misroute := satAdd 0xFFFF x.misroute 1 }
  | none => s.modPhy p fun x => { x with misroute := satAdd 0xFFFF x.misroute 1 }

/-- A packet ejects at a router: what the receiver does, and the packet that goes on, if one does
(R213, R214); `passed` are the members of a multicast that it passed by. -/
def State.eject (s : State) (p : Nat) (k : Packet) (passed : List Nat) : State × Option Packet :=
  let r := routeOf k
  if s.misrouted p r then
    (s.countMisroute p, some (withRoute (aimAt (s.transOf r.destTile.toNat).phys r) k))
  else match k with
    | .control c => (s.deliverCtl p c, none)
    | .bulk b =>
      let left := (membersOf k).filter (· != r.destTile.toNat)
      let t := s.deliverBulk p b
      (t, (t.castCopy p b left passed).map .bulk)

/-! ### One cycle of a router (06 R202 to R205, R216) -/

structure Cycle where
  st : State
  /-- Outputs taken, or barred by STARVE. -/
  used : List Dir := []
  tilePort : Nat := 0
  memPort : Nat := 0

/-- Can the local port take the packet now? -/
def Cycle.portFree (c : Cycle) (net : Net) (r : RouteWord) : Bool :=
  if r.memPort then c.memPort == 0
  else match net with
    | .bulk => decide (c.tilePort < 2)
    | .control => c.tilePort == 0

def Cycle.takePort (c : Cycle) (r : RouteWord) : Cycle :=
  if r.memPort then { c with memPort := c.memPort + 1 } else { c with tilePort := c.tilePort + 1 }

/-- Is no packet under way on a link, or in the slot at its far end? -/
def State.slotFree (s : State) (net : Net) (p : Nat) (d : Dir) : Bool :=
  !s.net.slots.any fun x => x.net == net && some x.at_ == stepDir d p && x.via == some (oppDir d)

/-- Can a header take the output? What still stands in the far slot leaves it in this cycle: a packet sent now
stands behind it on the link until the far router has had the cycle (R202, R203, log 30). -/
def Cycle.outFree (c : Cycle) (net : Net) (p : Nat) (d : Dir) : Bool :=
  c.st.linkOk net p d && !c.used.contains d

/-- Can a local packet take the output, after every arriving header (R206)? A link on which a packet is under
way counts as taken (log 30). -/
def Cycle.injectFree (c : Cycle) (net : Net) (p : Nat) (d : Dir) : Bool :=
  c.outFree net p d && c.st.slotFree net p d

/-- Uses of links older than 6,144 fabric cycles are forgotten (R229). -/
def State.recentUses (s : State) : List (Net × Nat × Dir × Nat × DWord) :=
  s.net.uses.filter fun u => !s.passed u.2.2.2.2 5121

/-- The packet leaves on an output: AGE, a deflection's counts, and ESC at 32 (R204, R205). -/
def Cycle.send (c : Cycle) (p : Nat) (x : Transit) (d : Dir) (deflected : Bool) : Cycle :=
  match stepDir d p with
  | none => c
  | some q =>
    let r := routeOf x.pkt
    let reached := deflected && r.defl == 31 && !r.esc
    let r' : RouteWord :=
      { r with
        age := if r.age = 255 then 255 else r.age + 1
        defl := if deflected && decide (r.defl < 32) then r.defl + 1 else r.defl
        esc := r.esc || reached }
    let s := if deflected then c.st.modCarried p fun t => { t with defl := satAdd 0xFFFFFFFF t.defl 1 }
      else c.st
    let s := if reached then s.modPhy p fun y => { y with deflEscape := bump y.deflEscape } else s
    let hop : Transit :=
      { net := x.net, at_ := q, via := some (oppDir d), later := x.later, pkt := withRoute r' x.pkt }
    let s := s.modNet fun n =>
      { n with slots := n.slots ++ [hop], uses := (x.net, p, d, r.ctx.toNat, s.deviceTime) :: s.recentUses }
    { c with st := s, used := d :: c.used }

/-- A header takes an output; where STARVE bars the last one it waits in its slot (R204, R207). -/
def Cycle.forward (c : Cycle) (p : Nat) (x : Transit) : Cycle :=
  let r := routeOf x.pkt
  let dest := destOf x.pkt
  let esc := if r.esc then (c.st.escapeOut x.net p dest).filter (c.outFree x.net p) else none
  match esc with
  | some d => c.send p x d false
  | none => match (c.st.productive x.net p dest).find? (c.outFree x.net p) with
    | some d => c.send p x d r.esc
    | none => match allDirs.find? (c.outFree x.net p) with
      | some d => c.send p x d true
      | none => { c with st := c.st.modNet fun n => { n with slots := x :: n.slots } }

/-- One header: ejection, or an output. A member whose port is full is left until after the others (R213). -/
def Cycle.header (c : Cycle) (p : Nat) (x : Transit) : Cycle :=
  let r := routeOf x.pkt
  if destOf x.pkt = p then
    if c.portFree x.net r then
      let (s, on) := c.st.eject p x.pkt x.later
      let c := { c.takePort r with st := s }
      match on with
      | some k => c.forward p { x with pkt := k }
      | none => c
    else
      let here := r.destTile.toNat
      let others := (membersOf x.pkt).filter (· != here)
      let passed := here :: x.later
      match c.st.nearest p (others.filter (!passed.contains ·)), c.st.nearest p others with
      | some t, _ =>
        let r' := aimAt (c.st.transOf t).phys { r with destTile := BitVec.ofNat 9 t }
        c.forward p { x with pkt := withRoute r' x.pkt, later := passed }
      | none, some t =>
        let r' := aimAt (c.st.transOf t).phys { r with destTile := BitVec.ofNat 9 t }
        c.forward p { x with pkt := withRoute r' x.pkt, later := [here] }
      | none, none => c.forward p x
  else c.forward p x

/-- Does header a rank before header b (R204)? -/
def ranksBefore (a b : Transit) : Bool :=
  let ra := routeOf a.pkt
  let rb := routeOf b.pkt
  if ra.esc != rb.esc then ra.esc
  else if ra.age ≠ rb.age then decide (rb.age < ra.age)
  else decide ((a.via.map dirNo).getD 8 ≤ (b.via.map dirNo).getD 8)

/-- Put a header at its rank. -/
def rankIn (x : Transit) : List Transit → List Transit
  | [] => [x]
  | y :: ys => if ranksBefore x y then x :: y :: ys else y :: rankIn x ys

/-- The packets in the inputs of a router, ranked. -/
def State.headers (s : State) (net : Net) (p : Nat) : List Transit :=
  (allDirs.filterMap fun d => s.net.slots.find? fun x => x.net == net && x.at_ == p && x.via == some d).foldr
    rankIn []

/-- Outputs that STARVE bars for this cycle (R207). -/
def State.barred (s : State) (net : Net) (p : Nat) : List Dir :=
  (s.net.starved.filter fun x => x.1 == net && x.2.1 == p).map fun x => x.2.2

def State.runCycle (s : State) (net : Net) (p : Nat) (hs : List Transit) : Cycle :=
  let s0 := s.modNet fun n => { n with slots := hs.foldl (fun l h => l.erase h) n.slots }
  hs.foldl (fun c x => c.header p x) { st := s0, used := s.barred net p }

/-! ### Fencing (06 R216, R229) -/

def causeNetFenced : Nat := 0x0207

/-- Both ends of a link of one network. -/
def linkEnds (net : Net) (p : Nat) (d : Dir) : List (Net × Nat × Dir) :=
  match stepDir d p with
  | some q => [(net, p, d), (net, q, oppDir d)]
  | none => []

/-- The link ends that a fence takes out: of a router those of both networks. -/
def fenceEnds : FenceUnit → List (Net × Nat × Dir)
  | .router p => [Net.bulk, Net.control].flatMap fun n => allDirs.flatMap fun d => linkEnds n p d
  | .link net p d => linkEnds net p d

/-- Is the unit fenced already? -/
def State.isOut (s : State) : FenceUnit → Bool
  | .router p => s.net.fencedRouters.contains p.val
  | .link net p d => s.net.fencedLinks.contains (net, p.val, d)

/-- Did the packet come over one of the links, and has not left the router at its end? It counts as on the link
(log 30). -/
def onLink (ends : List (Net × Nat × Dir)) (x : Transit) : Bool :=
  match x.via with
  | some v => ends.contains (x.net, x.at_, v)
  | none => false

/-- Fence a router or a link: the port sets, the packets inside and on the links, a contained fault of every
context recorded on a fenced link in the last 6,144 fabric cycles; every source is held for the change of the
escape tables (R228). -/
def State.fenceUnit (s : State) (u : FenceUnit) : State :=
  if s.isOut u then s
  else
    let ends := fenceEnds u
    let hit := s.recentUses.filter fun x => ends.contains (x.1, x.2.1, x.2.2.1)
    let s := s.modNet fun n => { n with slots := n.slots.filter fun x => !onLink ends x }
    let s := s.modNet fun n =>
      match u with
      | .router p =>
        { n with fencedRouters := n.fencedRouters ++ [p.val]
                 slots := n.slots.filter (·.at_ != p.val)
                 sources := n.sources.filter (·.at_ != p.val) }
      | .link _ _ _ => { n with fencedLinks := n.fencedLinks ++ ends }
    let s := s.modNet fun n => { n with escapeHold := some s.deviceTime }
    (List.range 16).foldl (fun s k =>
      match hit.find? (·.2.2.2.1 == k) with
      | some x =>
        if (s.ctx k).st = .free then s
        else s.contained k causeNetFenced (leBytes 2 x.2.1 ++ leBytes 1 (dirNo x.2.2.1))
      | none => s) s

/-- ON_DIE_FENCE (06 R229). -/
def execOnDieFence (u : FenceUnit) (s : State) : Answer := .next (s.fenceUnit u)

/-- Times of the last second, with n more, newest first; no threshold of 11 R400 asks for more than 1,000. -/
def State.recentTimes (s : State) (ts : List DWord) (n : Nat) : List DWord :=
  (List.replicate (min n 1000) s.deviceTime ++ ts.filter fun t => !s.passed t 1000000001).take 1000

/-- Corrected errors of a tile (R216; 11 R400, R415). -/
def State.countCe (s : State) (p n : Nat) : State :=
  s.modPhy p fun y => { y with eccCe := satAdd 0xFFFF y.eccCe n, ceTimes := s.recentTimes y.ceTimes n }

/-- An uncorrectable error on the link a packet came over: two within 1 s fence it (R216). -/
def State.linkError (s : State) (x : Transit) : State :=
  match x.via with
  | none => s
  | some v => match stepDir v x.at_ with
    | none => s
    | some q =>
      let d := oppDir v
      let recent := s.net.linkErrs.filter fun e => !s.passed e.2.2.2 1000000001
      let again := recent.any fun e => e.1 == x.net && e.2.1 == q && e.2.2.1 == d
      let s := s.modNet fun n => { n with linkErrs := (x.net, q, d, s.deviceTime) :: recent }
      if again then s.fenceUnit (.link x.net (Fin.ofNat 576 q) d) else s

/-- The packet that took an error in its data flits. -/
def poisonPacket : Packet → Packet
  | .bulk b => .bulk { b with status := 1, data := [] }
  | k => k

/-- The SECDED check of one packet of a router's slots (R216): corrected, poisoned or discarded. -/
def State.flitError (s : State) (x : Transit) (e : FlitError) : State :=
  let hard : Bool := match x.pkt with
    | .bulk b => e == FlitError.header || b.data.isEmpty
    | .control _ => true
  match e with
  | .none => s
  | .single => s.countCe x.at_ 1
  | _ =>
    let slots := if hard then s.net.slots.erase x
      else s.net.slots.map fun (y : Transit) => if y = x then { x with pkt := poisonPacket x.pkt } else y
    ((s.modNet fun n => { n with slots }).modPhy x.at_ fun y => { y with eccUe := bump y.eccUe }).linkError x

/-- The check of the packets that a router forwards, ranked. -/
def State.flitErrors (s : State) (net : Net) (p : Nat) (ecc : List FlitError) : State :=
  ((s.headers net p).zip ecc).foldl (fun s (e : Transit × FlitError) => s.flitError e.1 e.2) s

/-- A packet that is still on its way lands where it is bound for. -/
def State.landPacket (s : State) (x : Transit) : State :=
  let s := s.modNet fun n => { n with slots := n.slots.erase x, sources := n.sources.erase x }
  match x.pkt with
  | .control c => s.deliverCtl (destOf x.pkt) c
  | .bulk b =>
    if b.cast = 0 then s.deliverBulk (destOf x.pkt) b
    else (membersOf x.pkt).foldl (fun s t =>
      let p := (s.transOf t).phys
      s.deliverBulk p { b with route := aimAt p { b.route with destTile := BitVec.ofNat 9 t } }) s

/-- ROUTER_HEADER (06 R202 to R205, R213 to R216): one cycle of a router. `ecc` is what the check of
its packets finds, in rank order. -/
def execRouterHeader (net : Net) (p : PhysId) (ecc : List FlitError) (s : State) : Answer :=
  .next (if s.net.fencedRouters.contains p.val then s
    else
      let s := s.settleEscape.flitErrors net p ecc
      let c := s.runCycle net p (s.headers net p)
      c.st.modNet fun n => { n with starved := n.starved.filter fun x => !(x.1 == net && x.2.1 == p.val) })

/-! ### Injection (06 R197 to R199, R206, R212, R213, R227) -/

/-- Kinds that are discarded at injection (Tables 6.4 and 6.6; 07 Table 7.5), and a multicast that
is not one (R212). -/
def discarded : Packet → Bool
  | .bulk b => decide (6 ≤ b.kind.toNat) || b.cast == 3
      || (b.cast != 0 && !(b.kind == 0 || b.kind == 2 || b.kind == 5))
  | .control c => hdrKind c == 7 || (hdrKind c == 5 && decide (4 ≤ bits c.header.toNat 9 7))

/-- The logical tiles a packet is bound for. -/
def boundFor (k : Packet) : List Nat :=
  match k with
  | .bulk b => if b.cast = 0 then [b.route.destTile.toNat] else membersOf k
  | .control c => [c.route.destTile.toNat]

/-- The sectors a packet is bound for: of a multicast every selected one, also without a member (R212). -/
def sectorsFor (k : Packet) : List Nat :=
  match k with
  | .bulk b => if b.cast = 0 then [sectorOfTile b.route.destTile.toNat] else castSectors b.cast.toNat b.smask.toNat
  | .control c => [sectorOfTile c.route.destTile.toNat]

/-- R199: is the packet refused? -/
def State.injectRefused (s : State) (k : Packet) : Bool :=
  (sectorsFor k).any fun sec => s.owner sec != some (routeOf k).ctx.toNat

/-- Is a waiting packet of a generation that has ended (10 R375)? The route word of a packet that is injected
holds the generation at injection, which is that at which it was issued (R197). -/
def State.injectStale (s : State) (k : Packet) : Bool :=
  (s.ctx (routeOf k).ctx.toNat).gen != (routeOf k).gen

/-- Is the packet bound for a logical tile? -/
def isFor (t : Nat) (k : Packet) : Bool := !(routeOf k).memPort && (boundFor k).contains t

/-- Does a HOLD of a destination hold the packet (R227)? -/
def State.injectHeld (s : State) (k : Packet) : Bool :=
  !(routeOf k).memPort && (boundFor k).any fun t => (s.transOf t).hold

/-- Set or clear HOLD of a logical tile, with its coordinate (Table 6.11 steps 1 and 5). -/
def State.setHold (s : State) (t p : Nat) (hold : Bool) : State :=
  s.modNet fun n => { n with trans := Tab.mod {} n.trans t fun e => { e with phys := p, hold } }

/-- Steps 1 to 3 of Table 6.11: HOLD is set, and every packet for the tile that is in the network has been
ejected at its old place. -/
def State.holdTile (s : State) (t : Nat) : State :=
  let s := s.setHold t (s.transOf t).phys true
  (s.net.slots.filter fun x => isFor t x.pkt).foldl State.landPacket s

/-- The engine that issued a refused WRITE, READ_REQ or ATOMIC_REQ sees INVALID_ARG (07 R237, R250). -/
def State.tellRefused (s : State) (k : Packet) : State :=
  match k with
  | .control _ => s
  | .bulk b => s.engineRefused b

/-- The copies a source injects for a packet: one for each member sector, in increasing sector ID
(R213); the packet itself when it is no multicast. -/
def State.copies (s : State) (p : Nat) (k : Packet) : List Packet :=
  let aim := fun (r : RouteWord) => if r.memPort then r else aimAt (s.transOf r.destTile.toNat).phys r
  match k with
  | .bulk b =>
    if b.cast = 0 then [withRoute (aim b.route) k]
    else (List.range 16).filterMap fun sec =>
      (s.castCopy p b ((membersOf k).filter fun t => sectorOfTile t == sec) []).map .bulk
  | .control c => [withRoute (aim c.route) k]

/-- The core that sent a channel message makes progress when it is injected (05 R184). -/
def State.noteInjected (s : State) (k : Packet) : State :=
  match k with
  | .control c =>
    if hdrKind c = 0 then s.modCore (bits c.header.toNat 19 7) fun x => { x with prog := true } else s
  | .bulk _ => s

/-- The packets that wait at one local port of a router. -/
def isSource (net : Net) (p port : Nat) (x : Transit) : Bool := x.net == net && x.at_ == p && x.port == port

/-- Replace the first packet that waits at a port by a list of packets. -/
def replaceFirst (net : Net) (p port : Nat) (new : List Transit) : List Transit → List Transit
  | [] => []
  | y :: ys => if isSource net p port y then new ++ ys else y :: replaceFirst net p port new ys

def State.setSource (s : State) (net : Net) (p port : Nat) (new : List Transit) : State :=
  s.modNet fun n => { n with sources := replaceFirst net p port new n.sources }

/-- The packet could not be injected: it waits from now on, if it does not wait already. -/
def State.blockSource (s : State) (net : Net) (p port : Nat) (x : Transit) (rest : List Transit) : State :=
  s.setSource net p port
    ({ x with blocked := true, since := if x.blocked then x.since else s.deviceTime } :: rest)

/-- Inject one copy, with the packets that wait behind it: into a free productive output, or out at
the router's own port; otherwise it waits (R206). `x` is what it waits as. -/
def State.injectCopy (s : State) (x : Transit) (rest : List Transit) : State :=
  let net := x.net
  let p := x.at_
  let c := s.runCycle net p (s.headers net p)
  if destOf x.pkt = p then
    if c.portFree net (routeOf x.pkt) then
      let (t, on) := (s.setSource net p x.port rest).eject p x.pkt []
      let t := t.noteInjected x.pkt
      match on with
      | some k => t.modNet fun n => { n with sources := { x with pkt := k } :: n.sources }
      | none => t
    else s.blockSource net p x.port x rest
  else match (s.productive net p (destOf x.pkt)).find? (c.injectFree net p) with
    | some d => ((Cycle.send { st := s.setSource net p x.port rest } p x d false).st).noteInjected x.pkt
    | none => s.blockSource net p x.port x rest

/-- Try to inject the oldest packet that waits at a local port of a router. -/
def State.inject (s : State) (net : Net) (p port : Nat) : State :=
  match s.net.sources.find? (isSource net p port) with
  | none => s
  | some x =>
    if discarded x.pkt ∨ s.injectStale x.pkt then s.setSource net p port []
    else if s.injectRefused x.pkt then (s.setSource net p port []).tellRefused x.pkt
    else if s.net.escapeHold.isSome ∨ s.injectHeld x.pkt then s.blockSource net p port x []
    else match s.copies p x.pkt with
      | [] => s.setSource net p port []
      | k :: ks => s.injectCopy { x with pkt := k } (ks.map fun k => { net, at_ := p, port, pkt := k })

/-- PACKET_INJECT (06 R197 to R199, R206, R213, R227, R228): each local port of the router in turn. -/
def execPacketInject (net : Net) (p : PhysId) (s : State) : Answer :=
  .next (if s.net.fencedRouters.contains p.val then s
    else ((s.settleEscape.inject net p 0).inject net p 1).inject net p 2)

/-- Has a local packet of the router waited 256 fabric cycles, 213.4 ns? -/
def State.starves (s : State) (net : Net) (p : Nat) : Bool :=
  s.net.sources.any fun x => x.net == net && x.at_ == p && x.blocked && s.passed x.since 214

/-- STARVE (06 R207): the routers at the far ends of the input links start no new packet on those links in
their next cycle. A router asserts it at most once in 256 fabric cycles. -/
def execStarve (net : Net) (p : PhysId) (s : State) : Answer :=
  let recent := s.net.starveAt.filter fun x => !s.passed x.2.2 214
  .next (if s.starves net p && !(recent.any fun x => x.1 == net && x.2.1 == p.val) then
      s.modNet fun n =>
        { n with
          starveAt := (net, p.val, s.deviceTime) :: recent
          starved := (allDirs.filterMap fun d =>
            if s.linkOk net p d then (stepDir d p).map fun q => (net, q, oppDir d) else none) ++ n.starved }
    else s)

end Sys2Proof.Machine
end

