-- ==== Sys2Proof/Machine/Recovery.lean ====
section
/-! DEFINITION. Sector resets, dumps, teardown, DEVICE faults, watchdogs and Gaffer restarts (12 R421
to R448; 10 R375 to R380; 07 R245, R246). The steps of a recovery that need no event of their own
are one step of the model. -/
namespace Sys2Proof.Machine

/-! ### Sectors (11 R387; 09 Table 9.4) -/

def SectorSt.inService : SectorSt → Bool
  | .off | .out => false
  | _ => true

def CadState.usable : CadState → Bool
  | .cullet | .factoryBad => false
  | _ => true

/-- The usable physical tiles of a sector. -/
def State.usableCount (s : State) (n : Nat) : Nat :=
  ((physOfSector n).filter fun p => (s.phy p).cad.usable).length

/-- Table 11.4: the state of a sector by its usable tiles. -/
def sectorStOf (usable : Nat) : SectorSt :=
  if usable < 24 then .out else if usable < 32 then .degraded else .up

/-- USABLE and NO_SPARE follow the Cadastre. -/
def State.countSector (s : State) (n : Nat) : State :=
  let u := s.usableCount n
  s.modSector n fun x => { x with usable := u, noSpare := u == 32 }

/-- A sector returns to the state of Table 11.4. -/
def State.settleSector (s : State) (n : Nat) : State :=
  (s.countSector n).setSectorSt n (sectorStOf (s.usableCount n))

/-! ### Dumps (12 R443 to R445) -/

/-- A range of tier memory becomes unpredictable. -/
def State.loseRange (s : State) (r : Nat × Nat) : State :=
  let s := s.scramble r.1 r.2
  { s with
    tierPz := ISet.remove (r.1 / 4096) (r.2 / 4096) s.tierPz
    poison := ISet.remove (r.1 / 128) (r.2 / 128) s.poison }

/-- Take a dump of sectors: its number, and the dumps it replaces are lost. Each part is stored in its sector's
dump area (R443), of which DIAG_DUMP_READ tells more than the memory's bytes, which are free values (log 32). -/
def State.takeDump (s : State) (sectors : List Nat) (cause : Half) (cls : Nat) : Half × State :=
  let num := s.faults.nextDump
  let (n, s) := s.fresh
  let d : Dump :=
    { num, sectors, cause, cls, time := s.deviceTime, tier2 := s.hasTier2, faultSeq := 0, stamp := n
      ctxs := sectors.map fun x => match s.owner x with
        | some k => BitVec.ofNat 8 k
        | none => 0xFF
      gens := sectors.map fun x => match s.owner x with
        | some k => (s.ctx k).gen
        | none => 0
      consent := sectors.map fun x => match s.owner x with
        | some k => (s.ctx k).dumpConsent
        | none => false }
  let s := s.modFaults fun x =>
    { x with
      nextDump := num % 65535 + 1
      dumps := (x.dumps.filter fun o => !(o.sectors.any sectors.contains)) ++ [d] }
  (BitVec.ofNat 16 num,
    sectors.foldl (fun s n => (s.modSector n fun x => { x with dumpArea := some num }).loseRange (s.dumpArea n)) s)

/-! ### Sector reset (12 R431 to R435) -/

/-- Keep the entries of a table whose number the test holds of. -/
def keepTab {α : Type} (p : Nat → Bool) (t : Tab α) : Tab α := t.filter fun e => p e.1

/-- The tiles of a sector start from reset state: registers at their reset values, private memory
zero after the core initialisation image (13 R461), scratchpad contents open (log 33). -/
def State.resetTiles (s : State) (n : Nat) : State :=
  let s := s.scramble (spadAddr (32 * n) 0) (spadAddr (32 * n + 32) 0)
  { s with
    cores := keepTab (fun c => c / 512 != n) s.cores
    tiles := keepTab (fun t => t / 32 != n) s.tiles
    slots := keepTab (fun k => k / 8192 != n) s.slots
    spadPz := ISet.remove (spadUnit (32 * n) 0) (spadUnit (32 * n + 32) 0) s.spadPz
    acmPz := ISet.remove (8192 * n) (8192 * n + 8192) s.acmPz
    privPz := ISet.insert (32768 * n) (32768 * n + 32768) s.privPz }

/-- The ranges of a sector's memory in a tier that a reset leaves unpredictable: all but its dump area (R433,
07 R238). -/
def State.lostRanges (s : State) (tier2 : Bool) (n : Nat) : List (Nat × Nat) :=
  let lo := if tier2 then tier2Base + n * sectorBytes2 else n * sectorBytes1
  let hi := lo + if tier2 then sectorBytes2 else sectorBytes1
  if tier2 == s.hasTier2 then [(lo, (s.dumpArea n).1), ((s.dumpArea n).2, hi)].filter fun r => r.1 < r.2
  else [(lo, hi)]

/-- The sector's tier memory becomes unpredictable; homing is kept. -/
def State.loseTier (s : State) (tier2 : Bool) (n : Nat) : State := (s.lostRanges tier2 n).foldl State.loseRange s

/-- Table 12.8 steps 2 to 4: the sector core domain, the compute domain and the memory. -/
def State.resetCore (s : State) (n : Nat) : State :=
  let s := ((s.resetTiles n).loseTier false n).loseTier true n
  let s := (s.setEngine (2 * n) {}).setEngine (2 * n + 1) {}
  let s := s.modSector n fun x => { x with drawn := [], phase := 0, phaseTile := 0 }
  let s := s.invalidate fun line => placeSector (line * 128) == n
  { s with replay := keepTab (fun k => k / 8192 != n) s.replay }

/-- Abandon the Lehr visits of a sector (11 R399). -/
def State.dropVisits (s : State) (n : Nat) : State :=
  (physOfSector n).foldl (fun s p =>
    if (s.phy p).visit.isSome then s.modPhy p fun x => { x with visit := none, fails := 0 } else s) s

/-- A visit of a tile, which waits while the tile is at thermal level 2 or 3 (14 R487). -/
def Phys.newVisit (x : Phys) : Visit := { waits := decide (2 ≤ x.thermLevel) }

/-- LEHR tiles other than the checker start their visits again (R433); the phase register names the last. -/
def State.restartVisits (s : State) (n : Nat) : State :=
  (physOfSector n).foldl (fun s p =>
    if (s.phy p).cad = .lehr ∧ !(s.phy p).checker then
      (s.modPhy p fun x => { x with visit := some x.newVisit, fails := 0 }).modSector n fun x =>
        { x with phase := 2, phaseTile := localOfPhys p }
    else s) s

/-- The record of a SECTOR fault of sector n, with the context that owns it. -/
def State.sectorRecord (s : State) (n cause action : Nat) (detail : List Byte) (unit dump : Half)
    (before : Option Ctx) : State :=
  let r : FaultRec := { cls := 3, action, cause := BitVec.ofNat 16 cause, sector := BitVec.ofNat 8 n
                        unit, dump, detail }
  s.record (match s.owner n, before with
    | some k, some b => r.ofCtx k b (s.ctx k)
    | _, _ => r)

def causeSectorOut : Nat := 0x0307

/-- The sector becomes OUT, with cause SECTOR_OUT (R435, 13 R459). -/
def State.goOut (s : State) (n : Nat) : State :=
  let s := (s.modSector n fun x => { x with reset := none }).setSectorSt n .out
  s.sectorRecord n causeSectorOut actOut [] 0xFFFF 0 ((s.owner n).map s.ctx)

/-- Abort the context that owns a sector, if one does. -/
def State.abortOwner (s : State) (n : Nat) : State :=
  match s.owner n with
  | some k => s.abortCtx k
  | none => s

/-- A SECTOR fault: the owner is aborted and the sector is reset from step 1, unless it is out of
service; a fourth attempt, or a second failure of full training, makes it OUT (R431, R434, R435). -/
def State.sectorFault (s : State) (n cause : Nat) (detail : List Byte := []) (unit : Half := 0xFFFF)
    (training : Bool := false) : State :=
  let before := (s.owner n).map s.ctx
  let x := s.sector n
  if !x.st.inService || s.plumb.outOfService then
    (s.abortOwner n).sectorRecord n cause actNone detail unit 0 before
  else
    let old := x.reset
    let prog : ResetProg := match old with
      | none => { attempts := 1, trainFails := bit training, cause := BitVec.ofNat 16 cause }
      | some p => { attempts := p.attempts + 1, trainFails := p.trainFails + bit training
                    cause := BitVec.ofNat 16 cause }
    let s := if old.isNone && s.faults.escOn then
        s.modFaults fun f => { f with escStarts := f.escStarts ++ [s.deviceTime] }
      else s
    let s := (s.modSector n fun x => { x with reset := some prog }).setSectorSt n .fenced
    let s := (s.abortOwner n).dropVisits n
    if 3 < prog.attempts ∨ 2 ≤ prog.trainFails then
      (s.sectorRecord n cause actOut detail unit 0 before).goOut n
    else
      let (d, s) := s.takeDump [n] (BitVec.ofNat 16 cause) 3
      let s := s.sectorRecord n cause actReset detail unit d before
      (s.resetCore n).setSectorSt n .resetting

/-! ### Teardown (10 Table 10.10) -/

/-- A packet of a context in the on-die networks. -/
def ofCtx (k : Nat) (p : Packet) : Bool := (routeOf p).ctx.toNat == k

/-- Requests that an engine's place has outstanding: reads, and writes and refused reads not acknowledged. -/
def Place.outstanding (p : Place) : Nat := p.reads.length + p.writes.length + p.readAcks

/-- Requests of a context that its units wait for: DMA and TILEFEED, PUT and GET, atomic units. -/
def State.requests (s : State) (k : Nat) : Nat :=
  let mine := fun (p : Place) => match p.desc with
    | some d => if (s.queue d.1 d.2.1).ctx = k then p.outstanding else 0
    | none => 0
  (s.engines.map fun (e : Nat × Engine) => mine e.2.p0 + mine e.2.p1).sum
    + (s.fabric.running.map fun r => if (s.queue r.f r.slot).ctx = k then r.issued.length else 0).sum
    + (s.cores.filter fun (e : Nat × Core) => s.coreIn k e.1 && e.2.atom.busy).length

/-- Does a transport store keep the packet? -/
def State.isKept (s : State) (k : LinkPacket) : Bool := s.fabric.flows.any fun f => f.kept.any (·.pkt == k)

/-- Is a packet bound for sectors under reset alone? It counts as retired at step 2 of the reset (Table 12.9). -/
def State.countsRetired (s : State) (k : Packet) : Bool :=
  !(sectorsFor k).isEmpty && (sectorsFor k).all fun n => (s.sector n).reset.isSome

/-- CTX_TXN (Table 10.2): requests of the context not yet answered, and its packets in the networks, at the
egress ports and in the transport stores; one that a store keeps counts once. -/
def State.txn (s : State) (k : Nat) : Nat :=
  let live := fun p => ofCtx k p && !s.countsRetired p
  s.requests k + ((s.net.slots ++ s.net.sources).filter fun x => live x.pkt).length
    + (s.net.ejected.filter fun p => live (.control p)).length
    + (s.net.ejectedBulk.filter fun p => live (.bulk p)).length
    + (s.fabric.waiting.filter fun e => match e.owner with
        | some o => o.1 == k
        | none => false).length
    + (s.fabric.flows.map fun (f : Flow) => (f.kept.filter fun e => match e.owner with
        | some o => o.1 == k
        | none => false).length).sum
    + (s.fabric.ports.map fun p => (p.2.egress.filter fun e => match e.owner with
        | some o => o.1 == k && !s.isKept e.pkt
        | none => false).length).sum

/-- CTX_TXN is set to 0: the packets of the context are gone. -/
def State.dropTxn (s : State) (k : Nat) : State :=
  s.modNet fun n =>
    { n with
      slots := n.slots.filter fun x => !ofCtx k x.pkt
      sources := n.sources.filter fun x => !ofCtx k x.pkt
      ejected := n.ejected.filter fun p => p.route.ctx.toNat != k
      ejectedBulk := n.ejectedBulk.filter fun p => p.route.ctx.toNat != k }

/-- Steps 1 to 3, on a context that is neither FREE nor in TEARDOWN. -/
def State.startTeardown (s : State) (k : Nat) : State :=
  let x := s.ctx k
  if x.st = .free ∨ x.st = .teardown then s
  else
    let raise := x.job ≠ 0 ∧ x.st ≠ .aborted
    let epoch := if raise then x.epoch + 1 else x.epoch
    let s := s.modCtx k fun x =>
      { x with st := .teardown, gen := x.gen + 1, epoch, probeSince := none, progressed := false, tdStep := 4 }
    let s := s.modDelash fun d =>
      { d with apt := d.apt.map fun a => (a.1, if a.2.ctx = k then { a.2 with valid := false } else a.2) }
    let s := if raise then s.sendAbort x.job epoch else s
    let s := (s.completeAll k fun _ => stAborted).abortFlush k
    { s with queues := s.queues.filter fun q => !(q.2.present && q.2.ctx == k) }

/-- The operation of a context's teardown ends with OK, and its ID may be used again (R376). -/
def State.endTeardownOp (s : State) (k : Nat) : State :=
  s.modDelash fun d => { d with ops := d.ops.map fun o =>
    match o.work with
    | .teardown j g =>
      if j = k ∧ g = (s.ctx k).gen.toNat ∧ o.final.isNone then { o with final := some (BitVec.ofNat 8 stOk, []) } else o
    | _ => o }

/-- Steps 6 to 8: the dump, the granules, pending zero, and the context is FREE. What CTX_STATUS shows of
a context stays until its ID is used again (DEDUCED, log 51). -/
def State.finishTeardown (s : State) (k : Nat) : State :=
  let x := s.ctx k
  let s := s.endTeardownOp k
  let secs := s.sectorsOf k
  let s := if x.dumpConsent && !secs.isEmpty then (s.takeDump secs 0 0).2 else s
  let s := s.releaseGranules k x.homed
  let s := secs.foldl (fun (s : State) n =>
    { s.modSector n fun y => { y with owner := none } with
      spadPz := ISet.insert (spadUnit (32 * n) 0) (spadUnit (32 * n + 32) 0) s.spadPz
      acmPz := ISet.insert (8192 * n) (8192 * n + 8192) s.acmPz
      privPz := ISet.insert (32768 * n) (32768 * n + 32768) s.privPz }) s
  s.setCtx k
    { gen := x.gen, epoch := x.epoch, dumpConsent := x.dumpConsent, periodSeq := x.periodSeq
      dropped := x.dropped, aborts := x.aborts }

/-- Teardowns that wait for sector resets go on once those have ended (step 5). -/
def State.advanceTeardowns (s : State) : State :=
  (List.range 16).foldl (fun s k =>
    if (s.ctx k).tdStep = 5 ∧ (s.sectorsOf k).all (fun n => (s.sector n).reset.isNone) then
      s.finishTeardown k
    else s) s

/-- CTX_TXN_ZERO (10 R376): step 4 ends. -/
def execCtxTxnZero (k : CtxId) (s : State) : Answer :=
  .next (if (s.ctx k).st = .teardown ∧ (s.ctx k).tdStep = 4 ∧ s.txn k = 0 then s.finishTeardown k else s)

def causeTeardownTimeout : Nat := 0x0305

/-- TEARDOWN_TIMEOUT (10 R376 step 5): each owned sector is reset, or its reset is joined. -/
def execTeardownTimeout (k : CtxId) (s : State) : Answer :=
  .next (if (s.ctx k).st = .teardown ∧ (s.ctx k).tdStep = 4 then
      let s := (s.dropTxn k).modCtx k fun x => { x with tdStep := 5 }
      ((s.sectorsOf k).foldl (fun s n =>
        if (s.sector n).reset.isSome then s else s.sectorFault n causeTeardownTimeout) s).advanceTeardowns
    else s)

/-- R332: CTX_ABORT and CTX_DESTROY end a long operation on the context other than its teardown. -/
def State.endOps (s : State) (k : Nat) : State :=
  s.modDelash fun d => { d with ops := d.ops.map fun o =>
    match o.work with
    | .teardown _ _ => o
    | _ => if o.ctx = some k ∧ o.final.isNone then { o with final := some (BitVec.ofNat 8 stAborted, []) }
        else o }

/-- The long operation of a context's teardown (R332). -/
def State.teardownOp (s : State) (k : Nat) : Option LongOp :=
  s.delash.ops.find? fun o => o.final.isNone && match o.work with
    | .teardown j _ => j == k
    | _ => false

/-- CTX_DESTROY (10 R376, R378; 09 R332). -/
def State.ctxDestroy (src : Src) (s : State) (r : List Byte) : Reply :=
  let k := rq r 0 1
  let x := s.ctx k
  match s.teardownOp k with
  | some op =>
    if x.st = .teardown then { st := s, status := some stPending, payload := leBytes 2 op.id.toNat }
    else Reply.fail s stInvalidArg
  | none =>
    let gen := if x.st = .teardown then x.gen else x.gen + 1
    s.long src 0x0202 (.teardown k gen.toNat) (some k) fun s => (s.endOps k).startTeardown k

def execCtxDestroy (src : Src) (s : State) : Answer := .next (s.serve src 0x0202 (State.ctxDestroy src))

def causeHostAbort : Nat := 0x020C

/-- CTX_ABORT (12 R428, R430; 09 R332): on a context already aborted or in teardown it does nothing. -/
def State.ctxAbortCmd (s : State) (r : List Byte) : Reply :=
  let k := rq r 0 1
  let s := if (s.ctx k).dead then s else (s.endOps k).contained k causeHostAbort []
  Reply.ok s (leBytes 2 (s.ctx k).epoch.toNat)

def execCtxAbort (src : Src) (s : State) : Answer := .next (s.serve src 0x0203 State.ctxAbortCmd)

/-! ### DEVICE faults (12 R436, R437) -/

/-- The DEVICE causes after which every sector is dumped (R437, R443). -/
def dumpsAfter (cause : Nat) : Bool := cause == 0x0403 || cause == 0x0404 || cause == 0x0406

/-- Every Mirura port stops sending and is held down. -/
def State.stopPorts (s : State) : State :=
  (List.range 16).foldl (fun s p =>
    let s := s.modPort p fun x => { x with heldDown := true }
    match (s.port p).st with
    | .up | .training => s.portDown p
    | _ => s) s

/-- A dump that a DEVICE fault left to the Gaffer's restart, and its number in the fault's record (R437). -/
def State.takeDue (s : State) : State :=
  match s.faults.dumpDue with
  | none => s
  | some (secs, cause, seq) =>
    let (d, s) := s.takeDump secs cause 4
    s.modFaults fun x =>
      { x with
        dumpDue := none
        log := x.log.map fun e => (e.1, if e.2.seq = seq then { e.2 with dump := d } else e.2)
        dumps := x.dumps.map fun o => if o.num = d.toNat then { o with faultSeq := seq } else o }

/-- Is the sector powered: in service, or OUT since it was enabled (R443; 13 R455)? -/
def Sector.dumpable (x : Sector) : Bool := x.st.inService || (x.st == .out && x.enabled)

/-- A DEVICE fault (R436). After a cause that leaves a dump firmware takes it of every powered sector: once the
hardware has acted, or when a boot or a restart in progress has ended. -/
def State.deviceFault (s : State) (cause : Nat) (sector : Byte := 0xFF) : State :=
  let rec' : FaultRec := { cls := 4, action := actOos, cause := BitVec.ofNat 16 cause, sector }
  if s.plumb.outOfService then s.record rec'
  else
    let fence := (List.range 16).filter fun n => (s.sector n).st.inService
    let secs := (List.range 16).filter fun n => (s.sector n).dumpable
    let due := if dumpsAfter cause && s.plumb.gaffer != .halted && !secs.isEmpty then
        some (secs, BitVec.ofNat 16 cause, s.faults.nextSeq)
      else none
    let s := (s.record rec').modFaults fun x => { x with modFault := true, dumpDue := due }
    let s := (List.range 16).foldl (fun s k => s.abortCtx k) s
    let s := s.stopPorts
    let s := (s.modPlumb fun p => { p with outOfService := true }).alert alertConfig
    let s := fence.foldl (fun s n => (s.modSector n fun x => { x with reset := none }).setSectorSt n .fenced) s
    if s.gafferUp then s.takeDue else s

def causeFabricDomain : Nat := 0x0403
def causeIoDie : Nat := 0x0404
def causeEscalation : Nat := 0x0406
def causeGafferHalted : Nat := 0x0402

/-- FABRIC_DOMAIN (12 R436). -/
def execFabricDomain (n : SectorId) (s : State) : Answer :=
  .next (s.deviceFault causeFabricDomain (BitVec.ofNat 8 n))

/-- IO_DIE (12 R436). -/
def execIoDie (_d : Fin 2) (s : State) : Answer := .next (s.deviceFault causeIoDie)

/-! ### Sector faults and resets as commands -/

/-- SECTOR_HW (12 R431). -/
def execSectorHw (n : SectorId) (s : State) : Answer := .next ((s.sectorFault n 0x0301).advanceTeardowns)

/-- SECTOR_RESET (12 R431, R434). -/
def State.sectorResetCmd (src : Src) (s : State) (r : List Byte) : Reply :=
  let mask := BitVec.ofNat 16 (rq r 0 2)
  if (setBits mask).any fun n => !(s.sector n).st.inService then Reply.fail s stInvalidArg
  else if mask = 0 then Reply.ok s
  else s.long src 0x0901 (.sectorReset mask) none fun s =>
    (setBits mask).foldl (fun s n =>
      if (s.sector n).reset.isSome then s else s.sectorFault n 0x0306) s

def execSectorReset (src : Src) (s : State) : Answer :=
  .next (s.serve src 0x0901 (State.sectorResetCmd src))

/-- R448: have N resets begun within the window, since the mode was turned on? -/
def State.escalates (s : State) : Bool :=
  s.faults.escOn && decide (s.faults.escN ≤
    (s.faults.escStarts.filter fun t =>
      decide (s.deviceTime.toNat ≤ t.toNat + s.faults.escWindow * 1000000000)).length)

def causeChannelFailed : Nat := 0x0302

/-- SECTOR_TRAINING_FAIL (12 R435): a channel fails full training during a sector reset. -/
def execSectorTrainingFail (n : SectorId) (ch : ChannelId) (s : State) : Answer :=
  .next (if (s.sector n).reset.isNone ∨ channelSector ch ≠ n.val ∨ !s.channelPowered ch then s
    else (s.sectorFault n causeChannelFailed (leBytes 2 ch) (BitVec.ofNat 16 ch) true).advanceTeardowns)

/-- LIVE_RETRAIN (07 R245, R246): the channel retrains while its requests wait; a failure is a
SECTOR fault. -/
def execLiveRetrain (ch : ChannelId) (ok : Bool) (s : State) : Answer :=
  let n := channelSector ch
  .next (if !s.channelOn ch || !(s.sector n).st.inService then s
    else
      let s := s.modChannel ch fun c => { c with retrain := bump c.retrain }
      if ok then s
      else (s.sectorFault n causeChannelFailed (leBytes 2 ch) (BitVec.ofNat 16 ch)).advanceTeardowns)

/-- ESCALATION_CFG (12 R448). -/
def State.escalationCmd (s : State) (r : List Byte) : Reply :=
  if rq r 0 1 = 0 then Reply.ok (s.modFaults fun f => { f with escOn := false, escStarts := [] })
  else
    let was := s.faults.escOn
    let s := s.modFaults fun f =>
      { f with
        escOn := true, escN := rq r 2 2, escWindow := rq r 4 4
        escSince := if was then f.escSince else s.deviceTime
        escStarts := if was then f.escStarts else [] }
    Reply.ok (if was then s else s.alert alertConfig)

def execEscalationCfg (src : Src) (s : State) : Answer := .next (s.serve src 0x0902 State.escalationCmd)

/-! ### Watchdogs (12 R425 to R427) -/

def causeKernelWatchdog : Nat := 0x0208

/-- KERNEL_WATCHDOG (12 R425; 10 R367). -/
def execKernelWatchdog (f : FnId) (slot : SlotId) (id : Nat) (s : State) : Answer :=
  let k := (s.queue f slot).ctx
  let x := s.ctx k
  .next (match s.desc f slot id with
    | none => s
    | some d =>
      if s.gafferUp && d.type == 1 && d.dispatched && x.watchdogMs != 0 && !x.dead && x.st != .drained
          && s.passed d.tStart (x.watchdogMs * 1000000 + d.drainedNs) then
        s.contained k causeKernelWatchdog
          (leBytes 2 d.tag ++ leBytes 1 slot ++ List.replicate 5 0 ++ leBytes 8 d.tStart.toNat)
      else s)

def sixtySeconds : Nat := 60000000000

/-- Does a time lie within the last 60 s? -/
def State.within60 (s : State) (t : DWord) : Bool := decide (s.deviceTime.toNat ≤ t.toNat + sixtySeconds)

/-- SECCTL_WATCHDOG (12 R426): the controller restarts, or its sector is reset. `busy` says that it expired
during a migration or a spill, which the model runs whole within a step. -/
def execSecctlWatchdog (n : SectorId) (imageOk busy : Bool) (s : State) : Answer :=
  let x := s.sector n
  let hang := x.reset.isSome || !imageOk || busy
    || (physOfSector n).any (fun p => (s.phy p).visit.isSome)
    || (match x.lastWatchdog with
        | some t => s.within60 t
        | none => false)
  .next (if !x.st.inService then s
    else
      let s := s.modSector n fun x => { x with lastWatchdog := some s.deviceTime }
      if hang then (s.sectorFault n 0x0303).advanceTeardowns
      else s.record { cls := 1, action := actRestart, cause := 0x0104, sector := BitVec.ofNat 8 n })

/-- Hardware answers every PENDING request BUSY (09 R346); the MCTP endpoint's is dropped. -/
def State.answerBusy (s : State) : State :=
  let s := (List.range 16).foldl (fun s f => s.answer (.mailbox (Fin.ofNat 16 f)) stBusy []) s
  s.modDelash fun d => { d with order := [], bmcBuf := none }

/-- A Gaffer restart begins (12 Table 12.6 step 1; 09 R346). -/
def State.gafferRestart (s : State) (cause : Nat) : State :=
  let s := (s.modPlumb fun p => { p with gaffer := .restarting }).modFaults fun f =>
    { f with restartAt := s.deviceTime, restartCause := cause
             gafferRestarts := s.deviceTime :: f.gafferRestarts.take 2 }
  s.answerBusy

/-- The Gaffer halts (12 R427). -/
def State.gafferHalt (s : State) : State :=
  let s := (s.modPlumb fun p => { p with gaffer := .halted }).answerBusy
  (s.modFaults fun x => { x with dumpDue := none }).deviceFault causeGafferHalted

/-- A watchdog expiry or a lockstep mismatch: a restart, or a halt within 60 s of the third restart
before it. -/
def State.gafferFail (s : State) (cause : Nat) (rec' : Half) : State :=
  if !s.gafferUp then s
  else match s.faults.gafferRestarts[2]? with
    | some t => if s.within60 t then s.gafferHalt
        else (s.gafferRestart cause).record { cls := 1, action := actRestart, cause := rec' }
    | none => (s.gafferRestart cause).record { cls := 1, action := actRestart, cause := rec' }

/-- GAFFER_WATCHDOG (12 R427). -/
def execGafferWatchdog (s : State) : Answer := .next (s.gafferFail 1 0x0102)

/-- LOCKSTEP_MISMATCH (01 R41; 12 R427). -/
def execLockstepMismatch (_pair : Fin 2) (s : State) : Answer := .next (s.gafferFail 2 0x0103)

/-- The time that a Gaffer restart has to reach RUNNING: 1 s (12 R427). -/
def restartLimit : Nat := 1000000000

/-- GAFFER_RESTART_TIMEOUT (12 R427). -/
def execGafferRestartTimeout (s : State) : Answer :=
  .next (if s.plumb.gaffer = .restarting ∧ s.passed s.faults.restartAt restartLimit then s.gafferHalt else s)

/-- Does the boot ROM accept a slot (13 R458)? -/
def Flash.accepts (f : Flash) (x : FwSlot) : Bool := x.authentic && decide (f.svnFloor ≤ x.svn)

/-- PLB_REV after authentication: Delash 4.1, Mirura 2 (09 Table 9.4). -/
def FwSlot.rev (x : FwSlot) : Word :=
  BitVec.ofNat 32 (x.major.toNat + 2 ^ 8 * x.minor.toNat + 2 ^ 16 * 0x41 + 2 ^ 24 * 0x02)

/-- Firmware of a slot runs from now on. -/
def State.runSlot (s : State) (b : Bool) : State :=
  let x := if b then s.flash.slotB else s.flash.slotA
  let t := (s.modPlumb fun p => { p with rev := x.rev, fwPatch := x.patch, fwSlotB := b }).modFlash fun f =>
    { f with runningSince := s.deviceTime, copied := !b || f.slotA == f.slotB }
  if b && !s.plumb.fwSlotB then t.alert alertConfig else t

/-- The records held during the restart, by TIME, then sector, those of no sector last (12 R422). -/
def insertHeld (r : FaultRec) : List FaultRec → List FaultRec
  | [] => [r]
  | x :: xs =>
    if r.time.toNat < x.time.toNat ∨ (r.time = x.time ∧ r.sector.toNat < x.sector.toNat) then r :: x :: xs
    else x :: insertHeld r xs

def State.writeHeld (s : State) : State :=
  let rs := (s.sectors.flatMap fun e => e.2.held) ++ s.faults.held
  let clear := fun (e : Nat × Sector) => (e.1, { e.2 with held := [] })
  let s := { s with sectors := s.sectors.map clear }
  let s := s.modFaults fun f => { f with held := [] }
  (rs.foldl (fun l r => insertHeld r l) []).foldl State.writeRecord s

/-- GAFFER_RESTART_END (12 Table 12.6 steps 3 to 5; 09 R346). Slot B is the slot that was running until a session
erases it for a new image (13 R468). -/
def execGafferRestartEnd (s : State) : Answer :=
  let cause := s.faults.restartCause
  let wantB := cause == 3 || (s.plumb.fwSlotB && s.flash.session.isNone)
  let useB := wantB && s.flash.accepts s.flash.slotB
  .next (if s.plumb.gaffer ≠ .restarting then s
    else if s.passed s.faults.restartAt (restartLimit + 1) || (!useB && !s.flash.accepts s.flash.slotA) then s.gafferHalt
    else
      let s := (s.runSlot useB).modFlash fun f =>
        { f with activated := useB && cause == 3, session := if cause = 3 then none else f.session }
      let s := s.modPlumb fun p =>
        { p with gaffer := if s.boot.hostSeq then .waitHost else .running
                 restarts := satAdd 255 p.restarts 1, lastCause := cause }
      (((s.alert alertGaffer).writeHeld).takeDue).takeFront)

/-! ### ABORT_IN# (12 R439) -/

def causeBoardAbort : Nat := 0x0504

/-- ABORT_IN: asserted for at least 100 ns. -/
def execAbortIn (s : State) : Answer :=
  .next (if s.faults.abortIn then s
    else
      let s := s.modFaults fun f => { f with abortIn := true }
      (List.range 16).foldl (fun s k =>
        if (s.ctx k).st = .free ∨ (s.ctx k).job = 0 then s else s.abortFault k 5 causeBoardAbort []) s)

/-- ABORT_IN_RELEASE: with it, ABORT_OUT# follows MOD_FAULT# alone. -/
def execAbortInRelease (s : State) : Answer := .next (s.modFaults fun f => { f with abortIn := false })

/-- ABORT_OUT# (R439). -/
def State.abortOut (s : State) : Bool := s.faults.abortIn || s.faults.modFault

/-! ### Background zeroing of a tile (10 R379) -/

/-- BACKGROUND_ZERO_TILE: one pending unit is zeroed and its bit clears. -/
def execBackgroundZeroTile (t : TileId) (u : ZeroUnit) (s : State) : Answer :=
  .next (match u with
    | .spad kib => if kib < 3072 then s.settle (spadAddr t (kib * 1024)) else s
    | .acm core slot =>
      let c := t.val * 16 + core
      if ISet.mem s.acmPz (c * 16 + slot) then s.setSlot c slot (s.slot c slot) else s
    | .priv core kib =>
      let n := (t.val * 16 + core) * 64 + kib
      if ISet.mem s.privPz n then
        { s with
          priv := Cells.clear s.priv (n * 1024) (n * 1024 + 1024)
          privPz := ISet.remove n (n + 1) s.privPz }
      else s)

end Sys2Proof.Machine
end

