-- ==== Sys2Proof/Machine/Healing.lean ====
section
/-! DEFINITION. The Cadastre, the Traverse, Lehr visits, migrations and the cross-check (11 R381 to
R419; 10 R373, R374). A migration is one step of the model. -/
namespace Sys2Proof.Machine

/-! ### Scores and the choice of tiles (11 R391, Table 11.2) -/

/-- TAVG: the mean of the readings of the last 60 s. -/
def Phys.tavg (x : Phys) : Nat :=
  if x.tempLog.isEmpty then 0 else (x.tempLog.map (·.2)).sum / x.tempLog.length

/-- SCORE. -/
def Phys.score (x : Phys) : Nat := 8 * x.drift.toNat + x.tavg

/-- The tile with the lowest, or the highest, score; ties go to the one that comes first. -/
def State.lowest (s : State) : List Nat → Option Nat
  | [] => none
  | p :: ps => some (ps.foldl (fun b q => if (s.phy q).score < (s.phy b).score then q else b) p)
def State.highest (s : State) : List Nat → Option Nat
  | [] => none
  | p :: ps => some (ps.foldl (fun b q => if (s.phy b).score < (s.phy q).score then q else b) p)

/-- The tile of a pool that takes over. -/
def State.coolest (s : State) (pool : List Nat) : Option Nat :=
  match s.lowest (pool.filter fun p => !(s.phy p).marginOnly) with
  | some p => some p
  | none => s.lowest pool

def State.spares (s : State) (n : Nat) : List Nat :=
  (physOfSector n).filter fun p => (s.phy p).cad == .spare

/-- The takeover tile of a sector: a SPARE, or the checker. -/
def State.takeover (s : State) (n : Nat) : Option Nat :=
  s.coolest ((physOfSector n).filter fun p => (s.phy p).cad == .spare || (s.phy p).checker)

/-! ### The checker (11 R407) -/

/-- Drop the samples that a sector's checker holds; they count as skipped. -/
def State.dropSamples (s : State) (n : Nat) : State :=
  s.modSector n fun x => { x with xSkipped := satAdd 0xFFFFFFFF x.xSkipped x.drawn.length, drawn := [] }

/-- CHECKER_RELEASE: the checker returns to SPARE. -/
def State.releaseChecker (s : State) (n p : Nat) : State :=
  if (s.phy p).checker then
    (s.dropSamples n).modPhy p fun x => { x with cad := .spare, checker := false }
  else s

/-- Choose a checker from the SPAREs of a sector that has none. -/
def State.chooseChecker (s : State) (n : Nat) : State :=
  if !s.crossCheckRuns n || (s.checkerOf n).isSome then s
  else match s.coolest (s.spares n) with
    | some p => s.modPhy p fun x => { x with cad := .lehr, checker := true }
    | none => s

def State.chooseCheckers (s : State) : State := (List.range 16).foldl State.chooseChecker s

/-! ### Lehr visits (11 R394 to R399) -/

def day : Nat := 86400000000000

/-- R414: two mismatches within 24 hours. -/
def twoWithinDay : List DWord → Bool
  | a :: b :: ts => decide (b.toNat ≤ a.toNat + day) || twoWithinDay (b :: ts)
  | _ => false

/-- LEHR_VISIT begins: the tile is withdrawn for test. On a tile at thermal level 2 or 3 the visit starts once it
is below level 2 (14 R487). -/
def State.beginVisit (s : State) (p phase : Nat) : State :=
  let s := s.modPhy p fun x =>
    { x with cad := .lehr, checker := false, index := none, visit := some x.newVisit, fails := 0 }
  s.modSector (sectorOfPhys p) fun x =>
    { x with phase, phaseTile := localOfPhys p, cadDirty := true }

/-- A run that the visit has reached: slices 0 to 3, each at nominal voltage and then at -40 mV; in
the retest, each slice twice at nominal. -/
def Visit.expects (v : Visit) (slice : Nat) (margin : Bool) : Bool :=
  if v.retest then !margin && decide (v.runs.length < 8) && v.runs.length / 2 == slice
  else decide (v.runs.length < 8) && v.runs.length / 2 == slice && (v.runs.length % 2 == 1) == margin

/-- A run of the visit ends; after the eighth, a failure starts the retest. -/
def Visit.run (v : Visit) (slice : Nat) (margin fail : Bool) : Visit :=
  let w := { v with runs := v.runs ++ [(slice, margin)] }
  if v.retest then { w with retestRuns := v.retestRuns + 1, retestFail := v.retestFail || fail }
  else
    let w := { w with anyFail := v.anyFail || fail, nominalFail := v.nominalFail || (fail && !margin) }
    if w.runs.length = 8 ∧ w.anyFail then { w with runs := [], retest := true } else w

/-- A run of a tile's visit: a signature that is not the Benchmark fails it (R395, R397). -/
def Phys.lbistRun (x : Phys) (v : Visit) (slice : Nat) (margin : Bool) (misr : DWord) : Phys :=
  let fail := misr != Config.benchmark slice
  { x with
    visit := some { v.run slice margin fail with abandoned := false }
    lbistFail := if fail then satAdd 0xFFFF x.lbistFail 1 else x.lbistFail
    fails := if !fail then x.fails else if v.retest then 2 else 1 }

/-- The end of a visit: the memory test's failing words, and whether the tile passed (R397, R414). -/
def Phys.visitPasses (x : Phys) (v : Visit) (memFails : Nat) : Bool :=
  !v.retestFail && memFails == 0 && !twoWithinDay x.mismatchAt

/-- Step 4 of Table 11.6 on what a physical tile holds of its own: every register at its reset value. -/
def Phys.reinit (x : Phys) : Phys := { x with peak := 0, misroute := 0 }

/-- A tile that passed its visit is a SPARE, reinitialised. -/
def Phys.visitPassed (x : Phys) (v : Visit) : Phys :=
  { x.reinit with
    cad := .spare, visit := none, fails := 0, visited := true
    marginOnly := if v.anyFail then x.marginOnly || !v.nominalFail else false }

/-- LBIST_RUN (11 R394, R395, R397): one slice of a visit at nominal voltage or 40 mV below. On a tile
at thermal level 2 or 3 the run is abandoned and comes again (14 R487, LBIST_ABANDON). -/
def execLbistRun (p : PhysId) (slice : Fin 4) (margin : Bool) (misr : DWord) (s : State) : Answer :=
  let x := s.phy p
  let n := sectorOfPhys p
  .next (match x.visit with
    | none => s
    | some v =>
      if !v.expects slice margin || v.waits then s
      else if 2 ≤ x.thermLevel then s.modPhy p fun x => { x with visit := some { v with abandoned := true } }
      else
        let y := x.lbistRun v slice margin misr
        let s := s.modPhy p fun x => x.lbistRun v slice margin misr
        if (s.sector n).phaseTile != localOfPhys p then s
        else match y.visit with
          | some w => s.modSector n fun z => { z with phase := if w.finished then 4 else if w.retest then 3 else z.phase }
          | none => s)

def causeCapacityLost : Nat := 0x020B

/-- R389, SECTOR_OUT: a sector below 24 usable tiles. -/
def State.sectorOut (s : State) (n : Nat) (detail : List Byte) : State :=
  let s := match s.owner n with
    | some k => s.contained k causeCapacityLost detail (sector := BitVec.ofNat 8 n)
    | none => s
  s.goOut n

/-- Tables 11.3 and 11.4: the Cadastre of a sector has lost a tile. `lost` is the logical tile that
is withdrawn; where none is, DETAIL is a free value (log 43). -/
def State.afterLoss (s : State) (n : Nat) (lost : Option Nat) : State :=
  let s := s.countSector n
  let x := s.sector n
  if x.st = .out ∨ x.st = .off then s
  else if x.usable < 24 then
    match lost with
    | some t => s.sectorOut n (leBytes 2 t)
    | none =>
      let (i, s) := s.fresh
      s.sectorOut n (leBytes 2 (Config.free 16 i).toNat)
  else if x.st = .up ∨ x.st = .degraded then s.setSectorSt n (sectorStOf x.usable)
  else s

/-- A tile enters CULLET: its fuse is blown, but not in RETIRED (R417), and its compute domain goes off (R383,
R33). -/
def State.cullet (s : State) (p : Nat) : State :=
  let s := s.modPhy p fun x =>
    { x with cad := .cullet, checker := false, index := none, visit := none, fails := 0
             fuseCullet := x.fuseCullet || s.lifecycle != 5, powered := false }
  s.modSector (sectorOfPhys p) fun x =>
    { x with cadDirty := true
             phase := if x.phaseTile = localOfPhys p then 0 else x.phase }

/-- LEHR_VISIT_END (11 R397, R414, Table 11.6 steps 4 and 5): the memory test, then SPARE or CULLET. -/
def execLehrVisitEnd (p : PhysId) (memFails : Nat) (s : State) : Answer :=
  let x := s.phy p
  let n := sectorOfPhys p
  .next (match x.visit with
    | none => s
    | some v =>
      if !v.finished then s
      else
        let s := s.modPhy p fun x => { x with eccUe := satAdd 0xFFFF x.eccUe memFails }
        if !x.visitPasses v memFails then (s.cullet p).afterLoss n none
        else
          let s := s.modPhy p fun x => x.visitPassed v
          let s := s.modSector n fun y =>
            { y with cadDirty := true, phase := if y.phaseTile = localOfPhys p then 0 else y.phase }
          (s.countSector n).chooseChecker n)

/-- SCAN_NO_ANSWER (11 R398): no answer to scan at isolation. -/
def execScanNoAnswer (p : PhysId) (s : State) : Answer :=
  .next (match (s.phy p).visit with
    | some v => if v.runs.isEmpty && !v.retest && !v.waits then (s.cullet p).afterLoss (sectorOfPhys p) none else s
    | none => s)

/-! ### Migration (11 R400 to R405, Table 11.7; 06 Table 6.11) -/

/-- Step 6: b carries t's index and a is withdrawn, unbound; HOLD clears. Packets that a's cores and bulk ports wait to inject
are injected at b; a's router keeps those of its sector store port. -/
def State.switchMap (s : State) (t a b : Nat) : State :=
  let s := s.modPhy b fun x =>
    { x with cad := .good, checker := false, index := some (t % 32), visit := none, fails := 0 }
  let s := s.modPhy a fun x => { x with cad := .lehr, index := none }
  let s := (s.setHold t b false).modNet fun n =>
    { n with sources := n.sources.map fun x => if x.at_ = a ∧ x.port ≠ 2 then { x with at_ := b } else x }
  s.modSector (sectorOfPhys a) fun x => { x with cadDirty := true }

/-- Step 4 of Table 11.6 on a logical tile: every word zero, every register at its reset value. -/
def State.reinitTile (s : State) (t : Nat) : State :=
  let s := s.clearBytes (spadAddr t 0) (spadAddr (t + 1) 0)
  { s with
    cores := keepTab (fun c => c / 16 != t) s.cores
    tiles := keepTab (fun u => u != t) s.tiles
    slots := keepTab (fun k => k / 256 != t) s.slots
    priv := Cells.clear s.priv (t * 16 * 65536) ((t + 1) * 16 * 65536)
    spadPz := ISet.remove (spadUnit t 0) (spadUnit (t + 1) 0) s.spadPz
    acmPz := ISet.remove (t * 256) (t * 256 + 256) s.acmPz
    privPz := ISet.remove (t * 1024) (t * 1024 + 1024) s.privPz }

def causeTileLost : Nat := 0x020A

/-- R403: the source is lost. The takeover tile starts from zero and the context is aborted. Which of the four
causes it was is open: an uncorrectable error counts in ECC_UE of the source (R415), a free value. -/
def State.loseSource (s : State) (t a b : Nat) : State :=
  let (n, s) := s.fresh
  let s := s.modPhy a fun x => { x with eccUe := satAdd 0xFFFF x.eccUe (Config.free 1 n).toNat }
  let s := (((s.switchMap t a b).reinitTile t).modPhy b Phys.reinit).beginVisit a 2
  match s.ownerOfTile t with
  | some k => s.contained k causeTileLost (leBytes 2 t ++ leBytes 2 a) (unit := BitVec.ofNat 16 a)
  | none => s

/-- R404: `n` targets fail one after another; each becomes LEHR and the copy goes to the next. The
state after it, and whether the logical tile moved. -/
def State.copyTo (s : State) (sec t a : Nat) : Nat → Nat → State × Bool
  | 0, b => (s.switchMap t a b, true)
  | n + 1, b =>
    let s := s.beginVisit b 2
    match s.takeover sec with
    | none => (s, false)
    | some c => State.copyTo (s.releaseChecker sec c) sec t a n c

/-- Does a migration in the sector copy state (R393, R401)? -/
def State.copies? (s : State) (sec : Nat) : Bool :=
  match s.owner sec with
  | some k => (s.ctx k).st != .drained
  | none => false

/-- The quiescence probe of a sector's context starts anew after a migration (05 R192). -/
def State.restProbe (s : State) (sec : Nat) : State :=
  match s.owner sec with
  | some k => s.modCtx k fun c => { c with probeSince := none, progressed := false }
  | none => s

/-- Has the sector's context been aborted or torn down? -/
def State.ownerDead (s : State) (sec : Nat) : Bool :=
  match s.owner sec with
  | some k => (s.ctx k).dead
  | none => false

/-- MIGRATION of the logical tile that `a` carries, onto the sector's takeover tile; then `a` begins a
Lehr visit, unless the migration was cancelled. It is abandoned when the context is aborted while the last
packets land (Table 11.8). -/
def State.migrate (s : State) (a : Nat) (how : MigrationOutcome) : State :=
  let sec := sectorOfPhys a
  match s.logicalOf a, s.takeover sec with
  | some t, some b =>
    let copy := s.copies? sec
    let dead := s.ownerDead sec
    let s := (((s.releaseChecker sec b).holdTile t).restProbe sec).skipDrawn fun c => tileOf c == t
    let s := if s.ownerDead sec && !dead then s.setHold t a false
      else match how with
      | .sourceLost => if copy then s.loseSource t a b else (s.switchMap t a b).beginVisit a 2
      | .targetFails n =>
        let r := s.copyTo sec t a (if copy then n else 0) b
        if r.2 then r.1.beginVisit a 2 else r.1.setHold t a false
      | .done => (s.switchMap t a b).beginVisit a 2
    s.chooseChecker sec
  | _, _ => s

/-! ### The Traverse (11 R390 to R393) -/

/-- R392, R393, R391: may no step start in the sector now? -/
def State.stepBlocked (s : State) (n : Nat) : Bool :=
  let x := s.sector n
  !s.gafferRuns || x.st != .up || x.reset.isSome || x.paused || decide (x.usable ≤ 32) || s.lifecycle != 2
    || (match s.owner n with
      | some k => (s.ctx k).st == .aborted || (s.ctx k).st == .teardown
      | none => false)

/-- R390: is a step due? The first one is due at once. -/
def State.stepDue (s : State) (n : Nat) : Bool :=
  let x := s.sector n
  x.swapDue || x.lastStep == 0 || s.passed x.lastStep (x.intervalMs * 1000000)

/-- R373: may a swap start in a sector that a periodic context owns? -/
def State.swapPermitted (s : State) (n : Nat) : Bool :=
  match s.owner n with
  | none => true
  | some k =>
    let x := s.ctx k
    x.periodUs == 0 || x.st == .drained
      || ((s.queuesOf k).all (fun q => (s.queue q.1 q.2).descs.all fun d => d.type == 8)
        && decide (s.deviceTime.toNat + 1000000 ≤ x.nextBoundary.toNat))

/-- A migration of a Traverse step. When the context is aborted or torn down before the map switch, the migration
is abandoned and the step counts as not taken (Table 11.8): `before` is the state when it began. -/
def State.stepMove (before s : State) (n r : Nat) (how : MigrationOutcome) : State :=
  let t := s.migrate r how
  if t.ownerDead n && !before.ownerDead n && (t.logicalOf r).isSome then
    let x := before.sector n
    let t := t.modSector n fun y =>
      { y with swapDue := x.swapDue, deferred := x.deferred, lastStep := x.lastStep, cycles := x.cycles }
    (physOfSector n).foldl (fun t p => t.modPhy p fun y => { y with visited := (before.phy p).visited }) t
  else t

/-- The step of R391. A waiting migration of the sector comes first (R400). -/
def State.runStep (s : State) (n : Nat) (how : MigrationOutcome) : State :=
  let before := s
  let s := s.modSector n fun x => { x with swapDue := false, deferred := 0, lastStep := s.deviceTime }
  let tiles := fun (c : CadState) => (physOfSector n).filter fun p => (s.phy p).cad == c
  let new := fun (l : List Nat) => l.filter fun p => !(s.phy p).visited
  match new (tiles .good), new (tiles .spare) with
  | [], [] =>
    let s := (physOfSector n).foldl (fun s p =>
      if (s.phy p).cad.usable then s.modPhy p fun x => { x with visited := false } else s) s
    let s := s.modSector n fun x => { x with cycles := (x.cycles + 1) % 65536, cadDirty := true }
    match s.highest (tiles .good) with
    | some r => before.stepMove s n r how
    | none => s
  | [], cs => match s.highest cs with
    | some t => s.beginVisit t 5
    | none => s
  | cs, _ => match s.highest cs with
    | some r => before.stepMove s n r how
    | none => s

/-- A migration trigger that waits in the sector, if its tile still carries work. -/
def State.waitingMove (s : State) (n : Nat) : Option (Nat × Trigger) :=
  (s.sector n).migrWait.find? fun m => (s.logicalOf m.1).isSome

/-- The migration of a waiting trigger, once a takeover tile exists. -/
def State.runWaiting (s : State) (n : Nat) (how : MigrationOutcome) : Option State :=
  match s.waitingMove n, s.takeover n with
  | some m, some _ =>
    some ((s.modSector n fun x => { x with migrWait := x.migrWait.filter (·.1 != m.1) }).migrate m.1 how)
  | _, _ => none

/-- May a migration start in the sector (R405; Table 11.11)? -/
def State.mayMigrate (s : State) (n : Nat) : Bool :=
  (s.sector n).reset.isNone && ((s.sector n).st == .up || (s.sector n).st == .degraded)
    && (s.lifecycle == 1 || s.lifecycle == 2 || s.lifecycle == 3)

/-- A due step, or the migration that goes ahead of it (R400). -/
def State.stepOrMove (s : State) (n : Nat) (how : MigrationOutcome) : State :=
  match s.runWaiting n how with
  | some t => t
  | none => s.runStep n how

/-- TRAVERSE_STEP (11 R391; 10 R373, R374): a step that R373 holds back falls due. -/
def execTraverseStep (n : SectorId) (how : MigrationOutcome) (s : State) : Answer :=
  .next (if s.stepBlocked n || !s.stepDue n then s
    else if !s.swapPermitted n then s.modSector n fun x => { x with swapDue := true }
    else s.stepOrMove n how)

/-- Is a swap of the sector due (R390; 10 R374)? A step that the conditions of R392 hold back stays due; a sector
whose Traverse does not run has none. -/
def State.swapIsDue (s : State) (n : Nat) : Bool :=
  let x := s.sector n
  s.stepDue n && !x.paused && decide (32 < x.usable) && s.lifecycle == 2

/-- TRAVERSE_SWAP_DEFER (10 R374): a boundary passes in the sector while a swap is due; at the tenth
deferral the swap starts. A migration that waits goes ahead of it (R400). -/
def State.deferSwap (s : State) (n : Nat) : State :=
  let x := s.sector n
  if !s.swapIsDue n then s
  else
    let s := s.modSector n fun x => { x with deferred := min 10 (x.deferred + 1) }
    if x.deferred = 9 ∧ !s.stepBlocked n then ((s.runWaiting n .done).getD s).runStep n .done else s

/-! ### Migration triggers (11 R400) -/

/-- The index of the counter in the order of Table 11.10. -/
def triggerCounter : Trigger → Option Nat
  | .eccCe _ => some 2
  | .droop => some 5
  | .mismatch => none

def causeTileThreshold : Nat := 0x0105

/-- Is the threshold of R400 reached: 16 additions to ECC_CE, 1,000 to DROOP_EVENT, within 1 s? -/
def State.thresholdMet (s : State) (p : Nat) : Trigger → Bool
  | .eccCe _ => decide (16 ≤ (s.recentTimes (s.phy p).ceTimes 0).length)
  | .droop => decide (1000 ≤ (s.recentTimes (s.phy p).droopTimes 0).length)
  | .mismatch => !(s.phy p).mismatchAt.isEmpty

/-- The corrected errors that a trigger brings are counted first. -/
def State.countTrigger (s : State) (p : Nat) : Trigger → State
  | .eccCe n => s.countCe p n
  | _ => s

/-- MIGRATION_TRIGGER: a threshold on a tile, or a mismatch; it waits while the sector has no takeover
tile. Sent again for a tile that waits, it starts the migration that has become possible. -/
def execMigrationTrigger (p : PhysId) (why : Trigger) (how : MigrationOutcome) (s : State) : Answer :=
  let n := sectorOfPhys p
  let s := s.countTrigger p why
  let waits := (s.sector n).migrWait.any (·.1 == p.val)
  .next (if (s.logicalOf p).isNone || !s.mayMigrate n || !(waits || s.thresholdMet p why) then s
    else
      let s := match triggerCounter why with
        | some i => if waits then s else
            s.record { cls := 1, action := actMigrate, cause := BitVec.ofNat 16 causeTileThreshold
                       sector := BitVec.ofNat 8 n, unit := BitVec.ofNat 16 p, detail := leBytes 1 i }
        | none => s
      if (s.takeover n).isSome then
        (s.modSector n fun x => { x with migrWait := x.migrWait.filter (·.1 != p.val) }).migrate p how
      else if waits then s
      else s.modSector n fun x => { x with migrWait := x.migrWait ++ [(p.val, why)] })

/-! ### Cross-check compare (11 R408, R412 to R414) -/

/-- The temperature bin of a reading. -/
def tempBin (c : Nat) : Nat := min 7 ((c - 35) / 10)

def causeXchkMismatch : Nat := 0x0209

/-- XCHK_MISMATCH. -/
def State.xchkMismatch (s : State) (n checker : Nat) (d : XchkSample) (how : MigrationOutcome) : State :=
  let s := s.modSector n fun x => { x with xMismatch := satAdd 0xFFFFFFFF x.xMismatch 1 }
  let hit := fun (s : State) (p : Nat) => s.modPhy p fun x =>
    { x with xchkMismatch := satAdd 0xFFFF x.xchkMismatch 1, mismatchAt := x.mismatchAt ++ [s.deviceTime] }
  let s := hit (hit s d.producer) checker
  let s := { s with xchk := { s.xchk with
    bins := Tab.mod 0 s.xchk.bins (tempBin d.temp) (satAdd 0xFFFF · 1) } }
  let s := (s.dropSamples n).beginVisit checker 2
  let s := if (s.phy d.producer).cad != .good || !s.mayMigrate n then s
    else if (s.takeover n).isSome then s.migrate d.producer how
    else s.modSector n fun x => { x with migrWait := x.migrWait ++ [(d.producer, .mismatch)] }
  match s.ownerOfCore d.core with
  | some k => s.contained k causeXchkMismatch
      (leBytes 2 d.tag.toNat ++ leBytes 2 d.b ++ leBytes 2 d.m ++ leBytes 2 d.n
        ++ leBytes 1 (tempBin d.temp) ++ [0] ++ leBytes 2 checker) (BitVec.ofNat 16 d.core)
      (unit := BitVec.ofNat 16 d.producer)
  | none => s

/-- The elements of a compare, with the bits that a fault of either tile has turned over. -/
def flipElems (flips : List (Nat × BitVec 128)) (es : List (BitVec 128)) : List (BitVec 128) :=
  es.zipIdx.map fun e => (flips.filter (·.1 == e.2)).foldl (fun (v : BitVec 128) f => v ^^^ f.2) e.1

/-- CROSS_CHECK_COMPARE: the oldest sampled block of the sector's checker is recomputed and compared, every
bit of its 256 elements; `flips` are the bits that a fault turns over. -/
def execCrossCheckCompare (n : SectorId) (flips : List (Nat × BitVec 128)) (how : MigrationOutcome)
    (s : State) : Answer :=
  .next (match s.checkerOf n, (s.sector n).drawn with
    | some p, d :: rest =>
      let same := flipElems flips (recomputeSample d) == d.elems
      let s := s.modSector n fun x =>
        { x with xSampled := satAdd 0xFFFFFFFF x.xSampled 1, drawn := rest }
      if same then s else s.xchkMismatch n p d how
    | _, _ => s)

/-! ### Hard failures (11 R388, R389) -/

def causeUnisolatable : Nat := 0x0304

/-- The translation entry of a withdrawn index: the sector's local tile (2, 2), and the mark (06 R214). -/
def withdrawnEntry (n : Nat) : Trans := { phys := physOfLocal n 14, withdrawn := true }

/-- A logical index is withdrawn: its cores halt, and a placement that names it is aborted. -/
def State.withdrawTile (s : State) (t : Nat) : State :=
  let n := sectorOfTile t
  let s := s.modSector n fun x => { x with withdrawn := x.withdrawn ||| oneBit 32 (t % 32) }
  let s := s.modNet fun x => { x with trans := Tab.set x.trans t (withdrawnEntry n) }
  let s := s.modCores (fun c => tileOf c == t) fun _ x => { x with run := .halted, wait := none }
  match s.owner n with
  | some k =>
    if (s.ctx k).placed && (s.ctx k).tileRecs.contains t then
      s.contained k causeCapacityLost (leBytes 2 t) (sector := BitVec.ofNat 8 n)
    else s
  | none => s

/-- TILE_HARD_FAILURE: a GOOD tile that cannot be isolated. A tile of a sector that is powered off does nothing
(01 R35). -/
def execTileHardFailure (p : PhysId) (s : State) : Answer :=
  let n := sectorOfPhys p
  .next (match s.logicalOf p with
    | none => s
    | some t =>
      if !(s.phy p).powered then s
      else match s.takeover n with
      | some b =>
        let s := (((((s.releaseChecker n b).holdTile t).switchMap t p b).reinitTile t).modPhy b Phys.reinit).cullet p
        (((s.afterLoss n none).chooseChecker n).sectorFault n causeUnisolatable (leBytes 2 p) (BitVec.ofNat 16 p)).advanceTeardowns
      | none => ((s.cullet p).withdrawTile t).afterLoss n (some t))

/-- SECTOR_RESET_COMPLETE (12 R431 step 8, R433, R448; 11 R407). -/
def execSectorResetComplete (n : SectorId) (s : State) : Answer :=
  .next (if (s.sector n).reset.isNone then s
    else
      let s := (s.modSector n fun x =>
        { x with reset := none, resets := satAdd 0xFFFF x.resets 1 }).settleSector n
      let s := ((s.alert alertSector).restartVisits n).chooseChecker n
      let s := if s.escalates then s.deviceFault causeEscalation else s
      s.advanceTeardowns)

/-- A port's, a context ID's trouble counters, with everything else as after a module reset. -/
def Port.cold (x : Port) : Port :=
  { crcErr := x.crcErr, replayCtr := x.replayCtr, laneSpared := x.laneSpared, retrain := x.retrain
    stomped := x.stomped }
def Ctx.cold (x : Ctx) : Ctx := { dropped := x.dropped, aborts := x.aborts }

/-- The counters that a flash write saves beside the tiles' (R416). -/
def State.counters (s : State) : CtrRecord where
  ports := s.fabric.ports.map fun (e : Nat × Port) => (e.1, e.2.cold)
  channels := s.channels
  ctxs := s.ctxs.map fun (e : Nat × Ctx) => (e.1, e.2.cold)
  bins := s.xchk.bins

/-- The counters that a flash write saved, on ports and context IDs as after a module reset. -/
def CtrRecord.portTab (r : CtrRecord) : Tab Port := r.ports.map fun (e : Nat × Port) => (e.1, e.2.cold)
def CtrRecord.ctxTab (r : CtrRecord) : Tab Ctx := r.ctxs.map fun (e : Nat × Ctx) => (e.1, e.2.cold)

/-- CADASTRE_FLASH_WRITE (11 R383, R416), which waits for flash work of commands (13 R454): both copies of the sector's record take its present state; the
counters of ports, channels and context IDs are saved with it (DESIGN CHOICE, log 43). -/
def execCadastreFlashWrite (n : SectorId) (s : State) : Answer :=
  let tiles := (physOfSector n).map fun p => (localOfPhys p, { s.phy p with tempLog := [], visit := none })
  let r : CadRecord := { tiles }
  .next (if s.gafferUp && !s.flashBusy then
      (s.modSector n fun x => { x with rec0 := r, rec1 := r, cadDirty := false }).modFlash fun f =>
        { f with counters := s.counters }
    else s)

/-! ### TRAVERSE_CTL, XCHK_CTL, DIAG_BIST_RUN (11 R385, R390, R406, R418; 09 Tables 9.11, 9.12) -/

def State.traverseReply (s : State) : List Byte :=
  leBytes 4 (maskOf 16 fun n => (s.sector n).paused)
    ++ (List.range 16).flatMap fun n => leBytes 4 (s.sector n).intervalMs

/-- Change the sectors of the request's mask. -/
def State.traverseSet (f : List Byte → Sector → Sector) (s : State) (r : List Byte) : Reply :=
  let t := (setBits (BitVec.ofNat 16 (rq r 2 2))).foldl (fun s n => s.modSector n (f r)) s
  Reply.ok t t.traverseReply

/-- TRAVERSE_CTL with OP STATUS. -/
def execTraverseCtlStatus (src : Src) (s : State) : Answer :=
  .next (s.serveOp src 0x0703 0 0 fun s _ => Reply.ok s s.traverseReply)

/-- TRAVERSE_CTL with OP PAUSE. -/
def execTraverseCtlPause (src : Src) (s : State) : Answer :=
  .next (s.serveOp src 0x0703 0 1 (State.traverseSet fun _ x => { x with paused := true }))

/-- TRAVERSE_CTL with OP RESUME. -/
def execTraverseCtlResume (src : Src) (s : State) : Answer :=
  .next (s.serveOp src 0x0703 0 2 (State.traverseSet fun _ x => { x with paused := false }))

/-- TRAVERSE_CTL with OP INTERVAL. -/
def execTraverseCtlInterval (src : Src) (s : State) : Answer :=
  .next (s.serveOp src 0x0703 0 3 (State.traverseSet fun r x => { x with intervalMs := rq r 4 4 }))

def State.xchkReply (s : State) : List Byte :=
  leBytes 1 (bit s.xchk.enabled) ++ leBytes 1 s.xchk.rateLog2 ++ [0, 0]
    ++ (List.range 8).flatMap fun b => leBytes 2 (Tab.get 0 s.xchk.bins b)

/-- XCHK_CTL with OP STATUS. -/
def execXchkCtlStatus (src : Src) (s : State) : Answer :=
  .next (s.serveOp src 0x0704 0 0 fun s _ => Reply.ok s s.xchkReply)

/-- XCHK_CTL with OP ENABLE: sectors choose their checkers. -/
def execXchkCtlEnable (src : Src) (s : State) : Answer :=
  .next (s.serveOp src 0x0704 0 1 fun s _ =>
    let t := { s with xchk := { s.xchk with enabled := true } }.chooseCheckers
    Reply.ok t t.xchkReply)

/-- XCHK_CTL with OP DISABLE: no block is drawn any more. -/
def execXchkCtlDisable (src : Src) (s : State) : Answer :=
  .next (s.serveOp src 0x0704 0 2 fun s _ =>
    let t := { s with xchk := { s.xchk with enabled := false } }
    Reply.ok t t.xchkReply)

/-- XCHK_CTL with OP RATE. -/
def execXchkCtlRate (src : Src) (s : State) : Answer :=
  .next (s.serveOp src 0x0704 0 3 fun s r =>
    let t := { s with xchk := { s.xchk with rateLog2 := rq r 1 1 } }
    Reply.ok t t.xchkReply)

/-- The slices that a request selects. -/
def bistSlices (r : List Byte) : List Nat := setBits (BitVec.ofNat 4 (rq r 2 1))

/-- What a run with the signatures `misr` finds: the slices that fail, and PASS and MISR. -/
def bistResult (misr : List DWord) (r : List Byte) : Nat × List Byte :=
  let slices := bistSlices r
  let bench := rq r 8 8 == 0
  let good := fun (i : Nat) => misr.getD i 0 == Config.benchmark i
  (if bench then (slices.filter fun i => !good i).length else 0,
    leBytes 8 (if bench then ((slices.filter good).map (2 ^ ·)).sum else 0)
      ++ (List.range 4).flatMap fun i => leBytes 8 (if slices.contains i then (misr.getD i 0).toNat else 0))

/-- Does a run take longer than 10 ms: each slice takes 3 ms (R394), and on a tile at thermal level 2 or 3 none
starts (14 R487)? -/
def Phys.bistSlow (x : Phys) (r : List Byte) : Bool :=
  let n := (bistSlices r).length
  decide (10 < 3 * n) || (decide (2 ≤ x.thermLevel) && n != 0)

/-- A run that lasts begins: a SPARE is in LEHR and the compute domain powered for the run (R418). -/
def Phys.bistBegins (x : Phys) (r : List Byte) : Phys :=
  { x with diag := some ((256 - rq r 3 1) % 256), powered := true, cad := if x.cad = .spare then .lehr else x.cad }

/-- DIAG_BIST_RUN (R418): `misr` are the four slices' signatures of the run. One that ends within the command
leaves the tile as it was. -/
def State.bistCmd (src : Src) (misr : List DWord) (s : State) (r : List Byte) : Reply :=
  let p := rq r 0 2
  let x := s.phy p
  let f := bistResult misr r
  if x.cad = .good then Reply.fail s stNoResource
  else if x.bistSlow r then
    s.long src 0x0801 (.bist p f.1 (x.cad == .spare) x.powered f.2) none fun s => s.modPhy p fun x => x.bistBegins r
  else Reply.ok (s.modPhy p fun x => { x with lbistFail := satAdd 0xFFFF x.lbistFail f.1 }) f.2

/-- DIAG_BIST_RUN (11 R394, R418; 09 R331, R343): a run of four slices answers PENDING. -/
def execDiagBistRun (src : Src) (misr : List DWord) (s : State) : Answer :=
  .next (s.serve src 0x0801 (State.bistCmd src misr))

end Sys2Proof.Machine
end

