-- ==== Sys2Proof/Machine/Contexts.lean ====
section
/-! DEFINITION. Contexts, rings, descriptors without an engine of their own, and period boundaries
(10 R348 to R374; 09 R339). -/
namespace Sys2Proof.Machine

/-! ### CTX_CREATE (10 R348 to R350; 09 R339) -/

/-- May a sector be given to a new context? -/
def Sector.isFree (x : Sector) : Bool :=
  (x.st == .up || x.st == .degraded) && x.owner.isNone && x.reset.isNone

/-- The sectors a request asks for: an error status, or the list. -/
def State.pickSectors (s : State) (count : Nat) (mask : BitVec 16) : Except Nat (List Nat) :=
  let free := (List.range 16).filter fun n => (s.sector n).isFree
  if mask = 0 then
    if free.length < count then .error stNoResource else .ok (free.take count)
  else if popCount mask ≠ count then .error stInvalidArg
  else if (setBits mask).all free.contains then .ok (setBits mask)
  else .error stNoResource

/-- R350: regions disabled and cores halted on the new context's sectors. -/
def State.clearSectors (s : State) (secs : List Nat) : State :=
  let s := s.modTiles (fun t => secs.contains (sectorOfTile t)) fun _ x => { x with regions := [] }
  s.modCores (fun c => secs.contains (sectorOfCore c)) fun _ x =>
    { x with run := .halted, wait := none, waitShort := false, kept := {} }

/-- The response of CTX_CREATE. -/
def createReply (ctx gen : Nat) (mask : BitVec 16) : List Byte :=
  leBytes 1 ctx ++ [0] ++ leBytes 2 gen ++ leBytes 2 mask.toNat

/-- Does a context of the module hold the job (R349)? -/
def State.jobHeld (s : State) (job : Word) : Bool :=
  job != 0 && s.ctxs.any fun c => c.2.st != .free && c.2.job == job

/-- The context itself. -/
def State.makeCtx (s : State) (src : Src) (r : List Byte) (k : Nat) (secs : List Nat) : State :=
  let flags := BitVec.ofNat 8 (rq r 1 1)
  let mask := BitVec.ofNat 16 ((secs.map fun n => 2 ^ n).sum)
  let s := s.modCtx k fun x =>
    { st := .ready, sectors := mask, gen := x.gen, fn := srcFn src, job := BitVec.ofNat 32 (rq r 4 4)
      seed := BitVec.ofNat 64 (rq r 8 8), watchdogMs := rq r 16 4, dumpConsent := flags.getLsbD 0
      dropped := x.dropped, aborts := x.aborts }
  let s := secs.foldl (fun s n => s.modSector n fun x => { x with owner := some k, deferred := 0 }) s
  let s := s.clearSectors secs
  let s := s.modFabric fun x => { x with repeats := x.repeats.filter fun r => r.msg.job != (s.ctx k).job }
  let s := if flags.getLsbD 1 then (s.setGlobal k false).1 else s
  if flags.getLsbD 2 then (s.setGlobal k true).1 else s

/-- CTX_CREATE. No sector asked for makes no context once every check has passed (R12); the spec
states no GEN for that answer, a free value (log 1). -/
def State.ctxCreateCmd (src : Src) (s : State) (r : List Byte) : Reply :=
  let count := rq r 0 1
  let mask := BitVec.ofNat 16 (rq r 2 2)
  let job := BitVec.ofNat 32 (rq r 4 4)
  if (bits (rq r 1 1) 2 1 ≠ 0 ∧ count < 16) ∨ (mask ≠ 0 ∧ popCount mask ≠ count) ∨ s.jobHeld job then
    Reply.fail s stInvalidArg
  else match (List.range 16).find? (fun k => (s.ctx k).st == .free), s.pickSectors count mask with
    | _, .error e => Reply.fail s e
    | none, _ => Reply.fail s stNoResource
    | some k, .ok secs =>
      if count = 0 then
        let (n, t) := s.fresh
        Reply.ok t (createReply 0xFF (Config.free 12 n).toNat 0)
      else
      let t := s.makeCtx src r k secs
      Reply.ok t (createReply k (t.ctx k).gen.toNat (t.ctx k).sectors)

def execCtxCreate (src : Src) (s : State) : Answer := .next (s.serve src 0x0201 (State.ctxCreateCmd src))

/-! ### CTX_SET_PERIOD (10 R368) -/

def State.setPeriodCmd (s : State) (r : List Byte) : Reply :=
  let k := rq r 0 1
  let x := s.ctx k
  let p := rq r 4 4
  let start := rq r 8 8
  if p ≠ 0 ∧ x.st = .drained then Reply.fail s stInvalidArg
  else if x.periodUs ≠ 0 then
    if start ≠ 0 then Reply.fail s stInvalidArg
    else Reply.ok (s.modCtx k fun x => { x with nextPeriodUs := p })
  else if p = 0 then Reply.ok s
  else if start ≠ 0 ∧ start < s.deviceTime.toNat then Reply.fail s stInvalidArg
  else
    let first := if start = 0 then s.deviceTime + BitVec.ofNat 64 (p * 1000) else BitVec.ofNat 64 start
    Reply.ok (s.modCtx k fun x => { x with periodUs := p, nextPeriodUs := p, nextBoundary := first })

def execCtxSetPeriod (src : Src) (s : State) : Answer := .next (s.serve src 0x0204 State.setPeriodCmd)

/-! ### Queues (10 R353 to R356; 09 R335) -/

/-- Q_CREATE. A ring of no entries makes no queue once every check has passed (R12, Table 9.15); the spec
states no DOORBELL for that answer, a free value (log 1). -/
def State.qCreateCmd (src : Src) (s : State) (r : List Byte) : Reply :=
  let k := rq r 0 1
  let j := rq r 1 1
  let f := srcFn src
  let st := (s.ctx k).st
  if rq r 8 8 % 64 ≠ 0 ∨ rq r 16 8 % 32 ≠ 0 ∨ !(st == .ready || st == .running || st == .drained) then
    Reply.fail s stInvalidArg
  else if (s.queue f j).present then Reply.fail s stNoResource
  else if rq r 2 2 = 0 ∨ rq r 4 2 = 0 then
    let (n, t) := s.fresh
    Reply.ok t (leBytes 4 (Config.free 32 n).toNat)
  else
    let q : HostQueue :=
      { present := true, ctx := k, sqEntries := rq r 2 2, cqEntries := rq r 4 2, vector := rq r 6 2
        sqAddr := BitVec.ofNat 64 (rq r 8 8), cqAddr := BitVec.ofNat 64 (rq r 16 8) }
    Reply.ok (s.setQueue f j q) (leBytes 4 (0x20000 + f * 0x1000 + j * 8))

def execQCreate (src : Src) (s : State) : Answer := .next (s.serve src 0x0301 (State.qCreateCmd src))

/-- Q_DESTROY (09 Table 9.10): nothing more is fetched; the queue goes once it holds no descriptor. While it
waits it is a long operation on the queue's context (09 R332). -/
def State.qDestroyCmd (src : Src) (s : State) (r : List Byte) : Reply :=
  let j := rq r 0 1
  let f := srcFn src
  let q := s.queue f j
  if !q.present then Reply.fail s stInvalidArg
  else if s.ctxBusy q.ctx then Reply.fail s stBusy
  else if q.descs.isEmpty then Reply.ok (s.setQueue f j {})
  else s.long src 0x0302 (.qDestroy f j) (some q.ctx) fun s =>
    s.modQueue f j fun q => { q with stopped := true }

def execQDestroy (src : Src) (s : State) : Answer := .next (s.serve src 0x0302 (State.qDestroyCmd src))

/-- MBX_SQ_TAIL (10 R354; 09 R335): TAIL of a queue; a value of SQ_ENTRIES or more is ignored. -/
def execMbxSqTail (f : FnId) (slot : SlotId) (v : Word) (s : State) : Answer :=
  let q := s.queue f slot
  let t := bits v.toNat 15 0
  .next (if !q.present ∨ q.sqEntries ≤ t then s
    else
      let s := s.modDelash fun d => { d with sqTail := Tab.set d.sqTail (f * 16 + slot) (BitVec.ofNat 32 t) }
      s.setQueue f slot { q with sqTail := t })

/-- How many slots a HEAD returns: the records from the head up to it. With every slot of the ring
unreturned, a HEAD equal to the head returns the whole ring (DEDUCED, log 51). -/
def HostQueue.returns (q : HostQueue) (h : Nat) : Nat :=
  if h = q.cqHead ∧ q.unreturned = q.cqEntries then q.cqEntries else (h + q.cqEntries - q.cqHead) % q.cqEntries

/-- MBX_CQ_HEAD (10 R355): slots are returned from the head up to the engine's tail. -/
def execMbxCqHead (f : FnId) (slot : SlotId) (v : Word) (s : State) : Answer :=
  let q := s.queue f slot
  let h := bits v.toNat 15 0
  let n := q.returns h
  .next (if !q.present ∨ q.cqEntries ≤ h ∨ q.unreturned < n then s
    else
      let s := s.modDelash fun d => { d with cqHead := Tab.set d.cqHead (f * 16 + slot) (BitVec.ofNat 32 h) }
      s.setQueue f slot { q with cqHead := h, unreturned := q.unreturned - n })

/-! ### Descriptor fetch (10 R356, R358, R359, R364) -/

/-! Fields of Table 10.4. -/
def knEntry (d : Desc) : Nat := field d.bytes 0x10 4
def knFirst (d : Desc) : Nat := field d.bytes 0x14 2
def knCount (d : Desc) : Nat := field d.bytes 0x16 2
def knArgs (d : Desc) : List Word := (List.range 8).map fun i => BitVec.ofNat 32 (field d.bytes (0x18 + 4 * i) 4)
def brMask (d : Desc) : BitVec 16 := BitVec.ofNat 16 (field d.bytes 0x10 2)
def evEvent (d : Desc) : Nat := field d.bytes 0x10 1
def evValue (d : Desc) : Nat := field d.bytes 0x14 4

/-- Are the bytes that a descriptor's tables call zero zero, and its fields values they list? -/
def descFieldsOk (d : Desc) : Bool :=
  let z := zeroBytes d.bytes
  decide (d.flags < 4) && decide (field d.bytes 4 2 < 4096) && z 6 10 &&
  match d.type with
  | 1 => z 0x38 8 && decide (knEntry d % 4 = 0) && decide (knEntry d < 65536) && decide (knCount d ≤ 8192)
  | 2 => decide (dmFlags d < 16) && z 0x36 2 && z 0x3C 4
  | 3 => decide (tfFlags d < 16) && z 0x37 1 && z 0x3E 2
  | 4 => decide (field d.bytes 0x2A 1 < 2) && z 0x2B 21 && decide (field d.bytes 0x24 1 < 32)
      && decide (1 ≤ field d.bytes 0x25 1) && decide (field d.bytes 0x25 1 ≤ 7)
      && decide (1 ≤ field d.bytes 0x26 1) && decide (field d.bytes 0x26 1 ≤ 5)
      && decide (field d.bytes 0x27 1 ≤ 2)
      && (decide (4 ≤ field d.bytes 0x25 1 ∧ field d.bytes 0x25 1 ≤ 6) || field d.bytes 0x28 2 == 0)
  | 5 => z 0x12 46
  | 6 | 7 => decide (evEvent d < 64) && z 0x11 3 && z 0x18 40
  | 8 => z 0x10 48
  | _ => false

/-- The logical core of a relative core of a context (05 R173). -/
def State.relCore (s : State) (k r : Nat) : Option Nat :=
  ((s.sectorsOf k)[r / 512]?).map fun sec => sec * 512 + r % 512

/-- The target cores of a KERNEL; none when one lies outside the owned sectors. -/
def State.targets (s : State) (k : Nat) (d : Desc) : Option (List Nat) :=
  ((List.range (knCount d)).map (knFirst d + ·)).mapM (s.relCore k)

/-- R359 check 4. -/
def State.kernelOk (s : State) (k : Nat) (d : Desc) : Bool :=
  (s.ctx k).st == .running &&
  match s.targets k d with
  | none => false
  | some cs => cs.all fun c => (s.core c).run != .halted

/-- The status a descriptor completes with at its fetch (R359, R363), if it does. No body asks for a
feature that a licence lacks (check 5; DEDUCED, log 34). A KERNEL with CORE_COUNT 0 that passes its
checks completes here, though a BARRIER or WAIT may hold its queue: the spec does not say when zero work
completes (DESIGN CHOICE, log 34). -/
def State.fetchStatus (s : State) (k : Nat) (d : Desc) : Option Nat :=
  let x := s.ctx k
  if x.st = .aborted ∨ x.st = .teardown then some stAborted
  else if bits d.flags 1 1 = 1 ∧ field d.bytes 4 2 % 2 ^ 12 ≠ x.gen.toNat then some stStale
  else if !descFieldsOk d then some stInvalidArg
  else if d.type = 1 then
    if !s.kernelOk k d then some stInvalidArg else if knCount d = 0 then some stOk else none
  else none

/-- A PERIOD_MARK in flight stops the fetch of its queue until the boundary (R361). -/
def HostQueue.marked (q : HostQueue) : Bool := q.descs.any fun d => d.type == 8

/-- Descriptors in flight of a context, of the device. -/
def State.inflight (s : State) (k : Nat) : Nat :=
  ((s.queuesOf k).map fun q => (s.queue q.1 q.2).descs.length).sum
def State.inflightAll (s : State) : Nat := (s.queues.map fun q => q.2.descs.length).sum

/-- Has a queue a descriptor to fetch, with room under every limit (R354, R356, R361, R364)? -/
def State.fetchReady (s : State) (f j : Nat) : Bool :=
  let q := s.queue f j
  q.present && !q.stopped && q.sqHead != q.sqTail && !q.marked
    && decide (q.descs.length + q.unreturned < q.cqEntries)
    && decide (s.inflight q.ctx < 256) && decide (s.inflightAll < 1024)

/-- The first number after `last` in turn, of 0 to n - 1, with a property. -/
def firstAfter (last n : Nat) (p : Nat → Bool) : Option Nat :=
  ((List.range n).map fun i => (last + 1 + i) % n).find? p

/-- Has a context a queue that is ready? -/
def State.ctxReady (s : State) (k : Nat) : Bool := (s.queuesOf k).any fun q => s.fetchReady q.1 q.2

/-- The queue that is served next: round robin over the contexts and then over the context's queues
(R364), each in the order of its numbers (DESIGN CHOICE, log 34: the spec gives no order). -/
def State.nextQueue (s : State) : Option Nat :=
  (firstAfter s.delash.servedCtx 16 s.ctxReady).bind fun k =>
    firstAfter (s.ctx k).servedQueue 256 fun i => (s.queue (i / 16) (i % 16)).ctx == k && s.fetchReady (i / 16) (i % 16)

/-- May the queue engine fetch from a queue now (R364)? -/
def State.canFetch (s : State) (f j : Nat) : Bool := s.nextQueue == some (f * 16 + j)

/-- Fetch the descriptor at the head of a submission ring. -/
def State.fetch (s : State) (f j : Nat) (bytes : List Byte) : State :=
  let q := s.queue f j
  let x := s.ctx q.ctx
  let head := if q.sqHead + 1 = q.sqEntries then 0 else q.sqHead + 1
  let d : Desc :=
    { id := s.fetchCtr, bytes, gen := x.gen, period := if x.periodUs = 0 then 0 else x.periodSeq, sqHead := head }
  let s := { s.setQueue f j { q with sqHead := head } with fetchCtr := s.fetchCtr + 1 }
  let s := (s.modDelash fun e => { e with servedCtx := q.ctx }).modCtx q.ctx fun x => { x with servedQueue := f * 16 + j }
  match s.fetchStatus q.ctx d with
  | some st => s.completeNow f j d st
  | none => s.modQueue f j fun q => { q with descs := q.descs ++ [d] }

/-- DESCRIPTOR_FETCH (10 R359): the 64 bytes that the host's memory holds at the ring's head. -/
def execDescriptorFetch (f : FnId) (slot : SlotId) (bytes : List Byte) (s : State) : Answer :=
  .next (if s.canFetch f slot then s.fetch f slot (fit 64 bytes) else s)

/-! ### KERNEL (10 R366) -/

/-- Enqueue a call at a core, and let a waiting core take it. -/
def State.enqueueCall (s : State) (c : Nat) (k : Call) : State :=
  (s.modCore c fun x => { x with krn := { x.krn with calls := x.krn.calls ++ [k] } }).wakeKernel c

/-- A KERNEL is dispatched when every target has a free place in its kernel queue. -/
def State.kernelDesc (s : State) (f j id : Nat) : State :=
  let q := s.queue f j
  match s.desc f j id with
  | none => s
  | some d =>
    if d.type ≠ 1 ∨ d.dispatched ∨ !q.reaches id ∨ (s.ctx q.ctx).st ≠ .running then s
    else match s.targets q.ctx d with
      | none => s
      | some cs =>
        if !(cs.all fun c => decide ((s.core c).krn.calls.length < 4)) then s
        else
          let s := s.modDesc f j id fun d => { d with dispatched := true, tStart := s.deviceTime, coresLeft := cs }
          cs.foldl (fun s c => s.enqueueCall c ⟨BitVec.ofNat 16 (knEntry d), knArgs d, id⟩) s

/-- KERNEL (10 R366). -/
def execKernel (f : FnId) (slot : SlotId) (id : Nat) (s : State) : Answer :=
  .next (s.kernelDesc f slot id)

/-! ### BARRIER, SIGNAL, WAIT, PERIOD_MARK (10 R361) -/

/-- A descriptor of a queue that the queue engine itself performs: dispatched when its turn comes,
then `body` says whether it completes and how. -/
def State.queueDesc (s : State) (f j id type : Nat) (body : State → Nat → Desc → Option (Nat × State)) :
    State :=
  let q := s.queue f j
  match s.desc f j id with
  | none => s
  | some d =>
    if d.type ≠ type ∨ (!d.dispatched && !q.reaches id) then s
    else
      let s := if d.dispatched then s else s.dispatch f j id
      let d := if d.dispatched then d else { d with dispatched := true, tStart := s.deviceTime }
      match body s q.ctx d with
      | some (st, t) => t.complete f j d st 0
      | none => s

/-- The queues a BARRIER waits for; none when its mask names one of another context, or an empty
slot. -/
def State.barrierQueues (s : State) (f j k : Nat) (d : Desc) : Option (List Nat) :=
  if (setBits (brMask d)).all fun i => (s.queue f i).present && (s.queue f i).ctx == k then
    some (j :: setBits (brMask d))
  else none

/-- BARRIER: everything fetched before it from its queues has completed. -/
def execBarrierQueue (f : FnId) (slot : SlotId) (id : Nat) (s : State) : Answer :=
  .next (s.queueDesc f slot id 5 fun s k d =>
    match s.barrierQueues f slot k d with
    | none => some (stInvalidArg, s)
    | some js =>
      if js.any fun i => (s.queue f i).descs.any fun e => decide (e.id < id) then none
      else some (stOk, s))

/-- SIGNAL: after every earlier descriptor of its own queue, or at once with VALUE 0. -/
def execSignalEvent (f : FnId) (slot : SlotId) (id : Nat) (s : State) : Answer :=
  .next (s.queueDesc f slot id 6 fun s k d =>
    if evValue d = 0 then some (stOk, s)
    else if (s.queue f slot).descs.any fun e => decide (e.id < id) then none
    else some (stOk, s.modCtx k fun x =>
      { x with events := Tab.mod 0 x.events (evEvent d) (· + BitVec.ofNat 32 (evValue d)) }))

/-- WAIT: the counter has reached THRESHOLD. -/
def execWaitEvent (f : FnId) (slot : SlotId) (id : Nat) (s : State) : Answer :=
  .next (s.queueDesc f slot id 7 fun s k d =>
    if evValue d ≤ (Tab.get (0 : Word) (s.ctx k).events (evEvent d)).toNat then some (stOk, s) else none)

/-- PERIOD_MARK: at once in an aperiodic context, otherwise at the boundary. -/
def execPeriodMark (f : FnId) (slot : SlotId) (id : Nat) (s : State) : Answer :=
  .next (s.queueDesc f slot id 8 fun s k _ =>
    if (s.ctx k).periodUs = 0 then some (stOk, s) else none)

/-! ### Period boundaries (10 Table 10.8, R369 to R374) -/

/-- Steps 3, 5 and 6 in a core. -/
def Core.restart (x : Core) : Core :=
  let y := x.flushQueues
  { y with
    run := if x.kept.hasImage then .running else .halted
    pc := x.kept.startPc, x := [], csr := {}, inTrap := false, wait := none, waitShort := false
    prog := false, td := x.kept.td, srseq := 0, btx := [], krn := {}, atom := x.atom.clear
    sync := x.sync.clear
    df := { y.df with actNext := x.kept.next, ms := [], unindexed := [], readyCtr := 0 } }

/-- ACM_INIT with the ANCHOR kept. -/
def Slot.reinit (x : Slot) : Slot := { anchor := x.anchor }

/-- The number of the first BARRIER of a period in a SYN group: the low 8 bits of the period's index stand above
an 8-bit count, so that no arrival of a dropped period meets a later BARRIER (DESIGN CHOICE, log 40). -/
def periodBarriers (seq : Word) : Half := seq.setWidth 8 ++ (0 : Byte)

/-- Is a barrier number one of the period's? -/
def ofPeriod (seq : Word) (n : Half) : Bool := n >>> 8 == periodBarriers seq >>> 8

/-- Is a SYN group that of a collective group of the context? -/
def State.barsOf (s : State) (k g : Nat) : Bool :=
  s.fabric.col.any fun c => match c.2 with
    | some x => x.ctx == k && x.synGroup == g
    | none => false

/-- The barriers of the context's SYN groups are numbered anew for the period that begins; arrivals and
releases of that period, which a peer may have begun already, stay (R304, 10 R370). -/
def State.newBarriers (s : State) (k : Nat) : State :=
  let seq := (s.ctx k).periodSeq + 1
  let mine := s.barsOf k
  s.modFabric fun x =>
    { x with
      syn := x.syn.map fun e => (e.1, e.2.map fun y => if mine e.1 then { y with barSeq := periodBarriers seq } else y)
      barSeen := x.barSeen.filter fun b => !mine b.1 || ofPeriod seq b.2.1
      relSeen := x.relSeen.filter fun b => !mine b.1 || ofPeriod seq b.2 }

/-- Engine work of the context that a boundary discards: collectives, pieces that came for one, barriers, and the
packets of the old generation; the flows stay (08 R280, R307; R375). The numbering of a group's
collectives starts anew, as everything does that a period could have half-written (DEDUCED, log 40). -/
def State.dropPeriodWork (s : State) (k : Nat) : State :=
  let s := (((s.skipSamples k).dropEngines k).dropReplay k).newBarriers k
  (s.modFabric fun x =>
    { x with
      running := x.running.filter fun r => (s.queue r.f r.slot).ctx != k
      early := x.early.filter fun p => !s.colOf k p.group
      col := x.col.map fun (e : Nat × Option ColGroup) =>
        (e.1, e.2.map fun g => if g.ctx = k then { g with seq := 0 } else g) }).dropStale k

/-- A change made with device time standing at `t`. -/
def State.atTime (s : State) (t : DWord) (f : State → State) : State :=
  { f { s with deviceTime := t } with deviceTime := s.deviceTime }

/-- Step 4: PERIOD_MARK completes with OK, everything else with DROPPED_LATE, at the boundary. -/
def State.endPeriodWork (s : State) (k : Nat) (t : DWord) : State :=
  let late := (s.queuesOf k).any fun q => (s.queue q.1 q.2).descs.any fun d => d.type != 8
  let s := s.atTime t fun s => s.completeAll k fun d => if d.type = 8 then stOk else stDroppedLate
  if late then s.modCtx k fun x => { x with dropped := bump x.dropped } else s

/-- R374: a swap that is due in an owned sector is deferred once more, or forced. -/
def State.deferSwaps (s : State) (k : Nat) : State := (s.sectorsOf k).foldl State.deferSwap s

/-- A period boundary. -/
def State.boundary (s : State) (k : Nat) : State :=
  let t := (s.ctx k).nextBoundary
  let s := s.modCtx k fun x => { x with gen := x.gen + 1, probeSince := none, progressed := false }
  let s := (s.endPeriodWork k t).dropPeriodWork k
  let s := s.modTiles (s.tileIn k) fun _ x => x.flush
  let s := s.modCores (s.coreIn k) fun _ x => x.restart
  let fresh := fun (e : Nat × Slot) => (e.1, if s.coreIn k (e.1 / 16) then e.2.reinit else e.2)
  let s := { s with slots := s.slots.map fresh }
  let s := s.modCtx k fun x =>
    { x.flush with
      periodSeq := x.periodSeq + 1, periodUs := x.nextPeriodUs
      nextBoundary := t + BitVec.ofNat 64 (x.nextPeriodUs * 1000) }
  s.deferSwaps k

/-- PERIOD_BOUNDARY (10 R370 to R372, R374). -/
def execPeriodBoundary (k : CtxId) (s : State) : Answer :=
  let x := s.ctx k
  .next (if x.periodUs ≠ 0 ∧ (x.st = .ready ∨ x.st = .running)
      ∧ x.nextBoundary.toNat ≤ s.deviceTime.toNat then s.boundary k
    else s)

end Sys2Proof.Machine
end

