-- ==== Sys2Proof/Machine/Placement.lean ====
section
/-! DEFINITION. Placement images: load, drain and resume (05 R173 to R182, Tables 5.5 to 5.9). -/
namespace Sys2Proof.Machine

/-! ### The image (05 R174, Tables 5.5 and 5.6) -/

def imFlags (m : List Byte) : Nat := field m 0x06 2
def imSectors (m : List Byte) : Nat := field m 0x08 1
def imTileCount (m : List Byte) : Nat := field m 0x0A 2
def imCoreCount (m : List Byte) : Nat := field m 0x0C 2
def imQuiesce (m : List Byte) : Nat := field m 0x0E 2
def imTileTable (m : List Byte) : Nat := field m 0x10 4
def imCoreTable (m : List Byte) : Nat := field m 0x14 4
def imPreTable (m : List Byte) : Nat := field m 0x18 4
def imPreCount (m : List Byte) : Nat := field m 0x1C 4
def imLength (m : List Byte) : Nat := field m 0x20 4

def bytesAt (m : List Byte) (off n : Nat) : List Byte := (m.drop off).take n

/-- The records of a table. -/
def imRecords (m : List Byte) (table count size : Nat) : List (List Byte) :=
  (List.range count).map fun i => bytesAt m (table + i * size) size

def imTiles (m : List Byte) : List (List Byte) := imRecords m (imTileTable m) (imTileCount m) 656
def imCores (m : List Byte) : List (List Byte) := imRecords m (imCoreTable m) (imCoreCount m) 544
def imPreloads (m : List Byte) : List (List Byte) := imRecords m (imPreTable m) (imPreCount m) 24

def wordAt (r : List Byte) (off : Nat) : Word := BitVec.ofNat 32 (field r off 4)

/-- Word `j` of region `n` of a tile record: BASE, SIZE, OWNER, HEAD_INIT, TAIL_INIT. -/
def trWord (r : List Byte) (n j : Nat) : Nat := field r (0x10 + 20 * n + 4 * j) 4

def trTile (r : List Byte) : Nat := field r 0 2
def crCore (r : List Byte) : Nat := field r 0 2
def crImageOff (r : List Byte) : Nat := field r 0x08 4
def crImageLen (r : List Byte) : Nat := field r 0x0C 4
def crStart (r : List Byte) : Word := wordAt r 0x10
def crSpill (r : List Byte) : Word := wordAt r 0x14
def crTd (r : List Byte) (n : Nat) : BitVec 128 := BitVec.ofNat 128 (field r (0x20 + 16 * n) 16)
def crBind (r : List Byte) (i : Nat) : Word := wordAt r (0x120 + 4 * i)
def crAct (r : List Byte) (n : Nat) : Word := wordAt r (0x1A0 + 4 * n)
def crNext (r : List Byte) (n : Nat) : Word := wordAt r (0x1E0 + 4 * n)
def prSource (r : List Byte) : Nat := field r 0x00 8
def prTile (r : List Byte) : Nat := field r 0x08 2
def prDest (r : List Byte) : Nat := field r 0x0C 4
def prWords (r : List Byte) : Nat := field r 0x10 4

/-- The region that a record describes. -/
def trRegion (k : Nat) (r : List Byte) (n : Nat) : Region :=
  let base := BitVec.ofNat 32 (trWord r n 0)
  let h := Ptr.ofWord (BitVec.ofNat 32 (trWord r n 3))
  let t := Ptr.ofWord (BitVec.ofNat 32 (trWord r n 4))
  { base := bits base.toNat 19 0, circular := base.getLsbD 20, size := trWord r n 1
    owner := BitVec.ofNat 16 (trWord r n 2), ctx := k
    head := h, tail := t, rhead := h, rtail := t, headInit := h, tailInit := t }

/-! ### Checks (05 R175) -/

/-- A record's region: reserved bits zero, CTX zero, and not refused (04 R130). -/
def trRegionOk (r : List Byte) (n : Nat) : Bool :=
  let size := trWord r n 1
  decide (trWord r n 0 < 2 ^ 21) && decide (size < 2 ^ 20) && decide (trWord r n 2 < 2 ^ 16)
    && decide (trWord r n 3 < 2 ^ 21) && decide (trWord r n 4 < 2 ^ 21)
    && decide (bits (trWord r n 0) 19 0 ≤ 786431) && decide (bits (trWord r n 0) 19 0 + size ≤ 786432)
    && (size == 0 || (decide (bits (trWord r n 3) 19 0 < size) && decide (bits (trWord r n 4) 19 0 < size)))

/-- A binding of a record: every DEST_CORE is a core of the sectors the image requires (R173, R175). -/
def bindRecOk (sectors : Nat) (v : Word) : Bool :=
  decide (v.toNat < 2 ^ 30) && decide (bindDest v < 512 * sectors) &&
    (!bindValid v || (decide (1 ≤ bindCredits v)
      && decide (bindCredits v ≤ 8) && decide (bindPort v ≤ 5)
      && (bindPort v != 4 || decide (bindParam v < 16)) && (decide (2 ≤ bindPort v) || bindParam v == 0)))

/-- The actors of a record (05 R162). -/
def actorsOk (r : List Byte) : Bool :=
  (List.range 16).all fun n =>
    decide ((crAct r n).toNat < 2 ^ 31) && decide ((crNext r n).toNat < 2 ^ 16)
      && decide (popCount ((crAct r n).setWidth 16) ≤ 4)
      && (List.range n).all fun j => (crAct r j).setWidth 16 &&& (crAct r n).setWidth 16 == 0#16

/-- The spill configuration of a record, with the regions of its tile (05 R162). -/
def spillRecOk (m r : List Byte) : Bool :=
  let v := crSpill r
  let n := bits v.toNat 4 0
  decide (v.toNat < 64) && (!v.getLsbD 5 ||
    (imTiles m).any fun t =>
      let g := trRegion 0 t n
      trTile t == crCore r / 16 && g.circular && g.owner.getLsbD (crCore r % 16)
        && g.size != 0 && decide (g.size % 8 = 0))

def coreRecOk (m r : List Byte) : Bool :=
  zeroBytes r 2 6 && zeroBytes r 0x18 8 && decide (crCore r < 512 * imSectors m)
    && decide (crImageLen r ≤ 65536)
    && (crImageLen r == 0 || decide (crImageOff r + crImageLen r ≤ imLength m))
    && ((List.range 16).all fun n => !(crTd r n).getLsbD 127)
    && ((List.range 32).all fun i => bindRecOk (imSectors m) (crBind r i))
    && actorsOk r && spillRecOk m r

def tileRecOk (m r : List Byte) : Bool :=
  zeroBytes r 2 14 && decide (trTile r < 32 * imSectors m) && (List.range 32).all (trRegionOk r)

/-- Bytes of tier memory, all in granules homed to the context. -/
def State.homedTier (s : State) (k a n : Nat) : Bool :=
  match s.addrKind a, s.addrKind (a + n - 1) with
  | .tier1, .tier1 | .tier2, .tier2 => s.allHomed k a n
  | _, _ => false

def State.preRecOk (s : State) (k : Nat) (m r : List Byte) : Bool :=
  zeroBytes r 0x0A 2 && zeroBytes r 0x14 4 && decide (prTile r < 32 * imSectors m)
    && decide (prDest r + prWords r ≤ 786432)
    && (prWords r == 0 || s.homedTier k (prSource r) (4 * prWords r))

/-- Does a table lie within the image? -/
def tableOk (m : List Byte) (table count size : Nat) : Bool :=
  count == 0 || decide (table + count * size ≤ imLength m)

/-- Are the numbers of a list all different? -/
def allDistinct : List Nat → Bool
  | [] => true
  | x :: xs => !xs.contains x && allDistinct xs

/-- Check 3 of R175. -/
def State.imageOk (s : State) (k : Nat) (m : List Byte) : Bool :=
  field m 0 4 == 0x45584C50 && field m 4 2 == 2 && decide (imFlags m ≤ 1)
    && decide (1 ≤ imSectors m) && decide (imSectors m ≤ 16) && zeroBytes m 9 1
    && decide (imTileCount m ≤ 512) && decide (imCoreCount m ≤ 8192) && zeroBytes m 0x24 24
    && (if imFlags m = 1 then decide (10 ≤ imQuiesce m) && decide (imQuiesce m ≤ 1000)
        else imQuiesce m == 0)
    && tableOk m (imTileTable m) (imTileCount m) 656 && tableOk m (imCoreTable m) (imCoreCount m) 544
    && tableOk m (imPreTable m) (imPreCount m) 24
    && allDistinct ((imTiles m).map trTile) && allDistinct ((imCores m).map crCore)
    && (imTiles m).all (tileRecOk m) && (imCores m).all (coreRecOk m)
    && (imPreloads m).all (s.preRecOk k m)

/-- The relative tiles that the records name, the receivers of valid bindings among them. -/
def imNames (m : List Byte) : List Nat :=
  (imTiles m).map trTile ++ (imPreloads m).map prTile ++ (imCores m).map (fun r => crCore r / 16)
    ++ (imCores m).flatMap fun r =>
      (((List.range 32).map (crBind r)).filter bindValid).map fun v => bindDest v / 16

/-- The logical tile of a relative tile (R173). -/
def State.relTile (s : State) (k r : Nat) : Option Nat :=
  ((s.sectorsOf k)[r / 32]?).map fun sec => sec * 32 + r % 32

/-- Does the sector offer the logical tile (11 R388)? -/
def State.offered (s : State) (k r : Nat) : Bool :=
  match s.relTile k r with
  | some t => (s.carrier t).isSome
  | none => false

/-- The status of the first check of R175 that fails. -/
def State.imageStatus (s : State) (k a len : Nat) : Option Nat :=
  if len < 64 ∨ !s.homedTier k a len then some stInvalidArg
  else
    let m := s.readTier a len
    if imLength m ≠ len then some stInvalidArg
    else if s.isPoisoned a len then some stPoisoned
    else if crc32c (patch m 0x3C [0, 0, 0, 0]) ≠ wordAt m 0x3C then some stCheckFailed
    else if !s.imageOk k m then some stInvalidArg
    else if (s.sectorsOf k).length < imSectors m ∨ !(imNames m).all (s.offered k) then some stNoResource
    else none

/-! ### Load (05 R176 to R178) -/

/-- A core before its record is written: halted, everything that a load sets at its value without a
record. A load also resets the scalar registers and the kernel queue (DEDUCED, log 35). -/
def Core.unload (x : Core) : Core :=
  let y := x.flushQueues
  { y with
    run := .halted, pc := 0, x := [], csr := {}, inTrap := false, wait := none, waitShort := false
    prog := false, td := [], srseq := 0, btx := [], binds := [], krn := {}, atom := x.atom.clear
    sync := x.sync.clear, kept := {}
    df := { y.df with act := [], actNext := [], ms := [], unindexed := [], readyCtr := 0
                      spillCfg := 0, heldAct := [], live := {}, snap := {} } }

/-- The translated word of a binding, valid or not (R173: every DEST_CORE). -/
def State.bindWord (s : State) (k : Nat) (v : Word) : Word :=
  match s.relCore k (bindDest v) with
  | some c => (v &&& 0x3FFFE000#32) ||| BitVec.ofNat 32 c
  | none => v

/-- A core's tables from its record. -/
def recTab {α : Type} (n : Nat) (f : Nat → α) : Tab α := (List.range n).map fun i => (i, f i)

/-- Core state from a record (R177). -/
def Core.load (x : Core) (r : List Byte) (bind : Word → Word) : Core :=
  let td := recTab 16 (crTd r)
  let next := recTab 16 fun n => (crNext r n).setWidth 16
  let slot := fun i =>
    let w := bind (crBind r i)
    ({ word := w, avail := bindCredits w } : Binding)
  { x with
    pc := crStart r, td, binds := recTab 32 slot
    kept := { hasImage := crImageLen r != 0, startPc := crStart r, td, next }
    df := { x.df with act := recTab 16 (crAct r), actNext := next, spillCfg := (crSpill r).setWidth 6 } }

/-- Load one core: its registers and its private memory. -/
def State.loadCore (s : State) (k : Nat) (m r : List Byte) : State :=
  match s.relCore k (crCore r) with
  | none => s
  | some c => (s.modCore c fun x => x.load r (s.bindWord k)).writePrivBytes c 0
      (bytesAt m (crImageOff r) (crImageLen r))

/-- Load one tile's regions. -/
def State.loadTile (s : State) (k : Nat) (r : List Byte) : State :=
  match s.relTile k (trTile r) with
  | none => s
  | some t => s.modTile t fun x => { x with regions := recTab 32 (trRegion k r) }

/-- The members of a tile's barriers: the cores with an image (06 R223). -/
def imMembers (m : List Byte) (tile : Nat) : BitVec 16 :=
  BitVec.ofNat 16 (((imCores m).filter fun r =>
    crCore r / 16 == tile && crImageLen r != 0).map fun r => 2 ^ (crCore r % 16)).sum

def State.loadMasks (s : State) (k : Nat) (m : List Byte) : State :=
  ((imCores m).map fun r => crCore r / 16).eraseDups.foldl (fun s n =>
    match s.relTile k n with
    | none => s
    | some t => s.modTile t fun x => { x with barMask := recTab 64 fun _ => imMembers m n }) s

/-- The memories of a sector: private memory zero, ACM slots as after ACM.INIT with ANCHOR 0. -/
def State.wipeSector (s : State) (n : Nat) : State :=
  { s with
    priv := Cells.clear s.priv (33554432 * n) (33554432 * n + 33554432)
    privPz := ISet.remove (32768 * n) (32768 * n + 32768) s.privPz
    slots := keepTab (fun i => i / 8192 != n) s.slots
    acmPz := ISet.remove (8192 * n) (8192 * n + 8192) s.acmPz }

/-- Placement load reads the whole image, through the sector stores, once it can lie in the context's memory
(R175; 07 R240). -/
def State.readImage (s : State) (k a len : Nat) : State :=
  if len < 64 ∨ !s.homedTier k a len then s else s.touch a len false

/-- Copy one preload, read through the sector stores; false when its source is poisoned. -/
def State.preload (s : State) (k : Nat) (r : List Byte) : Bool × State :=
  let n := 4 * prWords r
  if n = 0 then (true, s)
  else
    let s := s.touch (prSource r) n false
    if s.isPoisoned (prSource r) n then (false, s)
    else match s.relTile k (prTile r) with
      | none => (true, s)
      | some t => (true, s.writeBytes (spadAddr t (4 * prDest r)) (s.readTier (prSource r) n))

/-- Copy the preloads in record order, up to the first that is poisoned. -/
def State.preloads (k : Nat) : List (List Byte) → State → Bool × State
  | [], s => (true, s)
  | r :: rs, s =>
    let (ok, s) := s.preload k r
    if ok then State.preloads k rs s else (false, s)

/-- The places of the engines that hold a descriptor of the context. -/
def State.placesOf (s : State) (k : Nat) : List (Nat × Nat) :=
  ((List.range 64).map fun n => (n / 2, n % 2)).filter fun p =>
    match (s.place p.1 p.2).desc with
    | some d => (s.queue d.1 d.2.1).ctx == k
    | none => false

/-- R176: the descriptors that a drain paused end with ABORTED. -/
def State.dropPaused (s : State) (k : Nat) : State :=
  (s.placesOf k).foldl (fun s p =>
    let s := s.modPlace p.1 p.2 fun x => { x with status := stAborted, claims := [], waiting := none }
    s.endPlace p.1 p.2) s

/-- START: the loaded cores leave the start barrier together (R178). -/
def State.startBarrier (s : State) (k : Nat) : State :=
  s.modCores (s.coreIn k) fun _ x => if x.kept.hasImage then { x with run := .running } else x

/-- The state that a load sets, up to the preloads. The copy of the descriptors that firmware keeps is in the
drain area (R181). -/
def State.loadState (s : State) (k : Nat) (m : List Byte) : State :=
  let s := if (s.ctx k).st = .drained then s.dropPaused k else s
  let s := s.modCores (s.coreIn k) fun _ x => x.unload
  let s := s.modTiles (s.tileIn k) fun _ x =>
    { x with regions := [], bcnt := [], barMask := [], barArrived := [], barSent := [], heldMask := []
             resv := [], conflict := [], misroute := 0, defl := 0 }
  let s := (s.sectorsOf k).foldl State.wipeSector s
  let s := (imTiles m).foldl (fun s r => s.loadTile k r) s
  let s := (imCores m).foldl (fun s r => s.loadCore k m r) s
  let s := (s.loadMasks k m).dropReplay k
  let s := (s.sectorsOf k).foldl State.openDrainArea s
  s.modCtx k fun x =>
    { x with
      st := .ready, placed := false, sems := [], semWaits := [], barAt := []
      quiesceUs := if imFlags m = 1 then imQuiesce m else 50
      tileRecs := (imTiles m).filterMap fun r => s.relTile k (trTile r)
      probeSince := none, progressed := false, drainedAt := none }

/-- A load of a checked image. -/
def State.loadImage (s : State) (k : Nat) (m : List Byte) : Reply :=
  let (ok, s) := State.preloads k (imPreloads m) (s.loadState k m)
  if ok then
    Reply.ok ((s.startBarrier k).modCtx k fun x => { x with st := .running, placed := true })
  else
    Reply.fail (s.modCores (s.coreIn k) fun _ x => { x with kept := {} }) stPoisoned

/-- PLACE_LOAD (05 R175 to R178). A load takes 10 ms and the time of its preloads, which the spec does not
give (Table 5.14): with a preload of any words it answers PENDING (09 R331; DESIGN CHOICE, log 35). -/
def State.placeLoadCmd (src : Src) (s : State) (r : List Byte) : Reply :=
  let k := rq r 0 1
  let a := rq r 8 8
  let len := rq r 4 4
  let st := (s.ctx k).st
  if !(st == .ready || st == .drained) then Reply.fail s stInvalidArg
  else match s.imageStatus k a len with
    | some e => Reply.fail (s.readImage k a len) e
    | none =>
      let m := s.readTier a len
      let d := (s.readImage k a len).loadImage k m
      if (imPreloads m).any fun p => prWords p != 0 then d.pending src 0x0401 (some k) s else d

def execPlaceLoad (src : Src) (s : State) : Answer := .next (s.serve src 0x0401 (State.placeLoadCmd src))

/-! ### Drain (05 R180, Tables 5.8 and 5.9; 04 R140; 07 R255) -/

/-- A control packet of the context lands at its receiver (Table 5.8 step 4). -/
def State.landCtl (s : State) (p : CtlPacket) : State :=
  match hdrKind p, bits p.header.toNat 9 7 with
  | 0, _ => after (execChanMsg p s) s
  | 1, _ => after (execCredit p s) s
  | 5, 0 => after (execDmaAck p s) s
  | 5, 1 => after (execAtomReq p s) s
  | 5, 2 => after (execAtomCas64 p s) s
  | 5, 3 => after (execAtomRsp p s) s
  | _, _ => s.takeCtl p

/-- One round: all packets of the context land; what they answer lands in the next round. -/
def State.landRound (s : State) (k : Nat) : State :=
  let s := ((s.net.slots ++ s.net.sources).filter fun x => ofCtx k x.pkt).foldl State.landPacket s
  let s := (s.net.ejectedBulk.filter fun b => b.route.ctx.toNat == k).foldl
    (fun s b => after (execAtomicReq b s) s) s
  (s.net.ejected.filter fun c => c.route.ctx.toNat == k).foldl State.landCtl s

/-- The control and bulk messages of the context land: a request, its response, its
acknowledgement. -/
def State.landAll (s : State) (k : Nat) : State := (((s.landRound k).landRound k).landRound k).dropTxn k

/-- Waiting claims are withdrawn; granted ones stay with their region (04 R140). -/
def Tile.withdraw (x : Tile) : Tile :=
  { x with regions := x.regions.map fun (e : Nat × Region) => (e.1, { e.2 with pWait := [], cWait := [] }) }

/-- The engines issue no more requests of the context's descriptors, and withdraw the claims that wait (07
R255). -/
def State.pauseEngines (s : State) (k : Nat) : State :=
  (s.placesOf k).foldl (fun s p => (s.dropWaiting p.1 p.2).modPlace p.1 p.2 fun x => { x with paused := true }) s

/-- Once their requests have ended, the engines record their progress. -/
def State.parkEngines (s : State) (k : Nat) : State :=
  (s.placesOf k).foldl (fun s p => s.parkPlace p.1 p.2) s

/-- The engines go on with the first row that was not wholly acknowledged. -/
def State.resumeEngines (s : State) (k : Nat) : State :=
  (s.placesOf k).foldl (fun s p => (s.modPlace p.1 p.2 fun x => { x with paused := false }).carryOn p.1 p.2) s

/-- Where an instruction that is under way stops (03 R115): at a boundary of block steps that timing
decides, a free value within its walk. One that waits has not begun. -/
def InFlight.stopAt (i : InFlight) (n : Nat) : Progress :=
  let free := fun (j m : Nat) => (Config.free 64 (n + j)).toNat % m
  if !i.executed then {}
  else match i.op with
    | .tmm _ _ _ _ _ _ ctrl =>
      let a := TD.ofBits i.td1
      let b := TD.ofBits i.td2
      { b := free 0 (bits ctrl.toNat 15 0), visit := free 1 (a.outer / 16 * (b.outer / 16))
        k := free 2 (a.inner / 16) }
    | _ => {}

/-- What an instruction has written when it has run to its end: its slots and its output words. -/
def State.written (s : State) (c : Nat) (i : InFlight) : List (Nat × Slot) × List (Nat × Word) :=
  let t := tileOf c
  (i.targets.map fun k => (k, s.slot c k),
    (s.touches t i).2.flatMap fun w => (List.range (w.2 - w.1)).map fun j => (w.1 + j, s.readWord t (w.1 + j)))

/-- An instruction in flight stops (R115): its progress record takes its position and what it goes on to write.
Meanwhile its slots and its output words hold what its steps up to there left, which the free position
decides: free values (log 64). -/
def State.stopInstr (s : State) (c : Nat) (i : InFlight) : State :=
  let n := s.freeCtr
  let w := s.written c i
  let p : Progress := if i.executed then { i.stopAt n with slots := w.1, words := w.2 } else i.stopAt n
  let s := { s with freeCtr := n + 3 }
  let s := if i.executed then (s.freeResult c i).freeSlots c i.targets else s
  s.modCore c fun x => { x with btx := x.btx.map fun j => if j.id = i.id then { j with position := some p } else j }

/-- A stopped instruction goes on from its position to its end. -/
def State.resumeInstr (s : State) (c : Nat) (i : InFlight) : State :=
  match i.position with
  | none => s
  | some p =>
    let s := p.slots.foldl (fun s e => s.setSlot c e.1 e.2) s
    let s := p.words.foldl (fun s e => s.writeWord (tileOf c) e.1 e.2) s
    s.modCore c fun x => { x with btx := x.btx.map fun j => if j.id = i.id then { j with position := none } else j }

/-- A core stops at its instruction boundary, and its instructions in flight stop. -/
def State.stopCore (s : State) (c : Nat) : State :=
  let x := s.core c
  if x.run ≠ .running then s
  else x.btx.foldl (fun s i => s.stopInstr c i) (s.setCore c { x with
    run := .drained, wait := none, waitShort := false
    binds := x.binds.map fun b => (b.1, { b.2 with held := b.2.held.filter (!·.own) }) })

/-- The drain areas of the context's sectors hold the tile records that a drain writes (05 R181). -/
def State.writeTileRecords (s : State) (k : Nat) : State := (s.sectorsOf k).foldl State.openDrainArea s

/-- The steps of Table 5.8. A held instruction is abandoned and executes again on resume. A fault that
a landing message raises ends the drain with the context aborted (DEDUCED, log 35). -/
def State.drain (s : State) (k : Nat) : State :=
  let s := s.skipDrawn (s.coreIn k)
  let s := (s.listedCores k).foldl State.stopCore s
  let s := ((s.pauseEngines k).landAll k).parkEngines k
  let s := s.modTiles (s.tileIn k) fun _ x => x.withdraw
  if (s.ctx k).st ≠ .running then s
  else (s.writeTileRecords k).modCtx k fun x =>
    { x with st := .drained, drainedAt := some s.deviceTime, probeSince := none, progressed := false }

/-- PLACE_DRAIN (05 R180, R182; 10 R372). A placement that an abort ended refuses it (DEDUCED, log 35). -/
def State.placeDrainCmd (s : State) (r : List Byte) : Reply :=
  let k := rq r 0 1
  let x := s.ctx k
  if x.periodUs ≠ 0 ∨ (x.placed ∧ x.dead) then Reply.fail s stInvalidArg
  else if x.st = .running then
    let t := s.drain k
    if (t.ctx k).st = .drained then Reply.ok t else Reply.fail t stAborted
  else Reply.ok s

def execPlaceDrain (src : Src) (s : State) : Answer := .next (s.serve src 0x0402 State.placeDrainCmd)

/-! ### Resume (05 R182) -/

/-- An in-flight instruction requests its withdrawn claims again. -/
def State.reclaim (s : State) (c : Nat) (i : InFlight) : State :=
  let us := i.uses.filter (·.1.stream)
  let (ks, s) := (us.zip i.claims).foldl (fun (acc : List ClaimRef × State) u =>
    if i.executed || (acc.2.claimOf u.2).isSome then (acc.1 ++ [u.2], acc.2)
    else
      let (k, s) := acc.2.requestClaim (tileOf c) u.1.1.region
        (if u.1.2 then .producer else .consumer) (u.1.1.span i.batch) (.btx c i.id)
      (acc.1 ++ [k], s)) ([], s)
  s.modCore c fun x => { x with btx := x.btx.map fun j => if j.id = i.id then { j with claims := ks } else j }

def State.resumeCore (s : State) (c : Nat) : State :=
  let s := ((s.core c).btx).foldl (fun s i => (s.resumeInstr c i).reclaim c i) s
  (s.modCore c fun x => if x.run = .drained then { x with run := .running } else x).runBtx c

/-- Drained time does not count for the kernel watchdog (12 R425). -/
def State.countDrained (s : State) (k ns : Nat) : State :=
  (s.queuesOf k).foldl (fun s (q : Nat × Nat) => s.modQueue q.1 q.2 fun x =>
    { x with descs := x.descs.map fun d =>
        if d.dispatched then { d with drainedNs := d.drainedNs + ns } else d }) s

def State.resume (s : State) (k : Nat) : State :=
  let ns := match (s.ctx k).drainedAt with
    | some t => s.deviceTime.toNat - t.toNat
    | none => 0
  let s := s.modCtx k fun x => { x with st := .running, drainedAt := none, probeSince := none, progressed := false }
  ((s.listedCores k).foldl State.resumeCore (s.countDrained k ns)).resumeEngines k

/-- PLACE_RESUME. -/
def State.placeResumeCmd (s : State) (r : List Byte) : Reply :=
  let k := rq r 0 1
  if (s.ctx k).st = .drained then Reply.ok (s.resume k) else Reply.fail s stInvalidArg

def execPlaceResume (src : Src) (s : State) : Answer := .next (s.serve src 0x0403 State.placeResumeCmd)

end Sys2Proof.Machine
end

