-- ==== Sys2Proof/Machine/Links.lean ====
section
/-! DEFINITION. Mirura ports: lanes, codewords, flits and their replay, link packets, routing and
transport (08 R265 to R297, R310). -/
namespace Sys2Proof.Machine

/-! ### Widths (08 R266, Table 8.1) -/

def widthOf (lanes : BitVec 9) : Nat :=
  if 8 ≤ popCount lanes then 8 else if 4 ≤ popCount lanes then 4 else 0

/-- The active lanes at a width: lanes 0 to 7, the spare in place of a bad one, or the four lowest
good lanes. -/
def activeLanes (good : BitVec 9) (width : Nat) : List Nat := (setBits good).take width

/-! ### Packets as bytes (08 R278, Table 8.3) -/

def kWrite : BitVec 4 := 0
def kReadReq : BitVec 4 := 1
def kReadRsp : BitVec 4 := 2
def kWriteAck : BitVec 4 := 3
def kTack : BitVec 4 := 4
def kColData : BitVec 4 := 5

/-- Payload bytes that follow the header. A READ_REQ and a WRITE_ACK carry none: LEN counts the
bytes asked for, or acknowledged (DEDUCED, log 37). -/
def payloadLen (p : LinkPacket) : Nat := if p.kind = kReadReq ∨ p.kind = kWriteAck then 0 else p.len.toNat

def lpHeader (p : LinkPacket) : List Byte :=
  leBytes 24 (p.dest.toNat + 2 ^ 14 * p.src.toNat + 2 ^ 28 * p.cls.toNat + 2 ^ 30 * bit p.level
    + 2 ^ 32 * p.kind.toNat + 2 ^ 36 * p.fseq.toNat + 2 ^ 52 * p.len.toNat + 2 ^ 62 * p.status.toNat
    + 2 ^ 64 * p.job.toNat + 2 ^ 96 * p.epoch.toNat + 2 ^ 112 * p.xtag.toNat + 2 ^ 128 * p.addr.toNat
    + 2 ^ 176 * p.period.toNat)

/-- The trailer that belongs to a packet. -/
def lpCheck (p : LinkPacket) : Word := crc32c (lpHeader p ++ fit (payloadLen p) p.payload)

def sealPacket (p : LinkPacket) : LinkPacket := { p with trailer := lpCheck p }
/-- Stomp a packet: padded to its LEN, with the inverse of its trailer (R276). -/
def stompPacket (p : LinkPacket) : LinkPacket :=
  let p := { p with payload := fit (payloadLen p) p.payload }
  { p with trailer := ~~~(lpCheck p) }

def lpBytes (p : LinkPacket) : List Byte :=
  lpHeader p ++ fit (payloadLen p) p.payload ++ leBytes 4 p.trailer.toNat

/-- The header of a packet, read back. -/
def lpOf (bs : List Byte) : LinkPacket :=
  let h := leVal (bs.take 24)
  { dest := BitVec.ofNat 14 h, src := BitVec.ofNat 14 (bits h 27 14), cls := BitVec.ofNat 2 (bits h 29 28)
    level := bits h 30 30 == 1, kind := BitVec.ofNat 4 (bits h 35 32), fseq := BitVec.ofNat 16 (bits h 51 36)
    len := BitVec.ofNat 10 (bits h 61 52), status := BitVec.ofNat 2 (bits h 63 62)
    job := BitVec.ofNat 32 (bits h 95 64), epoch := BitVec.ofNat 16 (bits h 111 96)
    xtag := BitVec.ofNat 16 (bits h 127 112), addr := BitVec.ofNat 48 (bits h 175 128)
    period := BitVec.ofNat 16 (bits h 191 176) }

/-- The whole packets at the front of a stream, and what is left of it. Zero bytes where a header
would begin are the unused tail of a flit (DEDUCED, log 36). -/
def takePackets : Nat → List Byte → List LinkPacket × List Byte
  | 0, bs => ([], bs)
  | f + 1, bs =>
    if bs.all (· == 0) then ([], [])
    else if bs.length < 28 then ([], bs)
    else
      let p := lpOf bs
      let n := payloadLen p
      if bs.length < 28 + n then ([], bs)
      else
        let p := { p with payload := bytesAt bs 24 n, trailer := BitVec.ofNat 32 (field bs (24 + n) 4) }
        let (ps, rest) := takePackets f (bs.drop (28 + n))
        (p :: ps, rest)

/-! ### Flits (08 R274, Table 8.2) -/

/-- A flit that a port sends now, with what it has received acknowledged. -/
def Port.flit (x : Port) (seq : BitVec 12) (type : Nat) (nak : Bool) (crBuf crCount : Nat) (payload : List Byte) :
    List Byte :=
  let h := seq.toNat + 2 ^ 12 * (x.rxExpect - 1).toNat + 2 ^ 24 * bit x.rxAny + 2 ^ 25 * bit nak
    + 2 ^ 26 * type + 2 ^ 32 * crBuf + 2 ^ 36 * crCount
  let body := leBytes 8 h ++ fit 240 payload
  body ++ leBytes 8 (crc64 body).toNat

/-- Send an idle flit: it carries an acknowledgement, a NAK or credits. -/
def State.sendIdle (s : State) (p : Nat) (nak : Bool) (crBuf crCount : Nat) : State :=
  s.emit (.flit p ((s.port p).flit (s.port p).txSeq 1 nak crBuf crCount []))

/-- The first `n` flit payloads of a packet stream. -/
def flitPayloads (n : Nat) (bs : List Byte) : List (List Byte) :=
  (List.range n).map fun i => bytesAt bs (240 * i) 240

/-- Send one data flit and keep it in the replay buffer. -/
def State.sendData (s : State) (p : Nat) (payload : List Byte) : State :=
  let x := s.port p
  let f := x.flit x.txSeq 0 false 0 0 payload
  (s.emit (.flit p f)).modPort p fun x => { x with txSeq := x.txSeq + 1, replay := x.replay ++ [f] }

/-- Add bytes to the packet stream of a port: every full payload leaves in a flit, the rest stays for
the bytes that follow it (R274). A port that is not UP sends nothing: its stream waits until it is. -/
def State.pushStream (s : State) (p : Nat) (bs : List Byte) : State :=
  let all := (s.port p).txTail ++ bs
  let n := if (s.port p).st = .up then all.length / 240 else 0
  (flitPayloads n all).foldl (fun s b => s.sendData p b) (s.modPort p fun x => { x with txTail := all.drop (240 * n) })

/-- What stays at the end of the stream of a port that is UP leaves in a flit with a zero tail. -/
def State.flushStream (s : State) (p : Nat) : State :=
  let t := (s.port p).txTail
  if t.isEmpty ∨ (s.port p).st ≠ .up then s else (s.modPort p fun x => { x with txTail := [] }).sendData p t

/-- The stream before a packet that begins now: where only zero bytes of its header would stand in what is
left of the flit, a receiver could not tell them from an unused tail, so the flit ends with a zero tail and
the packet begins in the next one (DEDUCED, log 36). -/
def Port.startOf (x : Port) (bs : List Byte) : List Byte :=
  let r := x.txTail.length % 240
  if r ≠ 0 ∧ (bs.take (240 - r)).all (· == 0) then fit (x.txTail.length + 240 - r) x.txTail else x.txTail

/-- Begin a packet in the stream of a port. -/
def State.beginStream (s : State) (p : Nat) (bs : List Byte) : State :=
  (s.modPort p fun x => { x with txTail := x.startOf bs }).pushStream p bs

/-- Send a packet: back to back with the next one, when one waits (R274). -/
def State.sendPacket (s : State) (p : Nat) (k : LinkPacket) : State :=
  let s := s.beginStream p (lpBytes k)
  if (s.port p).egress.isEmpty then s.flushStream p else s

/-- A port with no packet that can go sends what stays of its stream, and else an idle flit
(R275 to R277). -/
def State.sendRest (s : State) (p : Nat) : State :=
  let x := s.port p
  if x.openPkt.isNone ∧ !x.txTail.isEmpty ∧ x.replay.length < 3200 then s.flushStream p else s.sendIdle p false 0 0

/-- The replay buffer holds 3,200 flits (R275). -/
def Port.replayRoom (x : Port) (k : LinkPacket) : Bool :=
  decide (x.replay.length + ((x.startOf (lpBytes k)).length + (lpBytes k).length + 239) / 240 ≤ 3200)

/-! ### SYN units and codewords (08 R272, R298, Table 8.7) -/

/-- A SYN message in its 20 bytes. -/
def synBytes (m : SynMsg) : List Byte :=
  leBytes 20 (m.kind.toNat + 2 ^ 4 * m.group.toNat + 2 ^ 10 * m.src.toNat + 2 ^ 32 * m.job.toNat
    + 2 ^ 64 * m.epoch.toNat + 2 ^ 80 * m.payload.toNat)

def synOf (bs : List Byte) : SynMsg :=
  let h := leVal (bs.take 20)
  { kind := BitVec.ofNat 4 h, group := BitVec.ofNat 6 (bits h 9 4), src := BitVec.ofNat 14 (bits h 23 10)
    job := BitVec.ofNat 32 (bits h 63 32), epoch := BitVec.ofNat 16 (bits h 79 64)
    payload := BitVec.ofNat 64 (bits h 143 80) }

/-- A SYN unit: up to three messages, KIND EMPTY in the places not used, and the CRC-32C of the 60
bytes. -/
def synUnit (ms : List SynMsg) : List Byte :=
  let b := fit 60 (ms.flatMap synBytes)
  b ++ leBytes 4 (crc32c b).toNat

/-- The messages of a SYN unit with a good CRC. -/
def synMsgs (u : List Byte) : List SynMsg :=
  if (crc32c (u.take 60)).toNat = field u 60 4 then
    ((List.range 3).map fun i => synOf (bytesAt u (20 * i) 20)).filter fun m => m.kind != 0
  else []

/-- The units that an output puts into the stream of a port: four flit units, or a SYN unit with the one
message that was waiting (R299). -/
def Output.units (p : Nat) : Output → List (Bool × List Byte)
  | .flit q bs => if q = p then (List.range 4).map fun i => (false, bytesAt bs (64 * i) 64) else []
  | .syn q m => if q = p then [(true, synUnit [m])] else []
  | _ => []

/-- The `i`-th codeword of a port: ten units of its stream, in order. -/
def State.codewordSent (s : State) (p i : Nat) : Codeword :=
  { units := ((s.out.reverse.flatMap (Output.units p)).drop (10 * i)).take 10
    control := Config.laneControl (s.port p).active }

/-- The 544 symbols of a codeword: 514 that hold the units, the unit-type bits and the lane-control bits
in this order (DEDUCED, log 36), and the check symbols. -/
def cwSymbols (c : Codeword) : List (BitVec 10) :=
  let v := leVal (c.units.flatMap (·.2)) + 2 ^ 5120 * (c.units.zipIdx.map fun u => 2 ^ u.2 * bit u.1.1).sum + 2 ^ 5130 * c.control.toNat
  let data := (List.range 514).map fun i => BitVec.ofNat 10 (v / 2 ^ (10 * i))
  data ++ (List.finRange 30).map (Config.rsCheck data)

/-- The symbols that an active lane carries: the codeword is interleaved by symbol (R272). -/
def cwOnLane (c : Codeword) (active : List Nat) (lane : Nat) : List (BitVec 10) :=
  ((cwSymbols c).zipIdx.filter fun x => active[x.2 % active.length]? == some lane).map (·.1)

/-- Four flit units joined to a flit; none when one of them is bad (R273). -/
def joinUnits (us : List (Option (List Byte))) : Option (List Byte) :=
  us.foldr (fun u acc => match u, acc with
    | some b, some bs => some (b ++ bs)
    | _, _ => none) (some [])

/-- A unit of a received codeword: flit units join in order, whatever SYN units stand between them; a
bad SYN unit is discarded (R273). -/
def Port.takeUnit (good : Bool) (x : Port) (u : Bool × List Byte) : Port :=
  if u.1 then { x with rxSyn := if good then x.rxSyn ++ synMsgs u.2 else x.rxSyn }
  else
    let us := x.rxUnits ++ [if good then some u.2 else none]
    if us.length < 4 then { x with rxUnits := us } else { x with rxUnits := [], rxFlits := x.rxFlits ++ [joinUnits us] }

/-- A message of a received SYN unit is handled. -/
def State.takeSyn (s : State) (p : Nat) (m : SynMsg) : State :=
  if (s.port p).rxSyn.contains m then s.modPort p fun x => { x with rxSyn := x.rxSyn.erase m } else s

/-! ### Credits (08 R283, Table 8.4) -/

/-- 64-byte units that a packet takes in an ingress buffer. -/
def lpUnits (p : LinkPacket) : Nat := (28 + payloadLen p + 63) / 64

/-- The ingress buffer that a packet enters at a node. -/
def bufferOf (p : LinkPacket) (node : Option (BitVec 14)) : Nat :=
  if p.cls = 2 then 6
  else if node = some p.dest then (if p.cls = 0 then 0 else 1)
  else (if p.cls = 0 then 2 else 4) + bit p.level

def bufferUnits (b : Nat) : Nat := if b = 6 then 4096 else 2048

/-- COL credits that a group has out at a port. -/
def Port.colUsed (x : Port) (g : Nat) : Nat := ((x.colOut.filter (·.1 == g)).map (·.2)).sum

/-- COL credits come back: those drawn first (DESIGN CHOICE, log 36: a flit returns them without naming a
group). -/
def returnCol : List (Nat × Nat) → Nat → List (Nat × Nat)
  | [], _ => []
  | (g, u) :: rest, n => if u ≤ n then returnCol rest (n - u) else (g, u - n) :: rest

/-- The mark of a COL packet of another module (R286). -/
def colTransit : Nat := 32

/-- Is there credit for a whole packet at a port: in the peer's buffer, and for COL in the 16 KiB that the
packet's group reserved there, or in what no group reserved (R283, R286)? -/
def State.hasCredit (s : State) (p : Nat) (e : Egress) (k : LinkPacket) : Bool :=
  let x := s.port p
  let b := bufferOf k (if x.peerValid then some x.peer else none)
  decide (lpUnits k ≤ Tab.get 0 x.credits b) && (b != 6 || match e.col with
    | some t => (match Tab.get none s.fabric.col t.group with
        | some g => g.ports.contains p && decide (x.colUsed t.group + lpUnits k ≤ 256)
        | none => false)
    | none => decide (x.colUsed colTransit + lpUnits k ≤ 4096 - x.colReserved / 64))

/-- Draw the credit of a packet that leaves. -/
def State.drawCredit (s : State) (p : Nat) (e : Egress) (k : LinkPacket) : State :=
  s.modPort p fun x =>
    let b := bufferOf k (if x.peerValid then some x.peer else none)
    let g := match e.col with
      | some t => t.group.val
      | none => colTransit
    { x with credits := Tab.mod 0 x.credits b (· - lpUnits k)
             colOut := if b = 6 then x.colOut ++ [(g, lpUnits k)] else x.colOut }

/-! ### Routing (08 R288 to R291) -/

def rtPrimary (e : BitVec 14) : Nat := bits e.toNat 3 0
def rtPValid (e : BitVec 14) : Bool := e.getLsbD 4
def rtAlt (e : BitVec 14) : Nat := bits e.toNat 8 5
def rtAValid (e : BitVec 14) : Bool := e.getLsbD 9
def rtLocal (e : BitVec 14) : Bool := e.getLsbD 13

def State.route (s : State) (node : BitVec 14) : BitVec 14 := Tab.get 0 s.fabric.routes node.toNat

/-- The port that the entry of a node gives now (R290). -/
def State.portFor (s : State) (node : BitVec 14) : Option Nat :=
  let e := s.route node
  let up := fun n => (s.port n).st == .up
  if rtPValid e && up (rtPrimary e) then some (rtPrimary e)
  else if rtAValid e && up (rtAlt e) then some (rtAlt e)
  else none

/-- LEVEL of a packet that leaves on a port (Table 8.5). -/
def levelAfter (e : BitVec 14) (p : Nat) (level : Bool) : Bool :=
  let dateline := if rtPValid e && rtPrimary e == p then e.getLsbD 10 else e.getLsbD 11
  (level && !e.getLsbD 12) || dateline

/-- Does the class bit of a route update name the packet's class? -/
def classNamed (classes : Byte) (cls : BitVec 2) : Bool := decide (cls.toNat < 3) && classes.getLsbD cls.toNat

/-- Does a held update change the packet's destination entry (R291)? -/
def State.isHeld (s : State) (p : LinkPacket) : Bool :=
  match s.fabric.held with
  | none => false
  | some h =>
    classNamed h.classes p.cls && decide (h.first ≤ p.dest.toNat)
      && (match h.entries[p.dest.toNat - h.first]? with
          | some w => w.setWidth 14 != s.route p.dest
          | none => false)

/-- A packet is discarded for want of a route: counted at the port it came in on, for a packet of
this module at the entry's primary port (DEDUCED, log 36). -/
def State.noRoute (s : State) (p : Nat) : State :=
  s.modPort p fun x => { x with noRoute := satAdd 0xFFFFFFFF x.noRoute 1, noRouteEv := true }

/-- The place of a packet of this module for itself, beside the ports (R290). -/
def localPort : Nat := 16

/-- Put a packet at an egress port, deliver it here, or discard it (R290). -/
def State.enqueue (s : State) (via : Nat) (e : Egress) : State :=
  if rtLocal (s.route e.pkt.dest) then s.modFabric fun x => { x with arrived := x.arrived ++ [(localPort, e.pkt)] }
  else match s.portFor e.pkt.dest with
    | some p => s.modPort p fun x => { x with egress := x.egress ++ [e] }
    | none => s.noRoute via

/-- Is the packet's context generation no longer current (R280)? -/
def State.staleEgress (s : State) (e : Egress) : Bool :=
  match e.owner with
  | some (k, gen) => (s.ctx k).st == .free || (s.ctx k).gen != gen
  | none => false

/-! ### Transport at the sender (08 R293 to R297) -/

def Flow.is (cls : BitVec 2) (node : BitVec 14) (f : Flow) : Bool := f.cls == cls && f.dest == node

def State.flow (s : State) (cls : BitVec 2) (node : BitVec 14) : Option Flow :=
  s.fabric.flows.find? (Flow.is cls node)

def State.modFlow (s : State) (cls : BitVec 2) (node : BitVec 14) (g : Flow → Flow) : State :=
  s.modFabric fun x => { x with flows := x.flows.map fun f => if Flow.is cls node f then g f else f }

/-- The module tracks at most 65,536 flows, of both directions (R297). -/
def State.flowRoom (s : State) : Bool := decide (s.fabric.flows.length + s.fabric.rxFlows.length < 65536)

/-- The I/O die whose transport store keeps a packet: that of the port it leaves on, of its entry's
primary port while it has none, and die 0 for a packet to this module (R293, log 38). -/
def State.dieFor (s : State) (node : BitVec 14) : Nat :=
  if rtLocal (s.route node) then 0 else (s.portFor node).getD (rtPrimary (s.route node)) / 8

/-- Bytes kept in the 32 MiB transport store of an I/O die (R293). -/
def State.keptBytes (s : State) (die : Nat) : Nat :=
  (((s.fabric.flows.flatMap (·.kept)).filter (·.die == die)).map fun k => 28 + payloadLen k.pkt).sum

def State.storeRoom (s : State) (k : LinkPacket) : Bool :=
  decide (s.keptBytes (s.dieFor k.dest) + 28 + payloadLen k ≤ 33554432)

/-- Has a packet of this module a flow, or room for one? -/
def State.flowFor (s : State) (k : LinkPacket) : Bool := (s.flow k.cls k.dest).isSome || s.flowRoom

/-- Can a packet of this module go into the egress path now: its entry is not held, and there is a flow
and room in the transport store for it (R285, R291, R293, R297)? -/
def State.canInject (s : State) (k : LinkPacket) : Bool := !s.isHeld k && s.flowFor k && s.storeRoom k

/-- Number a packet in its flow, which is created for it if need be, and keep it until a TACK covers
it (R293); the packet as it leaves. -/
def State.number (s : State) (e : Egress) : LinkPacket × State :=
  let k := e.pkt
  let s := if (s.flow k.cls k.dest).isSome then s else s.modFabric fun x =>
    { x with flows := x.flows ++ [{ cls := k.cls, dest := k.dest, lastTack := s.deviceTime, ctx := e.owner.map (·.1) }] }
  let seq := match s.flow k.cls k.dest with
    | some f => f.nextSeq
    | none => 0
  let k := sealPacket { k with fseq := seq }
  let kept : Kept1 := { pkt := k, sentAt := s.deviceTime, owner := e.owner, col := e.col, die := s.dieFor k.dest }
  (k, s.modFlow k.cls k.dest fun f =>
    { f with nextSeq := f.nextSeq + 1, lastUse := s.deviceTime
             lastTack := if f.kept.isEmpty then s.deviceTime else f.lastTack
             kept := f.kept ++ [kept] })

/-- A packet of this module leaves its engine for an egress port. It waits while its entry is held, the
table of flows is full or the transport store has no room; one whose generation has ended goes
nowhere (10 R375). A packet that waits for a flow is counted once (R297). -/
def State.injectLink (s : State) (e : Egress) : State :=
  if s.staleEgress e then s
  else if s.canInject e.pkt then
    let (k, s) := s.number e
    s.enqueue (rtPrimary (s.route k.dest)) { e with pkt := k }
  else
    let full := !s.isHeld e.pkt && !s.flowFor e.pkt
    s.modFabric fun x =>
      { x with waiting := x.waiting ++ [{ e with counted := e.counted || full }]
               flowFull := if full && !e.counted then satAdd 0xFFFFFFFF x.flowFull 1 else x.flowFull }

/-- Packets that waited are tried again, in their order. -/
def State.retryWaiting (s : State) : State :=
  let ws := s.fabric.waiting
  ws.foldl State.injectLink (s.modFabric fun x => { x with waiting := [] })

/-! ### Lanes and the state of a link (08 R266 to R269, R276, R277) -/

/-- The rest of a packet that a port holds open goes into its stream: of `k`, at the LEVEL with which it
began. -/
def State.finishOpen (s : State) (q : Nat) (k : LinkPacket) (ending : LinkPacket → LinkPacket) : State :=
  match (s.port q).openPkt with
  | none => s
  | some (_, h) =>
    let k := ending { k with level := h.level }
    let s := (s.modPort q fun x => { x with openPkt := none }).pushStream q ((lpBytes k).drop (24 + h.payload.length))
    if (s.port q).egress.isEmpty then s.flushStream q else s

/-- A cut-through packet whose rest will not come is completed by stomping it (R276). -/
def State.stompFrom (s : State) (p : Nat) : State :=
  (List.range 16).foldl (fun s q =>
    match (s.port q).openPkt with
    | some (n, k) => if n = p then s.finishOpen q k stompPacket else s
    | none => s) s

/-- A link is lost: the flits of its replay buffer go, packets that wait at the port take another
route, and it retrains (R277; 12 R441). -/
def State.linkLost (s : State) (p : Nat) : State :=
  let es := (s.port p).egress
  let s := s.modPort p fun x =>
    { x with
      wentDown := true, retrain := bump x.retrain, replay := [], rxStream := [], rxUnits := [], rxFlits := []
      rxSyn := [], txTail := [], openPkt := none, colOut := []
      txSeq := 0, rxExpect := 0, rxAny := false, downSince := some s.deviceTime, egress := [], active := []
      spareUsed := false, peerValid := false }
  let s := s.setPortSt p (if (s.port p).heldDown then .down else .training) 0
  let s := es.foldl (fun s e => s.enqueue p e) (s.stompFrom p)
  s.recordDown p

/-- A port retrains on purpose: its replay buffer is kept (log 36). -/
def State.retrainPort (s : State) (p : Nat) : State :=
  let s := s.modPort p fun x =>
    { x with retrain := bump x.retrain, badCodewords := [], peerValid := false, rxUnits := [], rxFlits := [] }
  s.setPortSt p .training 0

/-- A lane of a port fails (08 R267, R268): the spare takes the lane's traffic, or the port falls back to
four lanes, or goes down. -/
def State.laneFails (s : State) (p : Nat) (lane : Fin 9) : State :=
  let x := s.port p
  let good := x.laneGood &&& ~~~(oneBit 9 lane)
  let s := s.modPort p fun x => { x with laneGood := good }
  if x.st ≠ .up ∨ !x.active.contains lane.val then s
  else if widthOf good = 0 then s.linkLost p
  else if x.width = 8 ∧ !x.spareUsed ∧ good.getLsbD 8 then
    s.modPort p fun x =>
      { x with laneSpared := bump x.laneSpared, spareUsed := true, active := activeLanes good 8 }
  else
    let lanes := activeLanes good 4
    (s.modPort p fun x =>
      { x with
        laneSpared := bump x.laneSpared, retrain := bump x.retrain, narrowed := true, active := lanes
        spareUsed := lanes.contains 8 }).setPortSt p .up 4

/-- LANE_FAILURE: this port finds an active lane failed. -/
def execLaneFailure (p : PortId) (lane : Fin 9) (s : State) : Answer := .next (s.laneFails p lane)

/-- The lane-control bits of a good codeword are the peer's part of the agreement on spare and fallback
(R272): a lane that they name as failed is given up at this end too. The spec gives them no encoding
(log 36). -/
def State.agreeLanes (s : State) (p : Nat) (control : BitVec 10) : State :=
  let s := s.modPort p fun x => { x with rxCtl := control }
  match Config.peerLane control with
  | some lane => if (s.port p).active.contains lane.val then s.laneFails p lane else s
  | none => s

/-- CODEWORD (08 R272, R273): with up to 15 symbol errors its units are as they were sent; more mark the
ten units bad, and more than four such codewords within 1 ms retrain the port. -/
def execCodeword (p : PortId) (symbolErrors : Nat) (cw : Codeword) (s : State) : Answer :=
  let x := s.port p
  let good := decide (symbolErrors ≤ 15)
  let now := cw.units.foldl (Port.takeUnit good) x
  .next (if x.st ≠ .up then s
    else if good then (s.setPort p now).agreeLanes p cw.control
    else
      let recent := s.deviceTime :: x.badCodewords.filter fun t => decide (s.deviceTime.toNat ≤ t.toNat + 1000000)
      let s := s.setPort p { now with badCodewords := recent }
      if 4 < recent.length then s.retrainPort p else s)

/-- LINK_DOWN (08 R277): 10 µs without a good flit. -/
def execLinkDown (p : PortId) (s : State) : Answer :=
  .next (if (s.port p).st = .up ∧ s.passed (s.port p).lastGood 10000 then s.linkLost p else s)

/-! ### FLIT (08 R275, R276) -/

/-- A bad or out-of-order flit is answered with NAK. -/
def State.nakFlit (s : State) (p : Nat) (badCrc : Bool) : State :=
  let s := s.modPort p fun x =>
    { x with crcErr := if badCrc then bump x.crcErr else x.crcErr, replayCtr := bump x.replayCtr }
  s.sendIdle p true 0 0

/-- SEQ of a flit. -/
def flitSeq (f : List Byte) : BitVec 12 := BitVec.ofNat 12 (field f 0 2)

/-- Drop the flits that an ACK covers: the one with its SEQ, if the buffer holds it, and those before it
(the buffer holds fewer flits than there are SEQ values). -/
def Port.acked (x : Port) (ack : BitVec 12) : Port :=
  match x.replay.findIdx? fun f => flitSeq f == ack with
  | some i => { x with replay := x.replay.drop (i + 1) }
  | none => x

/-- Resend everything in the replay buffer. -/
def State.resend (s : State) (p : Nat) : State :=
  (s.port p).replay.foldl (fun s f => s.emit (.flit p f)) s

/-- Is the packet the one that a port holds open? -/
def sameOpen (p : Nat) (k : LinkPacket) (o : Option (Nat × LinkPacket)) : Bool :=
  match o with
  | some (n, h) => n == p && h.dest == k.dest && h.src == k.src && h.fseq == k.fseq && h.cls == k.cls
      && h.kind == k.kind
  | none => false

/-- The port that holds a packet from port `p` open. -/
def State.openAt (s : State) (p : Nat) (k : LinkPacket) : Option Nat :=
  (List.range 16).find? fun q => sameOpen p k (s.port q).openPkt

/-- A packet that is still arriving and is bound elsewhere is forwarded as soon as its header is here,
when its onward port is free and holds credit and replay room for the whole of it; what comes later
follows (R276, R283, R311). -/
def State.cutThrough (s : State) (p : Nat) : State :=
  let rest := (s.port p).rxStream
  let k := lpOf rest
  let k := { k with payload := bytesAt rest 24 (payloadLen k) }
  if rest.length < 24 ∨ rtLocal (s.route k.dest) ∨ s.isHeld k then s
  else match s.openAt p k with
    | some q =>
      let had := match (s.port q).openPkt with
        | some (_, h) => h.payload.length
        | none => 0
      (s.modPort q fun x => { x with openPkt := x.openPkt.map fun o => (o.1, { o.2 with payload := k.payload }) }).pushStream q
        (k.payload.drop had)
    | none =>
      match s.portFor k.dest with
      | none => s
      | some q =>
        let k := { k with level := levelAfter (s.route k.dest) q k.level }
        if (s.port q).openPkt.isSome ∨ !(s.port q).egress.isEmpty ∨ !s.hasCredit q { pkt := k } k
            ∨ !(s.port q).replayRoom k then s
        else
          ((s.drawCredit q { pkt := k } k).modPort q fun x => { x with openPkt := some (p, k) }).beginStream q
            (lpHeader k ++ k.payload)

/-- Take the payload of an accepted flit: its packets go into ingress buffers. -/
def State.takeStream (s : State) (p : Nat) (payload : List Byte) : State :=
  let bs := (s.port p).rxStream ++ payload
  let (ks, rest) := takePackets 40 bs
  let s := s.modPort p fun x =>
    { x with rxStream := rest, used := ks.foldl (fun u k =>
        Tab.mod 0 u (bufferOf k s.fabric.node) (· + 64 * lpUnits k)) x.used }
  (s.modFabric fun x => { x with arrived := x.arrived ++ ks.map fun k => (p, k) }).cutThrough p

/-- The flit that FLIT takes: the oldest that the units of codewords joined, none where a unit of it was
bad, and where none waits the one the command gives (log 36). -/
def Port.nextFlit (x : Port) (bytes : List Byte) : Option (List Byte) :=
  match x.rxFlits with
  | [] => some bytes
  | f :: _ => f

/-- FLIT: a flit of 256 bytes at a port. -/
def execFlit (p : PortId) (bytes : List Byte) (s : State) : Answer :=
  let x := s.port p
  let flit := x.nextFlit bytes
  let bytes := flit.getD []
  let h := field bytes 0 8
  let good := flit.isSome && bytes.length == 256 && (crc64 (bytes.take 248)).toNat == field bytes 248 8
  .next (if x.st ≠ .up then s
    else
      let s := s.modPort p fun x => { x with rxFlits := x.rxFlits.drop 1 }
      if !good then s.nakFlit p true
      else
        let s := s.modPort p fun x =>
          { x with
            lastGood := s.deviceTime, credits := Tab.mod 0 x.credits (bits h 35 32) (· + bits h 47 36)
            colOut := if bits h 35 32 = 6 then returnCol x.colOut (bits h 47 36) else x.colOut }
        let s := if bits h 24 24 = 1 then s.modPort p (·.acked (BitVec.ofNat 12 (bits h 23 12))) else s
        let s := if bits h 25 25 = 1 then s.resend p else s
        if bits h 27 26 ≠ 0 then s
        else if bits h 11 0 ≠ x.rxExpect.toNat then s.nakFlit p false
        else
          let s := s.modPort p fun x => { x with rxExpect := x.rxExpect + 1, rxAny := true }
          (s.takeStream p (bytesAt bytes 8 240)).sendIdle p false 0 0)

/-! ### Packets at their destination (08 R279 to R281, R294) -/

/-- The context that holds a job. -/
def State.jobCtx (s : State) (job : Word) : Option Nat :=
  if job = 0 then none else (List.range 16).find? fun k => (s.ctx k).st != .free && (s.ctx k).job == job

def RxFlow.is (cls : BitVec 2) (node : BitVec 14) (f : RxFlow) : Bool := f.cls == cls && f.src == node

/-- Move the base over what has been accepted, with fuel. -/
def RxFlow.slide : Nat → RxFlow → RxFlow
  | 0, f => f
  | n + 1, f =>
    if f.bitmap.getLsbD 0 then RxFlow.slide n { f with base := f.base + 1, bitmap := f.bitmap >>> 1 } else f

/-- Accept a sequence number at most once, within the window; either way a TACK is due. -/
def RxFlow.accept (f : RxFlow) (seq : Half) (now : DWord) : Bool × RxFlow :=
  let off := (seq - f.base).toNat
  let f := { f with tackDue := some (f.tackDue.getD now) }
  if 64 ≤ off ∨ f.bitmap.getLsbD off then (false, f)
  else (true, RxFlow.slide 64 { f with bitmap := f.bitmap ||| oneBit 64 off })

/-- The receive side of a packet's flow. -/
def State.rxFlow (s : State) (k : LinkPacket) : Option RxFlow := s.fabric.rxFlows.find? (RxFlow.is k.cls k.src)

/-- Run a packet through the receive side of its flow. -/
def State.acceptSeq (s : State) (k : LinkPacket) : Bool × State :=
  let f := (s.rxFlow k).getD { cls := k.cls, src := k.src, ctx := s.jobCtx k.job }
  let (ok, f) := f.accept k.fseq s.deviceTime
  (ok, s.modFabric fun x =>
    { x with rxFlows := (x.rxFlows.filter fun g => !RxFlow.is k.cls k.src g) ++ [{ f with lastUse := s.deviceTime }] })

/-- The response of a request, back to its source. -/
def State.answerPacket (s : State) (k : LinkPacket) (kind : BitVec 4) (status len : Nat) (data : List Byte) : LinkPacket :=
  { dest := k.src, src := s.nodeId, cls := 1, kind, len := BitVec.ofNat 10 len, status := BitVec.ofNat 2 status
    job := k.job, epoch := k.epoch, xtag := k.xtag, addr := k.addr, period := k.period, payload := data }

def State.respond (s : State) (k : LinkPacket) (owner : Option Nat) (kind : BitVec 4) (status : Nat)
    (len : Nat) (data : List Byte) : State :=
  s.injectLink { pkt := s.answerPacket k kind status len data, owner := owner.map fun n => (n, (s.ctx n).gen) }

/-- A request is served only when its response has a place in the egress path (R285). -/
def State.canAnswer (s : State) (k : LinkPacket) : Bool :=
  k.cls != 0 || s.canInject (s.answerPacket k (if k.kind = kReadReq then kReadRsp else kWriteAck) 0 k.len.toNat [])

/-- Link STATUS of a status code (Table 8.3). -/
def linkStatus (st : Nat) : Nat :=
  if st = stOk then 0 else if st = stPoisoned then 1 else if st = stFenced then 2 else 3

/-- The status code of a link STATUS. -/
def ofLinkStatus (st : BitVec 2) : Nat :=
  if st = 0 then stOk else if st = 1 then stPoisoned else if st = 2 then stFenced else stInvalidArg

/-- A WRITE, at the home sector store. -/
def State.linkWrite (s : State) (n : Nat) (k : LinkPacket) : State :=
  let a := k.addr.toNat
  let len := k.len.toNat
  let (st, t) :=
    if !s.homedTier n a (max 1 len) then (stInvalidArg, s)
    else if k.status ≠ 0 then s.storePoison n a len
    else s.storeWrite n a (fit len k.payload)
  t.respond k (some n) kWriteAck (linkStatus st) len []

/-- A READ_REQ, at the home sector store. -/
def State.linkRead (s : State) (n : Nat) (k : LinkPacket) : State :=
  let a := k.addr.toNat
  let len := k.len.toNat
  if !s.homedTier n a (max 1 len) then s.respond k (some n) kReadRsp (linkStatus stInvalidArg) 0 []
  else
    let (st, bs) := s.storeRead n a len
    (s.touchRead st a len).respond k (some n) kReadRsp (linkStatus st) bs.length bs

/-! ### PUT and GET packets (R284, R309) -/

/-- Room in the engine's reply store that the answer of one packet takes: a whole READ_RSP, or a
WRITE_ACK (R284). -/
def replyRoom (op len : Nat) : Nat := 28 + if op = 6 then len else 0

/-- The packets that can be issued with `room` bytes of the 1 MiB reply store taken, and those that stay. -/
def takeRoom (op : Nat) : Nat → List (Nat × Nat) → List (Nat × Nat) × List (Nat × Nat)
  | _, [] => ([], [])
  | room, p :: ps =>
    if 1048576 < room + replyRoom op p.2 then ([], p :: ps)
    else
      let (now, later) := takeRoom op (room + replyRoom op p.2) ps
      (p :: now, later)

/-- Issue one packet of a PUT or GET: a WRITE or READ_REQ at `p.1` of the peer. -/
def State.issuePacket (s : State) (k : Nat) (d : Desc) (node : Nat) (p : Nat × Nat) : State :=
  let x := s.ctx k
  let put := field d.bytes 0x25 1 == 5
  let src := field d.bytes 0x10 8 + (p.1 - field d.bytes 0x18 8)
  let (st, bs) := if put then s.storeRead k src p.2 else (stOk, [])
  let pkt : LinkPacket :=
    { dest := BitVec.ofNat 14 node, src := s.nodeId, cls := 0
      kind := if put then kWrite else kReadReq, len := BitVec.ofNat 10 p.2
      status := BitVec.ofNat 2 (linkStatus st), job := x.job, epoch := x.epoch
      xtag := BitVec.ofNat 16 d.id, addr := BitVec.ofNat 48 p.1
      period := if x.periodUs = 0 then 0 else x.periodSeq.setWidth 16, payload := bs }
  let s := if bs.isEmpty then s else s.moved k
  (if put then s.touchRead st src p.2 else s).injectLink { pkt, owner := some (k, x.gen) }

/-- The engine of a PUT or GET issues what its reply store has room for. -/
def State.issueTransfer (s : State) (k : Nat) (d : Desc) (r : Collective) : State :=
  match Tab.get none s.fabric.col r.group with
  | none => s
  | some g =>
    let (now, later) := takeRoom r.op (r.issued.map fun p => replyRoom r.op p.2).sum r.todo
    let r' := { r with todo := later, issued := r.issued ++ now }
    let s := s.modFabric fun x => { x with running := x.running.map fun y => if y.desc = r.desc then r' else y }
    now.foldl (fun s p => s.issuePacket k d (g.ranks.getD (field d.bytes 0x28 2) 0) p) s

/-- The response of a PUT or GET packet: its bytes, its error, and the packets left. The descriptor
is the one whose number the XTAG carries. The room of the answer is free again (R284). -/
def State.linkResponse (s : State) (n : Nat) (k : LinkPacket) : State :=
  match s.fabric.running.find? fun r => r.desc % 65536 == k.xtag.toNat && (s.queue r.f r.slot).ctx == n
      && r.left != 0 with
  | none => s
  | some r =>
    match s.desc r.f r.slot r.desc, r.issued.find? fun p => p.1 % 2 ^ 48 == k.addr.toNat with
    | some d, some p =>
      let st := ofLinkStatus k.status
      let at_ := field d.bytes 0x10 8 + (p.1 - field d.bytes 0x18 8)
      let (st, s) := if k.kind = kReadRsp ∧ st = stOk then s.storeWrite n at_ (fit k.len.toNat k.payload) else (st, s)
      let r' := { r with left := r.left - 1, status := worse r.status st
                         issued := r.issued.erase p
                         written := if st = stOk then r.written + k.len.toNat else r.written }
      let s := s.modCtx n fun c => { c with progressed := true }
      if r'.left = 0 then
        (s.modFabric fun x => { x with running := x.running.filter (·.desc != r.desc) }).complete r.f r.slot d
          r'.status (min 0xFFFFFFFF r'.written)
      else s.issueTransfer n d r'
    | _, _ => s

/-- R279: is the packet of a job, an epoch and a period of a context here? -/
def State.linkCtx (s : State) (k : LinkPacket) : Option Nat :=
  match s.jobCtx k.job with
  | none => none
  | some n =>
    let x := s.ctx n
    if x.epoch = k.epoch ∧ (x.periodUs = 0 ∨ k.period = x.periodSeq.setWidth 16) then some n else none

/-- An accepted packet at its destination module. COL_DATA and TACK are commands of their own. -/
def State.deliverLink (s : State) (k : LinkPacket) : State :=
  match s.linkCtx k with
  | none => if k.kind = kReadReq then s.respond k none kReadRsp 1 0 [] else s
  | some n =>
    if k.kind = kWrite then s.linkWrite n k
    else if k.kind = kReadReq then s.linkRead n k
    else if k.kind = kReadRsp ∨ k.kind = kWriteAck then s.linkResponse n k
    else s

/-- A packet leaves the ingress buffers of a port, and its credits go back (R283); one of this module for
itself has drawn none. -/
def State.takeArrived (s : State) (p : Nat) (k : LinkPacket) : State :=
  if s.fabric.arrived.contains (localPort, k) then
    s.modFabric fun x => { x with arrived := x.arrived.erase (localPort, k) }
  else if s.fabric.arrived.contains (p, k) then
    let b := bufferOf k s.fabric.node
    let s := s.modFabric fun x => { x with arrived := x.arrived.erase (p, k) }
    let s := s.modPort p fun x => { x with used := Tab.mod 0 x.used b (· - 64 * lpUnits k) }
    if (s.port p).st = .up then s.sendIdle p false b (lpUnits k) else s
  else s

/-- A packet stays in the ingress buffers of a port. -/
def State.keepArrived (s : State) (p : Nat) (k : LinkPacket) : State :=
  if s.fabric.arrived.contains (localPort, k) ∨ s.fabric.arrived.contains (p, k) then s
  else s.modFabric fun x => { x with arrived := x.arrived ++ [(p, k)] }

/-- A packet for another module: completed where it is held open, or queued for its port. -/
def State.forwardLink (s : State) (p : Nat) (k : LinkPacket) : State :=
  match s.openAt p k with
  | some q => s.finishOpen q k sealPacket
  | none => s.enqueue p { pkt := k }

/-- A stomped packet is counted and discarded; one that was being forwarded is stomped again. -/
def State.stomped (s : State) (p : Nat) (k : LinkPacket) : State :=
  let s := s.modPort p fun x => { x with stomped := bump x.stomped }
  match s.openAt p k with
  | some q => s.finishOpen q k stompPacket
  | none => s

/-- A packet for this module: run through its flow, and delivered once. It stays where it is while the
table has no room for its flow, which is counted once (R297), and a request while its response has no
place in the egress path (R285). -/
def State.receiveHere (s : State) (p : Nat) (k : LinkPacket) (deliver : State → State) : State :=
  if (s.rxFlow k).isNone ∧ !s.flowRoom then
    if s.fabric.fullSeen.contains k then s.keepArrived p k
    else (s.keepArrived p k).modFabric fun x =>
      { x with fullSeen := x.fullSeen ++ [k], flowFull := satAdd 0xFFFFFFFF x.flowFull 1 }
  else
    let (ok, t) := s.acceptSeq k
    if ok && !t.canAnswer k then s.keepArrived p k
    else
      let t := (t.takeArrived p k).modFabric fun x => { x with fullSeen := x.fullSeen.erase k }
      if ok then deliver t else t

/-- A packet in a port's ingress buffers; `here` handles one for this module. A packet whose entry is
held stays there (R291); a trailer that is neither right nor stomped is discarded too, and not counted
(DEDUCED, log 36). -/
def State.packetIn (s : State) (p : Nat) (k : LinkPacket) (here : State) : State :=
  if k.trailer = ~~~(lpCheck k) then (s.takeArrived p k).stomped p k
  else if k.trailer ≠ lpCheck k then s.takeArrived p k
  else if rtLocal (s.route k.dest) then here
  else if s.isHeld k then s.keepArrived p k
  else (s.takeArrived p k).forwardLink p k

/-- LINK_PACKET_RECEIVE (08 R279, R290, R294). A TACK for this module has its effect in the command TACK;
COL_DATA stays in its buffer for the command of that name. -/
def execLinkPacketReceive (p : PortId) (pkt : LinkPacket) (s : State) : Answer :=
  .next (s.packetIn p pkt
    (if pkt.kind = kTack then s.takeArrived p pkt
      else if pkt.kind = kColData then s.keepArrived p pkt
      else s.receiveHere p pkt fun s => s.deliverLink pkt))

/-! ### LINK_PACKET_EGRESS (08 R280, R283) -/

/-- What a packet at an egress port draws its credit from: the peer's buffer, and in the buffer COL the
reservation of its group (R283, R286). -/
def Port.creditOf (x : Port) (e : Egress) : Nat × Option (Fin 32) :=
  (bufferOf e.pkt (if x.peerValid then some x.peer else none), e.col.map (·.group))

/-- The oldest packet that can go, and the packets that stay. Packets that draw on the same credit keep their
order; none waits for the credit of another buffer or group (R285, R286). -/
def pickEgress (can : Egress → Bool) (key : Egress → Nat × Option (Fin 32)) :
    List (Nat × Option (Fin 32)) → List Egress → Option (Egress × List Egress)
  | _, [] => none
  | held, e :: rest =>
    if !held.contains (key e) && can e then some (e, rest)
    else (pickEgress can key (key e :: held) rest).map fun r => (r.1, e :: r.2)

/-- A packet as it leaves on a port, at its LEVEL there (R288). -/
def State.leaving (s : State) (p : Nat) (e : Egress) : LinkPacket :=
  sealPacket { e.pkt with level := levelAfter (s.route e.pkt.dest) p e.pkt.level }

/-- LINK_PACKET_EGRESS: stale packets are dropped (R280), and the oldest packet that has credit and replay
room leaves. A port that holds a packet open, or with nothing that can go, sends an idle flit
(R275 to R277). -/
def execLinkPacketEgress (p : PortId) (s : State) : Answer :=
  let s := s.modPort p fun x => { x with egress := x.egress.filter fun e => !s.staleEgress e }
  let x := s.port p
  let can := fun e => s.hasCredit p e (s.leaving p e) && x.replayRoom (s.leaving p e)
  .next (if x.st ≠ .up then s
    else if x.openPkt.isSome then s.sendRest p
    else match pickEgress can (fun e => x.creditOf { e with pkt := s.leaving p e }) [] x.egress with
      | none => s.sendRest p
      | some (e, rest) =>
        (((s.modPort p fun x => { x with egress := rest }).drawCredit p e (s.leaving p e))).sendPacket p (s.leaving p e))

/-! ### TACK, RETRANSMIT, FLOW_TEARDOWN, FLOW_RECLAIM, TACK_SEND -/

/-- Does a TACK cover a sequence number: `cum` is the lowest not yet accepted (DEDUCED, log 37)? -/
def tackCovers (cum : Half) (bitmap : DWord) (seq : Half) : Bool :=
  let off := (seq - cum).toNat
  decide (32768 ≤ off) || (decide (off < 64) && bitmap.getLsbD off)

/-- TACK (08 R284, R293, R294): the covered packets leave the transport store, and packets that wait for
room in it are tried again. -/
def execTack (_p : PortId) (src : BitVec 14) (cls : BitVec 2) (cum : Half) (bitmap : DWord) (s : State) : Answer :=
  .next (s.modFlow cls src fun f =>
    { f with kept := f.kept.filter fun k => !tackCovers cum bitmap k.pkt.fseq
             lastTack := s.deviceTime, lastUse := s.deviceTime, tackRec := some (cum, bitmap) }).retryWaiting

/-- RETRANSMIT (08 R295): every uncovered packet whose interval has passed, on the route of now. -/
def execRetransmit (cls : BitVec 2) (node : BitVec 14) (s : State) : Answer :=
  let due := fun (k : Kept1) => s.passed k.sentAt (k.interval * 1000) && !s.isHeld k.pkt
  .next (match s.flow cls node with
    | none => s
    | some f =>
      let again := fun (k : Kept1) =>
        if due k then { k with sentAt := s.deviceTime, interval := min 1280 (2 * k.interval) } else k
      let t := s.modFlow cls node fun f => { f with kept := f.kept.map again }
      (f.kept.filter due).foldl (fun s k =>
        s.enqueue (rtPrimary (s.route node)) { pkt := k.pkt, owner := k.owner, col := k.col }) t)

def causePeerLost : Nat := 0x0502

/-- Is a running collective on a flow: a PUT or GET on the request flow to its peer, any other but
BARRIER on the COL flow to a rank? -/
def State.usesFlow (s : State) (r : Collective) (cls : BitVec 2) (node : BitVec 14) : Bool :=
  match Tab.get none s.fabric.col r.group, s.desc r.f r.slot r.desc with
  | some g, some d =>
    if r.op = 5 ∨ r.op = 6 then cls == 0 && g.ranks[field d.bytes 0x28 2]? == some node.toNat
    else cls == 2 && r.op != 7 && g.ranks.contains node.toNat
  | _, _ => false

/-- The descriptors on a flow end with TIMEOUT, of whichever context (R296): the destination of a collective
that moved data is left unpredictable (R307). -/
def State.timeoutFlow (s : State) (cls : BitVec 2) (node : BitVec 14) : State :=
  s.endRunning (fun r => s.usesFlow r cls node) stTimeout

/-- The packets of a flow of this module go, wherever they wait (R296). -/
def State.dropFlow (s : State) (cls : BitVec 2) (node : BitVec 14) : State :=
  let other := fun (e : Egress) => !(e.pkt.cls == cls && e.pkt.dest == node && e.pkt.src == s.nodeId && e.pkt.kind != kTack)
  s.modFabric fun x =>
    { x with
      flows := x.flows.filter fun g => !Flow.is cls node g
      waiting := x.waiting.filter other
      arrived := x.arrived.filter fun a => a.1 != localPort || other { pkt := a.2 }
      ports := x.ports.map fun p => (p.1, { p.2 with egress := p.2.egress.filter other }) }

/-- FLOW_TEARDOWN (08 R296): 64 ms with packets outstanding and no TACK. -/
def execFlowTeardown (cls : BitVec 2) (node : BitVec 14) (s : State) : Answer :=
  let detail := leBytes 2 node.toNat ++ leBytes 1 cls.toNat
  .next (match s.flow cls node with
    | none => s
    | some f =>
      if f.kept.isEmpty ∨ !s.passed f.lastTack 64000000 then s
      else
        let s := s.dropFlow cls node
        (match f.ctx with
          | some k => (s.timeoutFlow cls node).abortFault k 5 causePeerLost detail
          | none => (s.timeoutFlow cls node).record
              { cls := 5, action := actNone, cause := BitVec.ofNat 16 causePeerLost, detail }).retryWaiting)

/-- FLOW_RECLAIM (08 R297): nothing outstanding, and idle for 1 s: the flow to the node, and the flow of
the class from it. -/
def execFlowReclaim (cls : BitVec 2) (node : BitVec 14) (s : State) : Answer :=
  let idle := fun (f : Flow) => f.kept.isEmpty && s.passed f.lastUse 1000000000
  let rxIdle := fun (f : RxFlow) => f.tackDue.isNone && s.passed f.lastUse 1000000000
  let gone := s.fabric.flows.any (fun f => Flow.is cls node f && idle f)
    || s.fabric.rxFlows.any fun f => RxFlow.is cls node f && rxIdle f
  .next (if gone then
      (s.modFabric fun x =>
        { x with flows := x.flows.filter fun f => !(Flow.is cls node f && idle f)
                 rxFlows := x.rxFlows.filter fun f => !(RxFlow.is cls node f && rxIdle f) }).retryWaiting
    else s)

/-- TACK_SEND (08 R294): the coalesced TACK of a receive flow, in RSP. FSEQ carries the lowest number
not yet accepted, the payload the bitmap, XTAG the class (log 37). -/
def execTackSend (cls : BitVec 2) (node : BitVec 14) (s : State) : Answer :=
  .next (match s.fabric.rxFlows.find? (RxFlow.is cls node) with
    | none => s
    | some f =>
      if f.tackDue.isNone then s
      else
        let k : LinkPacket :=
          { dest := node, src := s.nodeId, cls := 1, kind := kTack, fseq := f.base, len := 8
            xtag := cls.setWidth 16, payload := leBytes 8 f.bitmap.toNat }
        if s.isHeld k then s else
        let sent := fun (g : RxFlow) => if RxFlow.is cls node g then { g with tackDue := none } else g
        let s := s.modFabric fun x => { x with rxFlows := x.rxFlows.map sent }
        s.enqueue (rtPrimary (s.route node)) { pkt := sealPacket k })

/-! ### Route updates (08 R291; 09 R333, R342) -/

/-- Answer the request that a hold or release belongs to. After a restart or a reset of the function
nothing waits for it: the response is kept for a reissue alone (09 R333). -/
def State.answerHeld (s : State) (h : HeldRoute) (status : Nat) : State :=
  if s.request h.src = some h.req then s.answer h.src status []
  else match h.src with
    | .mailbox f =>
      let saved : Saved := ⟨BitVec.ofNat 16 (rqOpcode h.req), rqSeq h.req, rqCheck h.req, response h.req status []⟩
      s.modDelash fun d => { d with saved := Tab.set d.saved f saved }
    | .bmc => s

/-- Release a hold; the packets go on in their order. -/
def State.releaseHold (s : State) : State := (s.modFabric fun x => { x with held := none }).retryWaiting

/-- Write the entries of a held update and release it. -/
def State.writeRoutes (s : State) (h : HeldRoute) : State :=
  let put := fun (t : Tab (BitVec 14) × Nat) (w : Word) => (Tab.set t.1 t.2 (w.setWidth 14), t.2 + 1)
  (s.modFabric fun x => { x with routes := (h.entries.foldl put (x.routes, h.first)).1 }).releaseHold

/-- The update that a request carries. -/
def rqRoutes (src : Src) (now : DWord) (both : Bool) (r : List Byte) : HeldRoute :=
  { classes := BitVec.ofNat 8 (rq r 1 1), first := rq r 4 2
    entries := (List.range (rq r 2 2)).map fun i => BitVec.ofNat 32 (rq r (8 + 4 * i) 4)
    since := now, both, src, req := r }

/-- HOLD and BOTH begin a hold; a second one is BUSY (R342). With no entries nothing is held or written
(R347, 00 R12). -/
def State.holdCmd (src : Src) (both : Bool) (s : State) (r : List Byte) : Reply :=
  if s.fabric.held.isSome then Reply.fail s stBusy
  else if rq r 2 2 = 0 then Reply.ok s
  else Reply.later (s.modFabric fun x => { x with held := some (rqRoutes src s.deviceTime both r) })

def execRouteUpdateHold (src : Src) (s : State) : Answer :=
  .next (s.serveOp src 0x0602 0 0 (State.holdCmd src false))

def execRouteUpdateBoth (src : Src) (s : State) : Answer :=
  .next (s.serveOp src 0x0602 0 2 (State.holdCmd src true))

/-- WRITE_RELEASE: of the update that is held; a hold still in progress is BUSY (DESIGN CHOICE,
log 36). -/
def State.releaseCmd (src : Src) (s : State) (r : List Byte) : Reply :=
  let w := rqRoutes src s.deviceTime false r
  match s.fabric.held with
  | none => Reply.fail s stInvalidArg
  | some h =>
    if h.both ∨ h.classes ≠ w.classes ∨ h.first ≠ w.first ∨ h.entries ≠ w.entries then Reply.fail s stInvalidArg
    else if !h.done then Reply.fail s stBusy
    else Reply.ok (s.writeRoutes h)

def execRouteUpdateWriteRelease (src : Src) (s : State) : Answer :=
  .next (s.serveOp src 0x0602 0 1 (State.releaseCmd src))

/-- Does a packet that an old entry routed remain at an egress port? -/
def State.oldRouted (s : State) : Bool :=
  (List.range 16).any fun p =>
    (s.port p).egress.any (fun e => s.isHeld e.pkt)
      || (match (s.port p).openPkt with
          | some (_, k) => s.isHeld k
          | none => false)

/-- ROUTE_HOLD_COMPLETE (08 R291). -/
def execRouteHoldComplete (s : State) : Answer :=
  .next (match s.fabric.held with
    | none => s
    | some h =>
      if h.done ∨ s.oldRouted then s
      else if h.both then ((s.writeRoutes h).answerHeld h stOk).takeFront
      else ((s.modFabric fun x => { x with held := some { h with done := true } }).answerHeld h stOk).takeFront)

/-- ROUTE_HOLD_TIMEOUT (08 R291): 10 ms have passed. -/
def execRouteHoldTimeout (s : State) : Answer :=
  .next (match s.fabric.held with
    | none => s
    | some h =>
      if h.done ∨ !s.passed h.since 10000000 then s else (s.releaseHold.answerHeld h stTimeout).takeFront)

/-- ROUTE_HOLD_EXPIRE (09 R342): no WRITE_RELEASE within 1 s. -/
def execRouteHoldExpire (s : State) : Answer :=
  .next (match s.fabric.held with
    | none => s
    | some h => if h.done ∧ s.passed h.since 1000000000 then s.releaseHold else s)

/-! ### LINK_CONFIG PORTS and NODE, LINK_RETRAIN (08 R269, R270; 09 Table 9.11) -/

/-- LINK_CONFIG NODE. -/
def State.configNode (s : State) (r : List Byte) : Reply :=
  Reply.ok (s.modFabric fun x =>
    { x with node := some (BitVec.ofNat 14 (rq r 4 2)), timeMaster := some (BitVec.ofNat 14 (rq r 6 2)) })

def execLinkConfigNode (src : Src) (s : State) : Answer := .next (s.serveOp src 0x0601 0 0 State.configNode)

/-- Enable a port that was not, which begins to train, or disable one (DESIGN CHOICE, log 41). A port that
PORT_DISABLE names stays powered down (13 R455). -/
def State.enablePort (s : State) (p : Nat) (named : Bool) : State :=
  let x := s.port p
  let want := named && !s.boot.parison.portDisable.getLsbD p
  if want = x.enabled then s
  else if want then
    (s.modPort p fun x => { x with enabled := true }).setPortSt p (if x.heldDown then .down else .training) 0
  else
    let es := x.egress
    let s := s.modPort p fun x =>
      { x with
        enabled := false, replay := [], rxStream := [], rxUnits := [], rxFlits := [], rxSyn := [], txTail := []
        openPkt := none, colOut := [], egress := [], active := [], spareUsed := false, txSeq := 0
        rxExpect := 0, rxAny := false, peerValid := false }
    es.foldl (fun s e => s.enqueue p e) ((s.setPortSt p .disabled 0).stompFrom p)

/-- LINK_CONFIG PORTS. -/
def State.configPorts (s : State) (r : List Byte) : Reply :=
  let mask := BitVec.ofNat 16 (rq r 4 2)
  Reply.ok ((List.range 16).foldl (fun s p => s.enablePort p (mask.getLsbD p)) s)

def execLinkConfigPorts (src : Src) (s : State) : Answer := .next (s.serveOp src 0x0601 0 1 State.configPorts)

/-- LINK_RETRAIN: the enabled ports of the mask retrain, and RETRAIN counts each port it names (11 Table
11.10). -/
def State.linkRetrainCmd (src : Src) (s : State) (r : List Byte) : Reply :=
  let mask := BitVec.ofNat 16 (rq r 0 2)
  if mask = 0 then Reply.ok s (leBytes 2 0)
  else s.long src 0x0603 (.linkRetrain mask) none fun s =>
    (setBits mask).foldl (fun s p =>
      if (s.port p).enabled && !(s.port p).heldDown then s.retrainPort p
      else s.modPort p fun x => { x with retrain := bump x.retrain }) s

def execLinkRetrain (src : Src) (s : State) : Answer := .next (s.serve src 0x0603 (State.linkRetrainCmd src))

/-- A SYN message as it leaves: the PAYLOAD of a TIME is the time at which it does (Table 8.7). -/
def synLeaving (m : SynMsg) (now : DWord) : SynMsg := if m.kind = 2 then { m with payload := now } else m

/-- A port's training ends: both directions run at the narrower width, the credits start anew (log 8), and
waiting SYN messages leave, then the full flits of the stream that waited. With fewer than four good lanes it
goes DOWN. -/
def State.portTrained (s : State) (p : Nat) (rx tx : BitVec 9) (peer : BitVec 14) (delay : Half) : State :=
  let width := min (widthOf rx) (widthOf tx)
  let lanes := activeLanes rx width
  let s := s.modPort p fun x => { x with laneGood := rx }
  if width = 0 then s.portDown p
  else
    let msgs := (s.port p).synQueue
    let s := s.modPort p fun x =>
      { x with
        active := lanes, spareUsed := lanes.contains 8, peer, peerValid := true, delayNs := delay
        lastGood := s.deviceTime, synQueue := [], badCodewords := [], rxUnits := [], rxFlits := []
        colOut := [], credits := (List.range 7).map fun b => (b, bufferUnits b) }
    let s := msgs.foldl (fun s m => s.emit (.syn p (synLeaving m s.deviceTime))) (s.setPortSt p .up width)
    s.pushStream p []

end Sys2Proof.Machine
end

