-- ==== Sys2Proof/Machine/Power.lean ====
section
/-! DEFINITION. Power profiles, the power cap, droop, thermal levels and trips, rails (14 R473 to
R496; 01 Table 1.8). -/
namespace Sys2Proof.Machine

/-! ### The active profile (14 R473 to R476) -/

/-- PROFILE[1:0] as a profile: 0b11 is read as AIR. -/
def pinProfile (p : BitVec 2) : BitVec 2 := if p = 3 then 0 else p

def minProfile (a b : BitVec 2) : BitVec 2 := if a.toNat ≤ b.toNat then a else b

/-- R473. -/
def State.activeProfile (s : State) : BitVec 2 :=
  minProfile (pinProfile s.power.pinForce) (minProfile s.power.maxProfile s.power.requested)

/-- CAP_ACTIVE, and PLB_ALERT.POWER_CAP when it rises (R483). -/
def State.refreshCap (s : State) : State :=
  let on := decide (s.power.ceil < s.pmax) || decide (s.power.gate < 16)
  let was := s.plumb.capActive
  let s := s.modPlumb fun p => { p with capActive := on }
  if on && !was then s.alert alertPower else s

/-- PROFILE_CHANGE (R476): the active profile follows its three values. The power-cap ceiling falls
to a lower maximum, and one that stands at the maximum follows it up (DEDUCED, log 45). -/
def State.updateProfile (s : State) : State :=
  let old := s.pmax
  let s := s.modPlumb fun p => { p with profile := s.activeProfile }
  let new := s.pmax
  (s.modPower fun w => { w with ceil := if w.ceil = old then new else min w.ceil new }).refreshCap

/-- PROFILE_PIN_SAMPLE (R474): the pin value in force follows downward only. -/
def execProfilePinSample (pins : BitVec 2) (s : State) : Answer :=
  .next (if !s.boot.auxOn then s
    else
      let s := s.modPlumb fun p => { p with pins := pins }
      if (pinProfile pins).toNat < (pinProfile s.power.pinForce).toNat then
        (s.modPower fun w => { w with pinForce := pins }).updateProfile
      else s)

/-- DEV_SET_PROFILE (R475). -/
def State.setProfileCmd (s : State) (r : List Byte) : Reply :=
  let p := BitVec.ofNat 2 (rq r 0 1)
  let top := minProfile s.power.maxProfile (pinProfile s.plumb.pins)
  if top.toNat < p.toNat then Reply.fail s stInvalidArg
  else
    let t := (s.modPower fun w => { w with requested := p, pinForce := s.plumb.pins }).updateProfile
    Reply.ok t (leBytes 1 t.plumb.profile.toNat)

def execDevSetProfile (src : Src) (s : State) : Answer := .next (s.serve src 0x0103 State.setProfileCmd)

/-! ### The power cap (14 R482 to R485) -/

/-- The step of R483. The comparisons with 105 % and 97 % of the limit are exact (DEDUCED, log 45). -/
def Power.step (w : Power) (limit pmax p : Nat) : Power :=
  if limit < p then
    let down := if limit * 105 < p * 100 then 100 else 25
    if 400 + down ≤ w.ceil then { w with ceil := w.ceil - down, calm := 0 }
    else { w with ceil := 400, gate := if 1 < w.gate then w.gate - 1 else w.gate, calm := 0 }
  else if p * 100 < limit * 97 then
    let w := { w with calm := w.calm + 1 }
    let w :=
      if w.gate < 16 then { w with gate := w.gate + 1 }
      else if (if w.recovering then 1 else 10) ≤ w.calm then
        { w with ceil := min (w.ceil + if w.recovering then 100 else 25) pmax, calm := 0 }
      else w
    { w with recovering := w.recovering && w.ceil != pmax }
  else { w with calm := 0 }

/-- POWER_CAP_STEP: the average of the last 1 ms. -/
def execPowerCapStep (watts : Nat) (s : State) : Answer :=
  .next (if !s.boot.auxOn then s
    else
      let s := s.modPlumb fun p => { p with powerW := min 0xFFFF watts }
      (s.modPower fun w => w.step s.powerLimit s.pmax watts).refreshCap)

/-- PWRBRK# while it is asserted (R485): ceil 400 MHz, gate 4. -/
def State.applyPwrbrk (s : State) : State :=
  if s.power.pwrbrk then (s.modPower fun w => { w with ceil := 400, gate := 4 }).refreshCap else s

/-- PWRBRK_ASSERT (R485); without auxiliary power it is the pin's level alone, met when the power comes. -/
def execPwrbrkAssert (s : State) : Answer :=
  .next (if s.power.pwrbrk then s
    else
      let s := s.modPower fun w => { w with pwrbrk := true }
      if s.boot.auxOn then s.applyPwrbrk else s)

/-- PWRBRK_RELEASE (R485). -/
def execPwrbrkRelease (s : State) : Answer :=
  .next (if s.power.pwrbrk then s.modPower fun w => { w with pwrbrk := false, recovering := s.boot.auxOn } else s)

/-! ### Droop (14 R480, R481) -/

/-- DROOP_TRIP: one episode of `cycles` tile cycles; at most 8 are stretched, then the clock is held. -/
def execDroopTrip (p : PhysId) (cycles : Nat) (s : State) : Answer :=
  .next (if !(s.phy p).powered then s
    else s.modPhy p fun x =>
      { x with droopEvent := satAdd 0xFFFF x.droopEvent 1, droopTimes := s.recentTimes x.droopTimes 1, droopMark := x.droopMark + 1
               lastDroop := s.deviceTime, stretched := min 8 cycles })

/-- The droop term at a review. -/
def Phys.review (x : Phys) (quiet : Bool) : Phys :=
  { x with
    droopMark := 0
    droopMv := if 100 ≤ x.droopMark then min 40 (x.droopMv + 5) else if quiet then x.droopMv - 5 else x.droopMv }

/-- DROOP_REVIEW: every 10 ms. -/
def execDroopReview (p : PhysId) (s : State) : Answer :=
  .next (s.modPhy p fun x => x.review (s.passed x.lastDroop 1000000000))

/-! ### Trips (14 R489, R495) -/

/-- The regulators go off, except those of the always-on domain and the west I/O die; the Gaffer is
HALTED. -/
def State.powerOff (s : State) : State :=
  let s := (s.modPlumb fun p => { p with gaffer := .halted }).answerBusy
  let s := s.modBoot fun b =>
    { b with regulators := false, begun := false, hostSeq := false, seqActive := false, seqBusy := false }
  { s with phys := s.phys.map fun e => (e.1, e.2.map fun x => { x with powered := false }) }

def causeThermalTrip : Nat := 0x0401
def causePower : Nat := 0x0405

/-- THERMAL_TRIP. -/
def State.trip (s : State) : State :=
  if s.faults.thermTrip then s
  else ((s.modFaults fun f => { f with thermTrip := true }).deviceFault causeThermalTrip).powerOff

/-- RAIL_FAULT (R495): a rail that has been in range is out of it. Both rails must be up again before the next
module reset boots the module. -/
def execRailFault (_r : Rail) (s : State) : Answer :=
  .next (if !s.boot.railsOk then s
    else ((s.modBoot fun b => { b with railsOk := false }).deviceFault causePower).powerOff)

/-! ### Temperatures (14 R486 to R489; 09 Table 9.4, PLB_THERM) -/

/-- The level of a tile after a reading: up to the highest level whose Enter value it reaches, down
through every level whose Leave value it is below (Table 14.3). -/
def thermLevelOf (level c : Nat) : Nat :=
  let up := if 105 ≤ c then 3 else if 100 ≤ c then 2 else if 95 ≤ c then 1 else 0
  let stay := if 102 ≤ c then 3 else if 97 ≤ c then 2 else if 92 ≤ c then 1 else 0
  max up (min level stay)

/-- A reading of a tile. A run in progress on a tile that reaches level 2 is abandoned
(LBIST_ABANDON, R487), and a visit that waits for the tile to cool starts below it. -/
def Phys.reading (x : Phys) (now : DWord) (c : Nat) : Phys :=
  let c := min 255 c
  let level := thermLevelOf x.thermLevel c
  { x with
    temp := c, peak := max x.peak c, thermLevel := level
    tempLog := (now, c) :: x.tempLog.filter fun e => decide (now.toNat ≤ e.1.toNat + sixtySeconds)
    visit := x.visit.map fun v =>
      if 2 ≤ level then { v with abandoned := v.abandoned || !v.waits } else { v with waits := false } }

/-- A bit of a stack's measure: it begins at `on` and ends 3 °C below it. -/
def stackBit (m : BitVec 8) (h c on : Nat) : BitVec 8 :=
  if on ≤ c then m ||| oneBit 8 h else if c + 3 ≤ on then m &&& ~~~(oneBit 8 h) else m

/-- One sensor's reading. -/
def State.sense (s : State) : Sensor × Nat → State
  | (.tile p, c) => s.modPhy p fun x => x.reading s.deviceTime c
  | (.stack h, c) => s.modPower fun w =>
      { w with refresh2x := stackBit w.refresh2x h c 85, halved := stackBit w.halved h c 95 }
  | (.ioDie _, _) => s
  | (.gaffer, _) => s

/-- Is a reading a trip? -/
def tripAt : Sensor × Nat → Bool
  | (.stack _, c) => decide (105 ≤ c)
  | (_, c) => decide (115 ≤ c)

/-- PLB_THERM follows the tiles' sensors. -/
def State.refreshTherm (s : State) : State :=
  let ps := List.range 576
  let hot := ps.foldl (fun b p => if (s.phy b).temp < (s.phy p).temp then p else b) 0
  let top := ps.foldl (fun m p => max m (s.phy p).thermLevel) 0
  let was := s.plumb.throttle
  let s := s.modPlumb fun p =>
    { p with tjMax := (s.phy hot).temp, hotSector := sectorOfPhys hot, throttle := top }
  if top = was then s else s.alert alertThermal

/-- THERMAL_SAMPLE: every 100 µs. -/
def execThermalSample (readings : List (Sensor × Nat)) (s : State) : Answer :=
  let t := (readings.foldl State.sense s).refreshTherm
  .next (if !s.boot.auxOn then s else if readings.any tripAt then t.trip else t)

/-! ### The TAP (R493, Table 14.5) -/

/-- May the TAP be used: in MANUFACTURE and RMA? -/
def State.tapOpen (s : State) : Bool := s.lifecycle == 0 || s.lifecycle == 4

/-- The state after a clock with TMS (PRESUMED, log 65: IEEE 1149.1, which Table 14.5 names). -/
def TapState.next (x : TapState) (tms : Bool) : TapState :=
  match x, tms with
  | .testLogicReset, true => .testLogicReset
  | .testLogicReset, false | .runTestIdle, false | .updateDr, false | .updateIr, false => .runTestIdle
  | .runTestIdle, true | .updateDr, true | .updateIr, true => .selectDr
  | .selectDr, true => .selectIr
  | .selectDr, false => .captureDr
  | .captureDr, false | .shiftDr, false | .exit2Dr, false => .shiftDr
  | .captureDr, true | .shiftDr, true => .exit1Dr
  | .exit1Dr, false | .pauseDr, false => .pauseDr
  | .pauseDr, true => .exit2Dr
  | .exit1Dr, true | .exit2Dr, true => .updateDr
  | .selectIr, true => .testLogicReset
  | .selectIr, false => .captureIr
  | .captureIr, false | .shiftIr, false | .exit2Ir, false => .shiftIr
  | .captureIr, true | .shiftIr, true => .exit1Ir
  | .exit1Ir, false | .pauseIr, false => .pauseIr
  | .pauseIr, true => .exit2Ir
  | .exit1Ir, true | .exit2Ir, true => .updateIr

/-- The TAP as its pins show it: held in Test-Logic-Reset with TDO high-impedance in every other life-cycle
state, and while TRST# is asserted (PRESUMED, log 65). -/
def State.tapNow (s : State) : Tap :=
  if s.tapOpen && !s.power.tap.trst then s.power.tap else { trst := s.power.tap.trst }

/-- TRST# is asserted or released: asserted it holds the TAP in Test-Logic-Reset (PRESUMED, log 65: IEEE 1149.1). No
row of the table is a change of TRST# (log 65). -/
def State.tapTrst (s : State) (asserted : Bool) : State :=
  s.modPower fun p => { p with tap := if asserted then { trst := true } else { p.tap with trst := false } }

/-- A clock on TCK: ignored unless the TAP may be used. What a register shifts out is not in the spec: a
free value. No row of the table is a TCK clock (log 65). -/
def State.tapClock (s : State) (tms _tdi : Bool) : State :=
  if !s.tapOpen || s.power.tap.trst then s
  else
    let x := s.power.tap.st.next tms
    let (n, s) := s.fresh
    s.modPower fun p =>
      { p with tap := { p.tap with st := x, tdo := if x = .shiftDr ∨ x = .shiftIr then some (Config.free 1 n == 1) else none } }

end Sys2Proof.Machine
end

