-- ==== Sys2Proof/Machine/Bringup.lean ====
section
/-! DEFINITION. Flash blocks, boot, host-sequenced bring-up, licences and firmware update (13 R450 to
R472; 11 R384; 12 R438, R442; 14 R494). -/
namespace Sys2Proof.Machine

/-! ### Configuration blocks (13 R451, R452, R453; Tables 13.2 to 13.4) -/

/-- Does a copy end in its CRC-32C? -/
def crcOk (b : List Byte) : Bool :=
  crc32c (b.take (b.length - 4)) == BitVec.ofNat 32 (field b (b.length - 4) 4)

def inRange (v lo hi : Nat) : Bool := decide (lo ≤ v) && decide (v ≤ hi)

/-- What Table 13.3 asks of a Parison besides its check word. -/
def parisonFields (b : List Byte) : Bool :=
  field b 0 4 == 0x4E535250 && field b 4 2 == 1 && zeroBytes b 6 2
    && inRange (field b 0x0C 1) 0x08 0x77 && inRange (field b 0x0D 1) 0x08 0x77
    && field b 0x0C 1 != field b 0x0D 1 && decide (field b 0x0E 1 ≤ 15)
    && inRange (field b 0x0F 1) 30 39 && inRange (field b 0x10 1) 30 36
    && inRange (field b 0x11 1) 2 50 && inRange (field b 0x12 1) 50 250
    && decide (field b 0x13 1 ≤ 1) && inRange (field b 0x14 1) 8 20 && zeroBytes b 0x15 1
    && inRange (field b 0x16 2) 100 10000 && zeroBytes b 0x1C 65504

/-- What Table 13.4 asks of a profile record, of a routing image. -/
def profileFields (b : List Byte) : Bool :=
  field b 0 4 == 0x4C465250 && field b 4 2 == 1 && zeroBytes b 6 2 && decide (field b 0x0C 1 ≤ 2)
    && zeroBytes b 0x0D 1 && (field b 0x0E 2 == 0 || inRange (field b 0x0E 2) 500 1750)
    && zeroBytes b 0x10 44

/-- The entries of a routing image. -/
def routeEntries (b : List Byte) : Nat → List Word
  | 0 => []
  | n + 1 => BitVec.ofNat 32 (leVal (b.take 4)) :: routeEntries (b.drop 4) n

def routeFields (b : List Byte) : Bool :=
  field b 0 4 == 0x54455452 && field b 4 2 == 1 && zeroBytes b 6 2 && zeroBytes b 0x0C 52
    && (routeEntries (b.drop 0x40) 16384).all fun w => decide (w.toNat < 2 ^ 14)

/-- The blocks that CFG_WRITE names. -/
inductive Block where
  | parison | route | profile
  deriving DecidableEq, Repr

def Block.size : Block → Nat
  | .parison => 65536
  | .route => 65604
  | .profile => 64

def Block.fields (k : Block) (b : List Byte) : Bool :=
  match k with
  | .parison => parisonFields b
  | .route => routeFields b
  | .profile => profileFields b

def Block.valid (k : Block) (b : List Byte) : Bool := b.length == k.size && crcOk b && k.fields b

/-- GENERATION of a copy; x is later than y when the difference lies from 1 to 2^31 - 1. -/
def genOf (b : List Byte) : Word := BitVec.ofNat 32 (field b 8 4)
def laterGen (x y : Word) : Bool := inRange (x - y).toNat 1 (2 ^ 31 - 1)

/-- The copy that boot chooses. -/
def Block.choose (k : Block) (a b : List Byte) : Option (List Byte) :=
  if k.valid a then if k.valid b && laterGen (genOf b) (genOf a) then some b else some a
  else if k.valid b then some b
  else none

/-- The copy that a write takes: true for copy 1. With two invalid copies it is copy 0
(DESIGN CHOICE, log 47). -/
def Block.writesSecond (k : Block) (a b : List Byte) : Bool :=
  if !k.valid a then false
  else if !k.valid b then true
  else !laterGen (genOf b) (genOf a)

/-- The Parison that a valid copy holds. -/
def parisonOf (b : List Byte) : Parison where
  generation := genOf b
  smbusAddr := BitVec.ofNat 8 (field b 0x0C 1)
  mctpAddr := BitVec.ofNat 8 (field b 0x0D 1)
  vfTotal := field b 0x0E 1
  bar2Log2 := field b 0x0F 1
  vfBar2Log2 := field b 0x10 1
  waveGapMs := field b 0x11 1
  trainStaggerMs := field b 0x12 1
  xchkEnable := field b 0x13 1 == 1
  xchkRate := field b 0x14 1
  traverseMs := field b 0x16 2
  sectorDisable := BitVec.ofNat 16 (field b 0x18 2)
  portDisable := BitVec.ofNat 16 (field b 0x1A 2)

/-! ### Licences (13 R462 to R464; Tables 13.6, 13.7) -/

def tierSectors (tier : Nat) : Nat := if tier = 0 then 8 else if tier = 1 then 12 else 16
def tierFeatures (tier : Nat) : Nat := if tier = 0 then 0 else if tier = 1 then 1 else 7

/-- The checks of R451 and R462 besides CHECK and the signature. -/
def licenceFields (b : List Byte) : Bool :=
  let tier := field b 6 1
  field b 0 4 == 0x43494C42 && field b 4 2 == 1 && decide (tier ≤ 2)
    && field b 7 1 == tierFeatures tier && field b 8 8 == Config.serial.toNat
    && decide (1 ≤ field b 0x10 4) && popCount (BitVec.ofNat 16 (field b 0x14 2)) == tierSectors tier
    && zeroBytes b 0x16 42 && zeroBytes b 0xA0 92

def licenceSigned (b : List Byte) : Bool := crcOk b && Config.licenceSignature b

def licenceValid (b : List Byte) : Bool := b.length == 256 && licenceSigned b && licenceFields b

def licSeq (b : List Byte) : Nat := field b 0x10 4

def chooseLicence (a b : List Byte) : Option (List Byte) :=
  if licenceValid a then if licenceValid b && decide (licSeq a < licSeq b) then some b else some a
  else if licenceValid b then some b
  else none

def licenceWritesSecond (a b : List Byte) : Bool :=
  if !licenceValid a then false
  else if !licenceValid b then true
  else !decide (licSeq a < licSeq b)

def licenceOf (b : List Byte) : Licence where
  tier := field b 6 1
  sectorMask := BitVec.ofNat 16 (field b 0x14 2)
  seq := licSeq b

/-! ### Module reset (12 R438) -/

/-- A physical tile through a module reset: what its sensors and circuits hold starts anew. -/
def Phys.cold (x : Phys) : Phys :=
  { x with visit := none, powered := false, tempLog := [], temp := 0, peak := 0, thermLevel := 0
           droopMv := 0, droopMark := 0, stretched := 0, checker := false, fails := 0, ceTimes := []
           droopTimes := [] }

/-- The owner that PLB_SECTOR_s shows: the value last placed, through a module reset too (09 R321). -/
def Sector.shown (x : Sector) : Option Nat :=
  match x.owner with
  | some k => some k
  | none => x.shownOwner

/-- A sector through a module reset: its state and resets as PLB_SECTOR shows them, its flash record. -/
def Sector.cold (x : Sector) : Sector :=
  { st := x.st, noSpare := x.noSpare, shownOwner := x.shown, usable := x.usable, resets := x.resets
    rec0 := x.rec0, rec1 := x.rec1 }

/-- All byte memory of the device becomes unpredictable. -/
def State.loseMemory (s : State) : State :=
  let (n, s) := s.fresh
  { s with mem := [], priv := [], scrambled := [⟨0, spadAddr 512 0, n⟩], tierPz := [], spadPz := []
           acmPz := [], privPz := [], poison := [], slots := []
           retired := ISet.insertAll s.retired s.retireMark, retireMark := [] }

/-- A module reset begins: every domain except the always-on one. The trouble counters are those of the flash
records (11 R416). From here to the boot the Gaffer
shows BOOT; a port that was not DOWN changes STATE, and no MSI-X is sent in the reset (DEDUCED, log 46). -/
def State.moduleReset (s : State) : State :=
  let moved := s.fabric.ports.any fun (e : Nat × Port) => e.2.st != .down
  let s := s.loseMemory
  let s := { s with
    tiles := [], cores := [], engines := [], replay := [], net := {}, delash := {}, queues := []
    ctxs := s.flash.counters.ctxTab, channels := s.flash.counters.channels
    sectors := s.sectors.map fun (e : Nat × Sector) => (e.1, e.2.cold)
    phys := s.phys.map fun (e : Nat × Option Phys) => (e.1, e.2.map Phys.cold)
    fabric := { ports := s.flash.counters.portTab }
    xchk := { bins := s.flash.counters.bins }
    flash := { s.flash with session := none, activated := false } }
  let s := s.modFaults fun f => { f with dumps := [], dumpDue := none, gafferRestarts := [], modFault := false, restartCause := 0 }
  let s := s.modPower fun w =>
    { w with requested := 2, pinForce := s.plumb.pins, calm := 0, recovering := false
             ceil := if w.pwrbrk then 400 else 1650, gate := if w.pwrbrk then 4 else 16 }
  let s := s.modBoot fun b =>
    { auxOn := b.auxOn, railsOk := b.railsOk, regulators := b.regulators, perst := b.perst, licence := b.licence
      parison := b.parison, routeGen := b.routeGen, profGen := b.profGen }
  (s.modPlumb fun p =>
    { p with gaffer := .boot, outOfService := false
             alert := if moved then p.alert ||| oneBit 7 alertLink else p.alert }).updateProfile

/-! ### The Cadastre at boot (11 R384) -/

def causeCadastre : Nat := 0x0101

/-- A tile by its fuses and a record's entry for it. -/
def fused (x : Phys) (rec' : Phys) : Phys :=
  let y := { rec'.cold with fuseBad := x.fuseBad, fuseCullet := x.fuseCullet }
  if x.fuseBad then { y with cad := .factoryBad, index := none }
  else if x.fuseCullet then { y with cad := .cullet, index := none }
  else y

/-- The record of a copy for a tile. -/
def CadRecord.tile (r : CadRecord) (p : Nat) : Phys := Tab.get (Phys.init p) r.tiles (localOfPhys p)

/-- Read a sector's Cadastre: its flash record, or the rebuild with every usable tile in LEHR. -/
def State.readCadastre (s : State) (n : Nat) : State :=
  let x := s.sector n
  let put := fun (s : State) (f : Nat → Phys) =>
    (physOfSector n).foldl (fun s p => s.modPhy p fun y => fused y (f p)) s
  if x.rec0.valid then (put s x.rec0.tile).countSector n
  else if x.rec1.valid then (put s x.rec1.tile).countSector n
  else
    let s := (put s fun _ => { cad := .lehr }).countSector n
    let s := s.modBoot fun b => { b with rebuild := b.rebuild ||| oneBit 16 n }
    s.record { cls := 1, cause := BitVec.ofNat 16 causeCadastre, sector := BitVec.ofNat 8 n }

/-! ### Boot (13 R455 to R461, Table 13.5) -/

/-- Step 5: the fuses' life-cycle state, the four blocks and the flags; the pin value in force is the sample at the boot of a module reset
(14 R474; log 45). -/
def State.readBlocks (s : State) : State :=
  let f := s.flash
  let par := Block.parison.choose f.parison0 f.parison1
  let lic := chooseLicence f.lic0 f.lic1
  let route := Block.route.choose f.route0 f.route1
  let prof := Block.profile.choose f.prof0 f.prof1
  let s := s.modBoot fun b =>
    { b with
      parison := (par.map parisonOf).getD {}, licence := (lic.map licenceOf).getD {}
      routeGen := (route.map genOf).getD 0, profGen := (prof.map genOf).getD 0 }
  let entries := routeEntries ((route.getD []).drop 0x40) (if route.isSome then 16384 else 0)
  let routes := (entries.zipIdx.filter fun e => e.1 != 0).map fun e => (e.2, e.1.setWidth 14)
  let s := s.modFabric fun x => { x with routes := routes }
  let s := s.modPower fun w =>
    { w with
      pinForce := s.plumb.pins
      maxProfile := BitVec.ofNat 2 (field (prof.getD []) 0x0C 1), limitW := field (prof.getD []) 0x0E 2 }
  let s := s.modPlumb fun p =>
    { p with lifecycle := s.lifecycle, cfgDefaulted := par.isNone, licInvalid := lic.isNone, routeDefaulted := route.isNone
             profileDefaulted := prof.isNone }
  let s := if par.isNone || lic.isNone || route.isNone || prof.isNone then s.alert alertConfig else s
  s.updateProfile

/-- R455: a sector's state once its enabling is fixed. An enabled one reads RESETTING until its
release (DEDUCED, log 46). -/
def State.enableSector (s : State) (n : Nat) : State :=
  let allowed := s.boot.licence.sectorMask.getLsbD n && !s.boot.parison.sectorDisable.getLsbD n
  let s := s.modSector n fun x => { x with shownOwner := none }
  if !allowed then s.setSectorSt n .off
  else if (s.sector n).usable < 24 then s.setSectorSt n .out
  else (s.modSector n fun x => { x with enabled := true }).setSectorSt n .resetting

def State.bootPort (s : State) (p : Nat) : State :=
  if s.boot.licence.ports.getLsbD p && !s.boot.parison.portDisable.getLsbD p then
    (s.modPort p fun x => { x with enabled := true }).setPortSt p .down 0
  else s.setPortSt p .disabled 0

def State.enabledSectors (s : State) : List Nat := (List.range 16).filter fun n => (s.sector n).enabled
def State.enabledPorts (s : State) : List Nat := (List.range 16).filter fun p => (s.port p).enabled

/-- Step 11: the Traverse and the cross-check start with the Parison's settings, and the generators of the
cross-check are seeded from device time (11 R406). -/
def State.startServices (s : State) : State :=
  let s := (List.range 16).foldl (fun s n =>
    s.modSector n fun x =>
      { x with intervalMs := s.boot.parison.traverseMs, xSeed := s.deviceTime, xDraws := 0 }) s
  let s := { s with xchk := { s.xchk with
    enabled := s.boot.parison.xchkEnable && s.boot.licence.full, rateLog2 := s.boot.parison.xchkRate } }
  s.chooseCheckers

/-- Step 11: RUNNING. A dump that a DEVICE fault left to firmware is taken now (12 R437). -/
def State.finishBoot (s : State) : State :=
  let s := s.modPlumb fun p => { p with gaffer := .running }
  let s := s.modFlash fun f => { f with runningSince := s.deviceTime }
  s.startServices.takeDue

/-- Once every enabled sector is released or OUT, every enabled port trains; with none, boot ends. -/
def State.bootAdvance (s : State) : State :=
  let done := s.boot.released ||| s.boot.failed
  if s.plumb.gaffer != .boot || !s.boot.begun || s.boot.portsTraining != 0 || !(s.enabledSectors.all fun n => done.getLsbD n)
  then s
  else
    let ps := s.enabledPorts
    if ps.isEmpty then s.finishBoot
    else
      let s := ps.foldl (fun s p => s.setPortSt p .training 0) s
      s.modBoot fun b => { b with portsTraining := BitVec.ofNat 16 ((ps.map (2 ^ ·)).sum) }

/-- Steps 5 and 6 with firmware of a slot that has been accepted. -/
def State.bootFirmware (s : State) : State :=
  let s := (List.range 16).foldl State.readCadastre s
  let s := s.readBlocks
  let s := (List.range 16).foldl State.enableSector s
  let s := (List.range 16).foldl State.bootPort s
  if s.enabledSectors.length = 16 then
    ((s.modPlumb fun p => { p with gaffer := .waitHost }).modBoot fun b =>
      { b with seqActive := true, hostSeq := true }).takeDue
  else s.bootAdvance

/-- BOOT (13 R456, R458): the boot ROM authenticates slot A, then B. -/
def State.bootUp (s : State) : State :=
  let s := s.modBoot fun b => { b with regulators := true, bootWaits := false }
  let okA := s.flash.accepts s.flash.slotA
  let okB := s.flash.accepts s.flash.slotB
  let s := s.modPlumb fun p => { p with gaffer := .boot, fwFallback := !okA }
  let s := if okA then s else s.alert alertConfig
  if okA || okB then ((s.modBoot fun b => { b with begun := true }).runSlot (!okA)).bootFirmware
  else s.gafferHalt

/-- The module boots once PERST# is released, its rails are up and no trip is latched; with the rails
not up it waits (14 R489, R494). A Gaffer that a fault has halted within the reset stays HALTED until the next
one (R495; 12 R427). -/
def State.tryBoot (s : State) : State :=
  if s.boot.perst || !s.boot.auxOn || s.faults.thermTrip || s.plumb.gaffer == .halted then s
  else if !s.boot.railsOk then s.modBoot fun b => { b with bootWaits := true }
  else s.bootUp

/-- PERST_ASSERT (12 R438). -/
def execPerstAssert (s : State) : Answer :=
  let t := s.modBoot fun b => { b with perst := true, bootWaits := false }
  .next (if s.boot.perst then s else if s.boot.auxOn then t.moduleReset else t)

/-- HOT_RESET (12 R438): a module reset, and the boot at once. -/
def execHotReset (s : State) : Answer :=
  .next (if s.boot.perst || !s.boot.auxOn then s else s.moduleReset.tryBoot)

/-- PERST_RELEASE (13 R456; 14 R489, R494). -/
def execPerstRelease (s : State) : Answer :=
  .next (if s.boot.perst then (s.modBoot fun b => { b with perst := false }).tryBoot else s)

/-- MAIN_RAILS_UP (14 R494): both rails have been in range for 10 ms and the regulators ramp. After a
rail fault they stay off until the next module reset (R495). -/
def execMainRailsUp (s : State) : Answer :=
  .next (if s.boot.railsOk || !s.boot.auxOn then s
    else
      let s := s.modBoot fun b =>
        { b with railsOk := true, regulators := !s.faults.thermTrip && !s.plumb.outOfService }
      if s.boot.bootWaits then s.tryBoot else s)

/-- AUX_POWER_LOSS (14 R495; 09 R321; 12 R421): only flash, fuses and pins are left. -/
def execAuxPowerLoss (s : State) : Answer :=
  let fuses := s.phys.map fun e => (e.1, e.2.map fun x => ({ fuseBad := x.fuseBad, fuseCullet := x.fuseCullet } : Phys))
  let t : State :=
    { pending := s.pending, freeCtr := s.freeCtr, out := s.out, lifecycle := s.lifecycle, phys := fuses
      sectors := s.sectors.map fun (e : Nat × Sector) => (e.1, { rec0 := e.2.rec0, rec1 := e.2.rec1 })
      ctxs := s.flash.counters.ctxTab, channels := s.flash.counters.channels
      fabric := { ports := s.flash.counters.portTab }
      xchk := { bins := s.flash.counters.bins }, retired := ISet.insertAll s.retired s.retireMark
      flash := { s.flash with session := none, activated := false, runningSince := 0 }
      faults := { abortIn := s.faults.abortIn }
      boot := { auxOn := false, perst := s.boot.perst }
      power := { pwrbrk := s.power.pwrbrk, tap := { trst := s.power.tap.trst } } }
  .next (if s.boot.auxOn then t.loseMemory else s)

/-- AUX_POWER_UP (13 R456): the always-on domain leaves reset, and device time runs from that moment (01
R31); the boot follows PERST# and the rails. -/
def execAuxPowerUp (s : State) : Answer :=
  .next (if s.boot.auxOn then s
    else
      let s := { s with deviceTime := 0, slewAhead := 0, slewBack := 0, slewPhase := 0, tileTime := 0
                        tileTimeAt := 0 }
      ((s.modBoot fun b => { b with auxOn := true }).applyPwrbrk).tryBoot)

/-! ### Memory training and release (13 R459 to R461) -/

/-- A sector fails its second full training during bring-up. -/
def State.bootOut (s : State) (n : Nat) : State :=
  (s.goOut n).modBoot fun b => { b with failed := b.failed ||| oneBit 16 n }

/-- A sector's memory training ends. -/
def State.trainingEnds (s : State) (n : Nat) (failed : Bool) : State :=
  if failed then s.bootOut n else s.modBoot fun b => { b with trained := b.trained ||| oneBit 16 n }

/-- SECTOR_TRAINING_DONE (13 R459), in firmware-sequenced bring-up; `failures` of full training. -/
def execSectorTrainingDone (n : SectorId) (failures : Nat) (s : State) : Answer :=
  .next (if s.plumb.gaffer != .boot || !s.boot.begun || s.boot.perst || !(s.sector n).enabled || s.boot.trained.getLsbD n
      || s.boot.failed.getLsbD n then s
    else (s.trainingEnds n (decide (2 ≤ failures))).bootAdvance)

/-- The runs of a tile's visit, one after another: in each phase the j-th is of slice j / 2, and before the
retest every second one is the margin run (11 Table 11.6). -/
def Phys.lbistRuns (x : Phys) (misr : List DWord) : Phys :=
  misr.foldl (fun (x : Phys) m => match x.visit with
    | none => x
    | some v =>
      if 8 ≤ v.runs.length then x
      else x.lbistRun v (v.runs.length / 2) (!v.retest && v.runs.length % 2 == 1) m) x

/-- One tile's LBIST and memory test at release: a Lehr visit whose end the release decides (11 R384, R397,
R414). No run starts on a tile at thermal level 2 or 3 (14 R487). -/
def State.bootTest (s : State) (t : TileTest) : State :=
  let p := t.tile.val
  if (s.phy p).cad ≠ .lehr ∨ 2 ≤ (s.phy p).thermLevel then s
  else
    let s := s.modPhy p fun x =>
      let x := { x with visit := some {}, fails := 0 }.lbistRuns t.misr
      { x with eccUe := satAdd 0xFFFF x.eccUe t.memFails }
    let x := s.phy p
    match x.visit with
    | none => s
    | some v =>
      if !v.finished then s
      else if x.visitPasses v t.memFails then s.modPhy p fun x => { x.visitPassed v with cad := .lehr, visit := none }
      else s.cullet p

/-- Did a LEHR tile pass its test at release? -/
def Phys.bootPassed (x : Phys) : Bool := x.cad == .lehr && x.visit.isNone && x.visited

/-- Bind the tiles of a rebuilt Cadastre that passed, in ascending local number (11 R384). -/
def State.bindTiles (s : State) (n : Nat) : State :=
  let ps := (physOfSector n).filter fun p => (s.phy p).bootPassed
  ps.zipIdx.foldl (fun s e => s.modPhy e.1 fun x =>
    if e.2 < 32 then { x with cad := .good, index := some e.2, visited := true }
    else { x with cad := .spare, index := none, visited := true }) s

/-- A LEHR tile that passed its test at release is SPARE. -/
def State.passLehr (s : State) (n : Nat) : State :=
  (physOfSector n).foldl (fun s p =>
    if (s.phy p).bootPassed then s.modPhy p fun x => { x with cad := .spare } else s) s

/-- The translation tables take the Cadastre's bindings (06 R198). -/
def State.loadTrans (s : State) (n : Nat) : State :=
  (tilesOfSector n).foldl (fun s t =>
    let e : Trans := match s.carrier t with
      | some p => { phys := p }
      | none => withdrawnEntry n
    let s := s.modNet fun x => { x with trans := Tab.set x.trans t e }
    if e.withdrawn then s.modSector n fun x => { x with withdrawn := x.withdrawn ||| oneBit 32 (t % 32) } else s) s

/-- RELEASE of a sector begins: power, and the tests of its LEHR tiles. -/
def State.releaseTests (s : State) (tests : List TileTest) (n : Nat) : State :=
  let s := (physOfSector n).foldl (fun s p =>
    if (s.phy p).cad.usable then s.modPhy p fun x => { x with powered := true } else s) s
  let s := (physOfSector n).foldl (fun s p =>
    if (s.phy p).cad = .lehr then s.modPhy p fun x => { x with visited := false } else s) s
  (tests.filter fun t => sectorOfPhys t.tile == n).foldl State.bootTest s

/-- Have the tests of a sector's release ended (R460): has every LEHR tile passed or left? -/
def State.testsEnded (s : State) (tests : List TileTest) (n : Nat) : Bool :=
  let t := s.releaseTests tests n
  (physOfSector n).all fun p => (t.phy p).cad != .lehr || (t.phy p).bootPassed

/-- RELEASE of a sector: power, the tests of its LEHR tiles, its bindings. -/
def State.releaseSector (s : State) (tests : List TileTest) (n : Nat) : State :=
  let s := s.releaseTests tests n
  let s := if s.boot.rebuild.getLsbD n then s.bindTiles n else s.passLehr n
  let s := s.modBoot fun b => { b with released := b.released ||| oneBit 16 n, rebuild := b.rebuild &&& ~~~(oneBit 16 n) }
  let s := (s.modSector n fun x => { x with cadDirty := true }).loadTrans n
  let s := s.countSector n
  if (s.sector n).usable < 24 then s.bootOut n else s

/-- CORE_INIT_IMAGE (R461): firmware has placed the core initialisation image in the sector's drain area; its
contents and its place there are not in the spec (log 67). Every core fetches it; a tile with a core that finds a
wrong check word or fails its test becomes LEHR, and a GOOD one's index moves to a SPARE at once. Private memory
is zero afterwards. -/
def State.fetchImage (s : State) (tests : List TileTest) (n : Nat) : State :=
  let bad := (tests.filter fun t => t.coreFails && sectorOfPhys t.tile == n).map (·.tile.val)
  let s := s.openDrainArea n
  let s := bad.foldl (fun s p =>
    match (s.phy p).cad, s.logicalOf p with
    | .good, some t =>
      let s := s.beginVisit p 2
      (match s.coolest (s.spares n |>.filter fun q => !bad.contains q) with
        | some b => s.modPhy b fun x => { x with cad := .good, index := some (t % 32) }
        | none => s).loadTrans n
    | .spare, _ => s.beginVisit p 2
    | _, _ => s) s
  let s := s.modBoot fun b => { b with imageDone := b.imageDone ||| oneBit 16 n }
  if (s.sector n).st = .out then s else s.settleSector n

/-- Has WAVE_GAP_MS passed since the last release wave (R460)? -/
def State.waveOpen (s : State) : Bool :=
  match s.boot.waveAt with
  | none => true
  | some t => s.passed t (s.boot.parison.waveGapMs * 1000000)

/-- RELEASE_WAVE (13 R460, R461): up to four trained sectors, lowest first, in firmware-sequenced
bring-up, once the training of all has ended and WAVE_GAP_MS after the wave before. The wave ends only when the
tests of its sectors have ended: with `tests` that lack one it has not. -/
def execReleaseWave (tests : List TileTest) (s : State) : Answer :=
  let done := s.boot.trained ||| s.boot.failed
  let next := (s.enabledSectors.filter fun n =>
    s.boot.trained.getLsbD n && !s.boot.released.getLsbD n && !s.boot.failed.getLsbD n).take 4
  .next (if s.plumb.gaffer != .boot || !s.boot.begun || s.boot.perst || !s.waveOpen
      || !(s.enabledSectors.all fun n => done.getLsbD n) || !(next.all fun n => s.testsEnded tests n) then s
    else
      let t := s.modBoot fun b => { b with waveAt := some s.deviceTime }
      (next.foldl (fun s n => (s.releaseSector tests n).fetchImage tests n) t).bootAdvance)

/-- LINK_RETRAIN_END (08 R268, R269; 13 Table 13.5 step 10): a port's training ends, with what its
lanes' tests and its peer found. -/
def execLinkRetrainEnd (p : PortId) (rxLanes txLanes : BitVec 9) (peer : BitVec 14) (delay : Half)
    (s : State) : Answer :=
  .next (if (s.port p).st ≠ .training then s
    else
      let s := s.portTrained p rxLanes txLanes peer delay
      if s.boot.portsTraining.getLsbD p then
        let s := s.modBoot fun b => { b with portsTraining := b.portsTraining &&& ~~~(oneBit 16 p) }
        if s.boot.portsTraining = 0 ∧ s.plumb.gaffer = .boot then s.finishBoot else s
      else s)

/-! ### The sequencer (13 R465 to R467, Tables 13.8, 13.9) -/

/-- May a step act on a sector? -/
def State.seqSectorOk (s : State) (step n : Nat) : Bool :=
  let b := s.boot
  (s.sector n).enabled && !b.failed.getLsbD n &&
  match step with
  | 1 => !b.trained.getLsbD n
  | 2 => b.trained.getLsbD n && !b.released.getLsbD n
  | _ => b.released.getLsbD n && !b.imageDone.getLsbD n

/-- Has the step all that Table 13.9 needs? -/
def State.seqReady (s : State) (step : Nat) : Bool :=
  match step with
  | 1 | 2 | 3 => (setBits s.boot.seqSectors).all (s.seqSectorOk step)
  | 4 => (setBits s.boot.seqPorts).all fun p =>
      (s.port p).enabled && (s.port p).st != .up && !s.boot.portsUp.getLsbD p
  | 15 => s.enabledSectors.all fun n => (s.boot.imageDone ||| s.boot.failed).getLsbD n
  | _ => false

/-- A write of SEQ_STEP (R466). -/
def State.seqStart (s : State) (step : Nat) : State :=
  if s.boot.seqBusy || !s.boot.seqActive || !s.seqReady step then
    s.modBoot fun b => { b with seqRefused := true, seqResult := 7 }
  else
    let mask := if step = 4 then s.boot.seqPorts else if step = 15 then 0 else s.boot.seqSectors
    let s := s.modBoot fun b => { b with seqLast := BitVec.ofNat 4 step, seqMask := mask }
    if mask = 0 ∧ step ≠ 15 then s.modBoot fun b => { b with seqResult := 0 }
    else
      let s := s.modBoot fun b => { b with seqBusy := true }
      if step = 4 then (setBits mask).foldl (fun s p => s.setPortSt p .training 0) s else s

/-- TRAIN_MEMORY. -/
def execTrainMemory (s : State) : Answer := .next (s.seqStart 1)
/-- RELEASE_TILES. -/
def execReleaseTiles (s : State) : Answer := .next (s.seqStart 2)
/-- FETCH_IMAGES. -/
def execFetchImages (s : State) : Answer := .next (s.seqStart 3)
/-- TRAIN_PORTS. -/
def execTrainPorts (s : State) : Answer := .next (s.seqStart 4)
/-- FINISH. -/
def execFinish (s : State) : Answer := .next (s.seqStart 15)

/-- FINISH ends: bring-up is over. STATE becomes RUNNING; while the Gaffer restarts, that is the restart's end
(R465). -/
def State.finishSeq (s : State) : State :=
  let s := s.enabledPorts.foldl (fun (s : State) p =>
    if (s.port p).st = .training then s.portDown p else s) s
  let s := s.modBoot fun b => { b with seqActive := false, hostSeq := false }
  if s.plumb.gaffer = .waitHost then s.finishBoot else s.startServices

/-- SEQ_STEP_END (R459, R466, R467): the running step ends with the sectors that failed training and
the tests' results; a release only when its tests have ended (R460). A port that is still training ends DOWN,
also when FINISH completes. A halted Gaffer ends no step (12 R427). -/
def execSeqStepEnd (tests : List TileTest) (failed : BitVec 16) (s : State) : Answer :=
  let units := setBits s.boot.seqMask
  .next (if !s.boot.seqBusy || s.plumb.gaffer == .halted
      || (s.boot.seqLast == 2 && !(units.all fun n => s.testsEnded tests n)) then s
    else
      let s := s.modBoot fun b => { b with seqBusy := false, seqResult := 0 }
      match s.boot.seqLast.toNat with
      | 1 => units.foldl (fun s n => s.trainingEnds n (failed.getLsbD n)) s
      | 2 => units.foldl (State.releaseSector · tests) s
      | 3 => units.foldl (State.fetchImage · tests) s
      | 4 => units.foldl (fun s p =>
          match (s.port p).st with
          | .up => s.modBoot fun b => { b with portsUp := b.portsUp ||| oneBit 16 p }
          | .training => s.portDown p
          | _ => s) s
      | _ => s.finishSeq)

/-! ### LIC_INSTALL and CFG_WRITE (13 R464, R471) -/

/-- LIC_INSTALL. R464 gives TIER for a licence that was written; with LENGTH 0 it is the tier in use
(DESIGN CHOICE, log 47). -/
def State.licInstallCmd (host : Option (List Byte)) (s : State) (r : List Byte) : Reply :=
  let n := rq r 0 4
  let f := s.flash
  if n = 0 then Reply.ok s (leBytes 1 s.boot.licence.tier)
  else if n ≠ 256 then Reply.fail s stInvalidArg
  else match host with
    | none => Reply.fail s stInvalidArg
    | some h =>
      let b := fit 256 h
      let old := chooseLicence f.lic0 f.lic1
      let low := match old with
        | some o => decide (licSeq b < licSeq o)
        | none => false
      let equal := match old with
        | some o => licSeq b == licSeq o
        | none => false
      if !licenceSigned b then Reply.fail s stCheckFailed
      else if !licenceFields b || low || (equal && old != some b) then Reply.fail s stInvalidArg
      else if equal then Reply.ok s (leBytes 1 (field b 6 1))
      else
        let second := licenceWritesSecond f.lic0 f.lic1
        Reply.ok (s.modFlash fun f => if second then { f with lic1 := b } else { f with lic0 := b })
          (leBytes 1 (field b 6 1))

/-- The answer of a command with flash work: PENDING when the work cannot end within 10 ms, for which the
spec gives no times, and when it waits for flash work of an earlier GO (R454; log 47). A refusal that changes
no flash is answered at once. -/
def Reply.flash (src : Src) (opcode : Nat) (slow : Bool) (before : State) (r : Reply) : Reply :=
  match r.status with
  | some st =>
    if !(slow || before.flashBusy) then r
    else if st ≠ stOk ∧ st ≠ stCheckFailed ∧ r.st.flash = before.flash then r
    else if 8 ≤ (before.opsOf (srcFn src)).length then Reply.fail before stBusy
    else r.st.long src opcode (.flash st (if st = stOk then r.payload else [])) none id
  | none => r

/-- A command with flash work. -/
def flashReply (src : Src) (opcode : Nat) (slow : Bool) (body : State → List Byte → Reply) (s : State) (r : List Byte) :
    Reply :=
  (body s r).flash src opcode slow s

def execLicInstall (src : Src) (host : Option (List Byte)) (slow : Bool) (s : State) : Answer :=
  .next (s.serve src 0x0A02 (flashReply src 0x0A02 slow (State.licInstallCmd host)))

def blockOf (n : Nat) : Block := if n = 0 then .parison else if n = 1 then .route else .profile

/-- The two copies of a block. -/
def Flash.copies (f : Flash) : Block → List Byte × List Byte
  | .parison => (f.parison0, f.parison1)
  | .route => (f.route0, f.route1)
  | .profile => (f.prof0, f.prof1)

def Flash.setCopy (f : Flash) (k : Block) (second : Bool) (b : List Byte) : Flash :=
  match k, second with
  | .parison, false => { f with parison0 := b }
  | .parison, true => { f with parison1 := b }
  | .route, false => { f with route0 := b }
  | .route, true => { f with route1 := b }
  | .profile, false => { f with prof0 := b }
  | .profile, true => { f with prof1 := b }

/-- GENERATION of the copy in use; 0 with the factory default in use (DESIGN CHOICE, log 47). -/
def State.genInUse (s : State) : Block → Word
  | .parison => s.boot.parison.generation
  | .route => s.boot.routeGen
  | .profile => s.boot.profGen

/-- Set GENERATION and recompute CHECK. -/
def stampBlock (b : List Byte) (g : Word) : List Byte :=
  let body := patch (b.take (b.length - 4)) 8 (leBytes 4 g.toNat)
  body ++ leBytes 4 (crc32c body).toNat

/-- CFG_WRITE. A GENERATION that the host did not write as zero is INVALID_ARG (DESIGN CHOICE, log 47). -/
def State.cfgWriteCmd (host : Option (List Byte)) (s : State) (r : List Byte) : Reply :=
  let k := blockOf (rq r 0 1)
  let n := rq r 4 4
  if n = 0 then Reply.ok s
  else if n ≠ k.size then Reply.fail s stInvalidArg
  else match host with
    | none => Reply.fail s stInvalidArg
    | some h =>
      let b := fit n h
      if !crcOk b then Reply.fail s stCheckFailed
      else if !k.fields b || genOf b != 0 then Reply.fail s stInvalidArg
      else
        let c := s.flash.copies k
        let second := k.writesSecond c.1 c.2
        Reply.ok (s.modFlash fun f => f.setCopy k second (stampBlock b (s.genInUse k + 1)))

def execCfgWrite (src : Src) (host : Option (List Byte)) (slow : Bool) (s : State) : Answer :=
  .next (s.serve src 0x0A03 (flashReply src 0x0A03 slow (State.cfgWriteCmd host)))

/-! ### FW_UPDATE (13 R468 to R470, Tables 13.11, 13.12) -/

/-- The digest and the signature of an image (R458, Table 13.11): SHA-384 of bytes 0x100 to LENGTH - 1, and the
signature of the header. An image of which fewer than LENGTH bytes are there fails (R469). -/
def firmwareAuthentic (b : List Byte) : Bool :=
  let len := field b 0x10 4
  decide (256 ≤ len) && decide (len ≤ b.length) && ((b.drop 0x40).take 48 == sha384 ((b.take len).drop 0x100))
    && Config.firmwareSignature (b.take 0xD0)

/-- A slot with the bytes of an image. -/
def FwSlot.ofBytes (b : List Byte) : FwSlot where
  bytes := b
  authentic := firmwareAuthentic b
  svn := field b 0x0C 4
  major := BitVec.ofNat 8 (field b 6 1)
  minor := BitVec.ofNat 8 (field b 7 1)
  patch := BitVec.ofNat 16 (field b 8 2)
  raiseFloor := field b 0x14 1 == 1

/-- The response of every operation: the staging slot, always B. -/
def slotReply (s : State) : Reply := Reply.ok s (leBytes 1 1)

/-- The open session; one whose ACTIVATE has been accepted is over for the commands that follow it. -/
def Flash.open? (f : Flash) : Option FwSession := f.session.filter fun x => !x.activating

/-- Erase the staging slot and end the session. -/
def State.endSession (s : State) : State := s.modFlash fun f => { f with slotB := {}, session := none }

/-- BEGIN. -/
def State.fwBegin (s : State) (r : List Byte) : Reply :=
  let n := rq r 4 4
  if n ≠ 0 ∧ (n < 256 ∨ 16777216 < n) then Reply.fail s stInvalidArg
  else if s.flash.session.isSome || !s.flash.copied then Reply.fail s stBusy
  else if n = 0 then slotReply s
  else slotReply (s.modFlash fun f => { f with slotB := {}, session := some { length := n } })

def execFwUpdateBegin (src : Src) (slow : Bool) (s : State) : Answer :=
  .next (s.serveOp src 0x0A01 0 0 (flashReply src 0x0A01 slow State.fwBegin))

/-- WRITE. -/
def State.fwWrite (host : Option (List Byte)) (s : State) (r : List Byte) : Reply :=
  let n := rq r 4 4
  match s.flash.open? with
  | none => Reply.fail s stInvalidArg
  | some x =>
    if rq r 8 4 ≠ x.written ∨ x.length < x.written + n ∨ 0x100000 < n then Reply.fail s stInvalidArg
    else if n = 0 then slotReply s
    else match host with
      | none => Reply.fail s stInvalidArg
      | some h => slotReply (s.modFlash fun f =>
        { f with slotB := FwSlot.ofBytes (f.slotB.bytes ++ fit n h), session := some { x with written := x.written + n } })

def execFwUpdateWrite (src : Src) (host : Option (List Byte)) (slow : Bool) (s : State) : Answer :=
  .next (s.serveOp src 0x0A01 0 1 (flashReply src 0x0A01 slow (State.fwWrite host)))

/-- COMMIT; the refusals in the order of Table 13.12 (DEDUCED, log 47). -/
def State.fwCommit (s : State) (_ : List Byte) : Reply :=
  match s.flash.open? with
  | none => Reply.fail s stInvalidArg
  | some x =>
    if x.written ≠ x.length ∨ s.flash.slotB.svn < s.flash.svnFloor then Reply.fail s.endSession stInvalidArg
    else if !s.flash.slotB.authentic then Reply.fail s.endSession stCheckFailed
    else slotReply (s.modFlash fun f => { f with session := some { x with committed := true } })

def execFwUpdateCommit (src : Src) (slow : Bool) (s : State) : Answer :=
  .next (s.serveOp src 0x0A01 0 2 (flashReply src 0x0A01 slow State.fwCommit))

/-- ACTIVATE: the answer; behind flash work of an earlier GO it is PENDING (R454). -/
def State.fwActivate (src : Src) (s : State) (_ : List Byte) : Reply :=
  match s.flash.open? with
  | some x =>
    if !x.committed then Reply.fail s stInvalidArg
    else if s.flashBusy && decide (8 ≤ (s.opsOf (srcFn src)).length) then Reply.fail s stBusy
    else
      let t := s.modFlash fun f => { f with session := some { x with activating := true } }
      if s.flashBusy then t.long src 0x0A01 .activate none id else slotReply t
  | none => Reply.fail s stInvalidArg

/-- The restart that an accepted ACTIVATE starts, once the flash work before it has ended. -/
def State.activateNow (s : State) : State :=
  match s.flash.session with
  | some x =>
    if x.activating && s.delash.ops.all (fun o => o.work != .activate || o.final.isSome) then
      (s.modFlash fun f => { f with session := some { x with activating := false } }).gafferRestart 3
    else s
  | none => s

/-- FW_UPDATE_ACTIVATE: OK is answered, then the Gaffer restarts (12 Table 12.6; 09 R346). -/
def execFwUpdateActivate (src : Src) (s : State) : Answer :=
  .next (s.serveOp src 0x0A01 0 3 (State.fwActivate src)).activateNow

/-- LONG_OP_COMPLETE (09 R331): the operation's work has ended; its final response is kept. -/
def execLongOpComplete (f : FnId) (id : Nat) (s : State) : Answer :=
  .next (match s.delash.ops.find? (fun o => o.fn == f.val && o.id.toNat == id) with
    | none => s
    | some op =>
      if op.final.isSome then s
      else match s.workEnd op with
        | none => s
        | some (st, p) =>
          let s := (s.modDelash fun d => { d with ops := d.ops.map fun o =>
            if o.fn = op.fn ∧ o.id = op.id then { o with final := some (BitVec.ofNat 8 st, p) } else o }).workDone
              op.work
          if op.work = .activate then s.activateNow else s)

/-- CANCEL. -/
def State.fwCancel (s : State) (_ : List Byte) : Reply :=
  slotReply (if s.flash.open?.isSome then s.endSession else s)

def execFwUpdateCancel (src : Src) (slow : Bool) (s : State) : Answer :=
  .next (s.serveOp src 0x0A01 0 4 (flashReply src 0x0A01 slow State.fwCancel))

/-- FW_PROMOTION (R470): slot B is copied to slot A after 60 s of RUNNING, when ACTIVATE started it or
slot A is found invalid. It waits for flash work of commands (R454), and slot B must hold the running image:
a session erases it. -/
def execFwPromotion (s : State) : Answer :=
  let f := s.flash
  .next (if s.gafferRuns && s.plumb.fwSlotB && s.passed f.runningSince sixtySeconds && !s.flashBusy
      && f.session.isNone && f.accepts f.slotB && (f.activated || !f.accepts f.slotA) then
      s.modFlash fun f =>
        { f with slotA := f.slotB, activated := false, copied := true
                 svnFloor := if f.slotB.raiseFloor then max f.svnFloor f.slotB.svn else f.svnFloor }
    else s)

end Sys2Proof.Machine
end

