-- ==== Sys2Proof/Machine/SynGroups.lean ====
section
/-! DEFINITION. SYN groups: aborts, time and barriers across modules, and the groups that LINK_CONFIG
sets (08 R286, R298 to R305; 12 R430, R440, R441). -/
namespace Sys2Proof.Machine

def State.synGroup (s : State) (g : Nat) : Option SynGroup := Tab.get none s.fabric.syn g

/-- Send a message on the ports of a group but the one it came in on. -/
def State.forwardSyn (s : State) (ps : List Nat) (via : Nat) (m : SynMsg) : State :=
  s.sendSynAll (ps.filter (· != via)) m

/-! ### Aborts (08 R300 to R302; 12 R430) -/

def causeJobAbort : Nat := 0x0501

/-- The copy is the first of its job and epoch that goes along the group: it is forwarded, and kept
for its repeats. -/
def State.passAbort (s : State) (p : Nat) (m : SynMsg) : State :=
  match s.synGroup m.group.toNat with
  | none => s
  | some g =>
    let old := s.fabric.repeats.any fun r => r.msg.job == m.job && r.msg.epoch == m.epoch
    if g.job ≠ m.job ∨ old then s
    else (s.forwardSyn g.ports p m).modFabric fun x =>
      { x with repeats := (x.repeats.filter fun r => r.group != m.group.toNat)
          ++ [{ group := m.group.toNat, msg := m, left := 32 }] }

/-- The context takes up the epoch of an ABORT (R302); one already ABORTED or in TEARDOWN does nothing
else (12 R430). -/
def State.adoptAbort (s : State) (m : SynMsg) : State :=
  match s.jobCtx m.job with
  | none => s
  | some k =>
    let x := s.ctx k
    if x.epoch = m.epoch then s
    else if x.st = .aborted ∨ x.st = .teardown then s.modCtx k fun x => { x with epoch := m.epoch }
    else s.abortFault k 5 causeJobAbort (leBytes 2 m.src.toNat) (epoch := some m.epoch)

/-- SYN_ABORT. -/
def execSynAbort (p : PortId) (m : SynMsg) (s : State) : Answer :=
  let s := s.takeSyn p m
  .next (if m.kind ≠ 1 ∨ m.job = 0 then s else (s.adoptAbort m).passAbort p m)

/-- ABORT_REPEAT (08 R301): a microsecond later the accepted ABORTs are sent again. -/
def execAbortRepeat (s : State) : Answer :=
  .next (s.fabric.repeats.foldl (fun s r =>
      match s.synGroup r.group with
      | some g => if r.left = 0 then s else s.sendSynAll g.ports r.msg
      | none => s)
    (s.modFabric fun x => { x with repeats := x.repeats.map fun r => { r with left := r.left - 1 } }))

/-! ### Time (08 R304; 12 R441) -/

/-- Correct device time toward `t`: a step over more than 1 µs, else a slew. The tiles' copy does not step
before its next TIME triple (06 R226). -/
def State.setTime (s : State) (t : Nat) : State :=
  let now := s.deviceTime.toNat
  if now + 1000 < t then
    { s with deviceTime := BitVec.ofNat 64 t, tileTimeAt := s.tileTimeAt + BitVec.ofNat 64 (t - now)
             slewAhead := 0, slewBack := 0, slewPhase := 0 }
  else { s with slewAhead := t - now, slewBack := now - t, slewPhase := 0 }

/-- SYN_TIME: the first copy of a later TIME is applied and goes on down the tree, stamped with this
module's time. -/
def execSynTime (p : PortId) (m : SynMsg) (s : State) : Answer :=
  let s := s.takeSyn p m
  .next (match s.synGroup 0 with
    | none => s
    | some g =>
      if m.kind ≠ 2 ∨ m.group ≠ 0 ∨ m.payload.toNat ≤ s.fabric.lastTime.toNat then s
      else
        let s := s.setTime (m.payload.toNat + (s.port p).delayNs.toNat)
        let s := s.modFabric fun x => { x with lastTime := m.payload, lastTimeAt := some s.deviceTime }
        s.forwardSyn g.ports p { m with payload := s.deviceTime })

/-- Is this module the time master? -/
def State.isMaster (s : State) : Bool := s.fabric.node.isSome && s.fabric.timeMaster == s.fabric.node

/-- TIME_BEACON_SEND: every 10 µs at the time master. -/
def execTimeBeaconSend (s : State) : Answer :=
  .next (match s.synGroup 0 with
    | none => s
    | some g =>
      if s.isMaster then s.sendSynAll g.ports { kind := 2, group := 0, src := s.nodeId, payload := s.deviceTime }
      else s)

def causeTimeLost : Nat := 0x0506

/-- TIME_LOST (12 R441): 1 ms without an accepted TIME in a module that hangs in the time tree. -/
def execTimeLost (s : State) : Answer :=
  let late := match s.fabric.lastTimeAt with
    | some t => s.passed t 1000000
    | none => true
  .next (if (s.synGroup 0).isNone ∨ s.isMaster ∨ !late then s
    else (s.modFabric fun x => { x with lastTimeAt := some s.deviceTime }).record
      { cls := 5, action := actNone, cause := BitVec.ofNat 16 causeTimeLost })

def causeSynPortDown : Nat := 0x0503

/-- SYN_PORT_DOWN (12 R441): a port of a job's SYN group has stayed down for 100 µs, whether or not it trains
(Table 12.10, log 58). -/
def execSynPortDown (p : PortId) (s : State) : Answer :=
  .next (match (s.port p).downSince with
    | none => s
    | some t =>
      if (s.synJobs p).isEmpty ∨ !s.passed t 100000 then s
      else (s.synJobs p).eraseDups.foldl (fun s job =>
          match s.jobCtx job with
          | some k => s.abortFault k 5 causeSynPortDown (leBytes 1 p)
          | none => s.record
              { cls := 5, action := actNone, cause := BitVec.ofNat 16 causeSynPortDown, detail := leBytes 1 p })
        (s.modPort p fun x => { x with downSince := none }))

/-! ### Barriers across modules (08 R300, R304, R309) -/

/-- The module's own place among the arrivals of a barrier. -/
def selfArrival : Nat := 16

/-- The arrivals that a module combines: its down ports, and itself when it holds a collective group
of the SYN group. -/
def State.barNeeds (s : State) (g : Nat) (y : SynGroup) : List Nat :=
  setBits y.down ++ (if s.fabric.col.any fun c => match c.2 with
    | some x => x.synGroup == g
    | none => false then [selfArrival] else [])

def State.barSeenOf (s : State) (g : Nat) (seq : Half) : List Nat :=
  match s.fabric.barSeen.find? fun b => b.1 == g && b.2.1 == seq with
  | some b => b.2.2
  | none => []

/-- A BAR_RELEASE goes down: the barriers of this module that it ends complete. -/
def State.barRelease (s : State) (g : Nat) (y : SynGroup) (m : SynMsg) : State :=
  if s.fabric.relSeen.contains (g, m.epoch) then s
  else
    let s := s.modFabric fun x =>
      { x with relSeen := (x.relSeen ++ [(g, m.epoch)]).drop ((x.relSeen.length + 1) - 64)
               barSeen := x.barSeen.filter fun b => !(b.1 == g && b.2.1 == m.epoch) }
    let s := s.sendSynAll (setBits y.down) { m with kind := 4 }
    let ends := s.fabric.running.filter fun r =>
      r.op == 7 && r.bar == m.epoch && (match Tab.get none s.fabric.col r.group with
        | some x => x.synGroup == g
        | none => false)
    ends.foldl (fun s r =>
      let t := s.modFabric fun x => { x with running := x.running.filter fun o => o.desc != r.desc }
      match s.desc r.f r.slot r.desc with
      | some d => t.complete r.f r.slot d stOk 0
      | none => t) s

/-- An arrival at a barrier of a group: when all are here, one goes up, or the root releases. -/
def State.barArrive (s : State) (g : Nat) (via : Nat) (m : SynMsg) : State :=
  match s.synGroup g with
  | none => s
  | some y =>
    let seen := s.barSeenOf g m.epoch
    if seen.contains via ∨ s.fabric.relSeen.contains (g, m.epoch) then s
    else
      let now := seen ++ [via]
      let s := s.modFabric fun x =>
        { x with barSeen := (x.barSeen.filter fun b => !(b.1 == g && b.2.1 == m.epoch)) ++ [(g, m.epoch, now)] }
      if (s.barNeeds g y).all now.contains then
        match y.up with
        | some p => s.sendSyn p { m with kind := 3, src := s.nodeId }
        | none => s.barRelease g y m
      else s

/-- SYN_BAR_ARRIVE: a copy from a down port of the group. -/
def execSynBarArrive (p : PortId) (m : SynMsg) (s : State) : Answer :=
  let s := s.takeSyn p m
  .next (match s.synGroup m.group.toNat with
    | none => s
    | some y =>
      if m.kind ≠ 3 ∨ !y.down.getLsbD p ∨ y.job ≠ m.job then s else s.barArrive m.group.toNat p m)

/-- SYN_BAR_RELEASE: the first copy from the up port. -/
def execSynBarRelease (p : PortId) (m : SynMsg) (s : State) : Answer :=
  let s := s.takeSyn p m
  .next (match s.synGroup m.group.toNat with
    | none => s
    | some y =>
      if m.kind ≠ 4 ∨ y.up ≠ some p.val ∨ y.job ≠ m.job then s else s.barRelease m.group.toNat y m)

/-! ### LINK_CONFIG of groups (08 R286, R300, R305; 09 Table 9.11) -/

/-- A SYN group is set anew or removed: its barriers start from number 0, and no ABORT has gone along it yet
(DESIGN CHOICE, log 40). -/
def State.setSyn (s : State) (n : Nat) (g : Option SynGroup) : State :=
  s.modFabric fun x =>
    { x with syn := Tab.set x.syn n g, barSeen := x.barSeen.filter (·.1 != n), relSeen := x.relSeen.filter (·.1 != n)
             repeats := x.repeats.filter (·.group != n) }

/-- Ports that a job's group names and that are down have 100 µs from now (12 R441, log 58). -/
def State.watchPorts (s : State) (g : SynGroup) : State :=
  if g.job = 0 then s
  else g.ports.foldl (fun s p => s.modPort p fun x => { x with downSince := x.downSince.map fun _ => s.deviceTime }) s

/-- LINK_CONFIG SYN_GROUP. -/
def State.configSyn (s : State) (r : List Byte) : Reply :=
  let up := rq r 5 1
  let g : SynGroup :=
    { up := if up = 0xFF then none else some up, down := BitVec.ofNat 16 (rq r 6 2), job := BitVec.ofNat 32 (rq r 8 4) }
  Reply.ok ((s.setSyn (rq r 4 1) (some g)).watchPorts g)

def execLinkConfigSynGroup (src : Src) (s : State) : Answer := .next (s.serveOp src 0x0601 0 2 State.configSyn)

/-- 16 KiB of COL buffer, of the 256 KiB of a port (R286). -/
def colShare : Nat := 16384

/-- The ports on the paths to the ranks of a group: PRIMARY and ALT of each entry, since R290 sends on
either (R286). -/
def State.groupPorts (s : State) (nodes : List Nat) : List Nat :=
  (nodes.flatMap fun n =>
    let e := s.route (BitVec.ofNat 14 n)
    if rtLocal e then []
    else (if rtPValid e then [rtPrimary e] else []) ++ (if rtAValid e then [rtAlt e] else [])).eraseDups

/-- Take or give back the reservations of a group. -/
def State.reserve (s : State) (ps : List Nat) (take : Bool) : State :=
  ps.foldl (fun s p => s.modPort p fun x =>
    { x with colReserved := if take then x.colReserved + colShare else x.colReserved - colShare }) s

/-- Remove a collective group, with the pieces that wait for it and its packets at the ports. Its running
collectives are interrupted: they end with ABORTED (DESIGN CHOICE, log 40: R307 names no status for it). -/
def State.dropCol (s : State) (g : Nat) : State :=
  let other := fun (t : Option ColTag) => match t with
    | some t => t.group.val != g
    | none => true
  match Tab.get none s.fabric.col g with
  | none => s
  | some x => ((s.endRunning (·.group == g) stAborted).reserve x.ports false).modFabric fun y =>
    { y with
      col := Tab.set y.col g none
      early := y.early.filter (·.group != g)
      waiting := y.waiting.filter fun e => other e.col
      flows := y.flows.map fun (f : Flow) => { f with kept := f.kept.filter fun e => other e.col }
      ports := y.ports.map fun p => (p.1, { p.2 with egress := p.2.egress.filter fun e => other e.col }) }

/-- LINK_CONFIG COL_GROUP. -/
def State.configCol (s : State) (r : List Byte) : Reply :=
  let k := rq r 7 1
  let n := rq r 0x0A 2
  let a := rq r 0x10 8
  if !s.homedTier k a (2 * n) then Reply.fail s stInvalidArg
  else if s.isPoisoned a (2 * n) then Reply.fail (s.touch a (2 * n) false) stPoisoned
  else
    let bs := s.readTier a (2 * n)
    let s := s.touch a (2 * n) false
    let ranks := (List.range n).map fun i => field bs (2 * i) 2
    if !(ranks.all fun x => decide (x < 16384)) then Reply.fail s stInvalidArg
    else
      let t := s.dropCol (rq r 4 1)
      let ps := t.groupPorts ranks
      if ps.any fun p => decide (262144 < (t.port p).colReserved + colShare) then Reply.fail s stNoResource
      else
        let g : ColGroup := { ctx := k, tree := rq r 5 1 == 1, synGroup := rq r 6 1, rank := rq r 8 2, ranks, ports := ps }
        Reply.ok ((t.reserve ps true).modFabric fun y => { y with col := Tab.set y.col (rq r 4 1) (some g) })

def execLinkConfigColGroup (src : Src) (s : State) : Answer := .next (s.serveOp src 0x0601 0 3 State.configCol)

/-- LINK_CONFIG DELETE. -/
def State.configDelete (s : State) (r : List Byte) : Reply :=
  if rq r 4 1 = 0 then Reply.ok (s.setSyn (rq r 5 1) none)
  else Reply.ok (s.dropCol (rq r 5 1))

def execLinkConfigDelete (src : Src) (s : State) : Answer := .next (s.serveOp src 0x0601 0 4 State.configDelete)

end Sys2Proof.Machine
end

