-- ==== Sys2Proof/Machine/Collectives.lean ====
section
/-! DEFINITION. COLLECTIVE descriptors (08 R305 to R309). What the ranks exchange is modelled as each
rank's own contribution, and the result is combined in the order of R308 (DESIGN CHOICE, log 40). -/
namespace Sys2Proof.Machine

/-! ### Fields of the body (08 Table 8.8) -/

def clSrc (d : Desc) : Nat := field d.bytes 0x10 8
def clDst (d : Desc) : Nat := field d.bytes 0x18 8
def clCount (d : Desc) : Nat := field d.bytes 0x20 4
def clGroup (d : Desc) : Nat := field d.bytes 0x24 1
def clOp (d : Desc) : Nat := field d.bytes 0x25 1
def clDtype (d : Desc) : Nat := field d.bytes 0x26 1
def clRedop (d : Desc) : Nat := field d.bytes 0x27 1
def clPeer (d : Desc) : Nat := field d.bytes 0x28 2
def clSr (d : Desc) : Bool := bits (field d.bytes 0x2A 1) 0 0 == 1

/-- Bytes of an element. -/
def elemBytes (dtype : Nat) : Nat :=
  match dtype with
  | 2 => 2
  | 4 => 8
  | 5 => 16
  | _ => 4

def clBytes (d : Desc) : Nat := clCount d * elemBytes (clDtype d)

def State.colGroup (s : State) (g : Nat) : Option ColGroup := Tab.get none s.fabric.col g

/-! ### Arithmetic (R308) -/

/-- One element combined with the next, both as bits: BF16 has been widened to FP32. -/
def combine (dtype redop : Nat) (a b : Nat) : Nat :=
  match dtype with
  | 3 | 4 =>
    let w := 8 * elemBytes dtype
    if redop = 0 then (a + b) % 2 ^ w
    else if decide (signed w a < signed w b) == (redop == 1) then b else a
  | 5 =>
    let x := BitVec.ofNat 128 a
    let y := BitVec.ofNat 128 b
    if redop = 0 then (exactRaw x y).1.toNat
    else if x = nanMarker ∨ y = nanMarker then (Config.colExactNan (redop == 1) x y).toNat
    else if decide (x.toInt < y.toInt) == (redop == 1) then b else a
  | _ =>
    let x := BitVec.ofNat 32 a
    let y := BitVec.ofNat 32 b
    if redop = 0 then (f32Add x y).v.toNat
    else if f32IsNan x ∨ f32IsNan y then (Config.colNan (redop == 1) x y).toNat
    else if decide (orderKey (f32 x) < orderKey (f32 y)) == (redop == 1) then b else a

/-- Combine values from the left. -/
def combineAll (dtype redop : Nat) : List Nat → Nat
  | [] => 0
  | v :: vs => vs.foldl (combine dtype redop) v

/-- The value of a rank's subtree: its children in increasing rank order, then its own. Rank 0 is the
root. -/
def treeValue (dtype redop n : Nat) (vals : List Nat) : Nat → Nat → Nat
  | 0, r => vals.getD r 0
  | f + 1, r =>
    let kids := (List.range n).filter fun j => decide (r < j) && Config.treeParent n j % j == r
    combineAll dtype redop (kids.map (treeValue dtype redop n vals f) ++ [vals.getD r 0])

/-- The chunk of an element. -/
def chunkOf (count n e : Nat) : Nat :=
  if count % n = 0 then e / (count / n) else Config.chunkOf count n e % n

/-- The order of RING: rank c + 1 and on to rank c. -/
def ringOrder (n c : Nat) : List Nat := (List.range n).map fun i => (c + 1 + i) % n

/-- The combined value of one element of all ranks, and the rank that finishes it. -/
def reduceElem (tree : Bool) (dtype redop count : Nat) (vals : List Nat) (e : Nat) : Nat × Nat :=
  let n := vals.length
  if tree then (treeValue dtype redop n vals n 0, 0)
  else
    let c := chunkOf count n e
    (combineAll dtype redop ((ringOrder n c).map fun r => vals.getD r 0), c)

/-- Element `e` of a contribution; BF16 is widened. -/
def elemOf (dtype : Nat) (bs : List Byte) (e : Nat) : Nat :=
  let v := field bs (e * elemBytes dtype) (elemBytes dtype)
  if dtype = 2 then v * 65536 else v

/-- The result element in memory: BF16 is rounded once, with SR by the finishing rank's seed and number. -/
def narrowElem (dtype : Nat) (sr : Bool) (seed : DWord) (rank : Nat) (srseq : BitVec 27) (e v : Nat) :
    List Byte :=
  if dtype = 2 then
    let r := if sr then Rounding.sr (randomBits seed rank srseq e) else Rounding.rne
    leBytes 2 (toFloat fmtBF16 r (f32 (BitVec.ofNat 32 v))).1
  else leBytes (elemBytes dtype) v

/-! ### Contributions (R306, R307) -/

/-- The bytes that rank `r` contributes. -/
def expected (r : Collective) (d : Desc) (rank : Nat) : Nat :=
  if r.op = 4 then (if rank = clPeer d then clBytes d else 0) else clBytes d

/-- Has a rank contributed all of its data? -/
def contributed (r : Collective) (d : Desc) (rank : Nat) : Bool :=
  match r.got.find? (·.1 == rank) with
  | none => false
  | some g => ISet.covers g.2 0 (expected r d rank)

/-- Add a piece of a rank's data. -/
def addPiece (r : Collective) (rank offset : Nat) (data : List Byte) : Collective :=
  { r with contrib := Tab.mod [] r.contrib rank fun bs => patch bs offset data
           got := Tab.mod [] r.got rank fun g => ISet.insert offset (offset + data.length) g }

/-- The SR seed of the rank that rounds an element: this context's own at its own rank, elsewhere that
rank's, which this module does not see (log 40). -/
def State.rankSeed (s : State) (g : ColGroup) (rank : Nat) : DWord :=
  if rank = g.rank then (s.ctx g.ctx).seed else Config.peerSeed (s.ctx g.ctx).job rank

/-- The bytes that the collective leaves at DST of this rank. Which rank rounds an element, and with which
srseq, is the same at every rank, so that the result is (R308). -/
def State.colResult (s : State) (r : Collective) (d : Desc) (g : ColGroup) : List Byte :=
  let dt := clDtype d
  let ranks := List.range g.ranks.length
  let data := fun i => Tab.get [] r.contrib i
  if r.op = 3 then ranks.flatMap fun i => fit (clBytes d) (data i)
  else if r.op = 4 then fit (clBytes d) (data (clPeer d))
  else
    let srseq := Config.colSrseq (s.ctx g.ctx).job r.group r.seq
    ((List.range (clCount d)).filter fun e =>
        r.op == 1 || chunkOf (clCount d) g.ranks.length e == g.rank).flatMap fun e =>
      let (v, by_) := reduceElem g.tree dt (clRedop d) (clCount d) (ranks.map fun i => elemOf dt (data i) e) e
      narrowElem dt (clSr d) (s.rankSeed g by_) by_ srseq e v

/-- Write bytes to a context's tier memory, packet by packet; the status of the whole, and the bytes
written. -/
def State.storeAll (s : State) (k a : Nat) (bs : List Byte) : Nat × Nat × State :=
  (cutAt 512 a bs.length).foldl (fun acc p =>
    let (st, t) := acc.2.2.storeWrite k p.1 (bytesAt bs (p.1 - a) p.2)
    (worse acc.1 st, if st = stOk then acc.2.1 + p.2 else acc.2.1, t)) (stOk, 0, s)

/-- A collective is over. -/
def State.endCollective (s : State) (r : Collective) (d : Desc) (status written : Nat) : State :=
  (s.modFabric fun x => { x with running := x.running.filter (·.desc != r.desc) }).complete r.f r.slot d status
    (min 0xFFFFFFFF written)

/-- Once every rank has contributed, the result is written and the descriptor completes. -/
def State.tryCollective (s : State) (r : Collective) : State :=
  match s.desc r.f r.slot r.desc, s.colGroup r.group with
  | some d, some g =>
    if 5 ≤ r.op ∨ !(List.range g.ranks.length).all (contributed r d) then s
    else
      let (st, done, s) := s.storeAll g.ctx (clDst d) (s.colResult r d g)
      (s.modCtx g.ctx fun c => { c with progressed := true }).endCollective r d st done
  | _, _ => s

/-- A piece of a rank's data for a running collective: a digest that differs raises a job abort; a BARRIER
takes no data. Bytes that move are progress of the context (05 R184). -/
def State.takePiece (s : State) (r : Collective) (p : ColPiece) : State :=
  if p.digest ≠ r.digest then s.abortCtx (s.queue r.f r.slot).ctx
  else if r.op = 7 then s
  else
    let r' := addPiece r p.rank p.offset p.data
    let s := if p.data.isEmpty then s
      else s.modCtx (s.queue r.f r.slot).ctx fun c => { c with progressed := true }
    (s.modFabric fun x => { x with running := x.running.map fun y => if y.desc = r.desc then r' else y }).tryCollective r'

/-- The running collective of a number in a group; PUT and GET have none. -/
def State.runningOf (s : State) (group seq : Nat) : Option Collective :=
  s.fabric.running.find? fun r => r.group == group && r.seq == seq && r.op != 5 && r.op != 6

/-- A piece of a context's group: one that comes before this rank's own descriptor waits for it. -/
def State.colPiece (s : State) (k : Nat) (p : ColPiece) : State :=
  match s.colGroup p.group with
  | none => s
  | some g =>
    if g.ctx ≠ k ∨ g.ranks.length ≤ p.rank then s
    else match s.runningOf p.group p.seq with
      | some r => s.takePiece r p
      | none => if g.seq ≤ p.seq then s.modFabric fun x => { x with early := x.early ++ [p] } else s

/-- COL_DATA (08 R279, R281, R294, R306, R307): a packet of class COL in a port's COL buffer. It runs
through its flow as every packet does, and one of an unknown job, another epoch or an ended period is
discarded; ADDR is its offset. What Table 8.3 has no bits for stands in `tag` (DESIGN CHOICE, log 40). -/
def execColData (p : PortId) (pkt : LinkPacket) (tag : ColTag) (s : State) : Answer :=
  .next (s.packetIn p pkt (s.receiveHere p pkt fun s =>
    match s.linkCtx pkt with
    | none => s
    | some k => s.colPiece k ⟨tag.group, tag.rank, tag.seq, tag.digest, pkt.addr.toNat, pkt.payload⟩))

/-! ### Dispatch -/

/-- The addresses of a collective that must be the context's own tier memory. -/
def State.colOk (s : State) (k : Nat) (d : Desc) (g : ColGroup) : Bool :=
  let n := clBytes d
  let local_ := fun (a len : Nat) => s.homedTier k a (max 1 len)
  let dstLen := match clOp d with
    | 2 => n / max 1 g.ranks.length
    | 3 => n * g.ranks.length
    | _ => n
  g.ctx == k &&
  match clOp d with
  | 7 => true
  | 5 | 6 => decide (clPeer d < g.ranks.length) && local_ (clSrc d) n
  | 4 => decide (clPeer d < g.ranks.length) && local_ (clSrc d) n && local_ (clDst d) n
  | _ => local_ (clSrc d) n && local_ (clDst d) dstLen

/-- A rank's data as COL_DATA packets to every other rank, at most 512 bytes each and at least one; XTAG
holds the collective's number (log 40). -/
def State.sendPieces (s : State) (k : Nat) (g : ColGroup) (tag : ColTag) (data : List Byte) : State :=
  let x := s.ctx k
  let cuts := if data.isEmpty then [(0, 0)] else cutAt 512 0 data.length
  ((List.range g.ranks.length).filter (· != g.rank)).foldl (fun s i =>
    cuts.foldl (fun s c =>
      let pkt : LinkPacket :=
        { dest := BitVec.ofNat 14 (g.ranks.getD i 0), src := s.nodeId, cls := 2, kind := kColData
          len := BitVec.ofNat 10 c.2, job := x.job, epoch := x.epoch, xtag := BitVec.ofNat 16 tag.seq
          addr := BitVec.ofNat 48 c.1, period := if x.periodUs = 0 then 0 else x.periodSeq.setWidth 16
          payload := bytesAt data c.1 c.2 }
      s.injectLink { pkt, owner := some (k, x.gen), col := some tag }) s) s

/-- Pieces that came early meet the descriptor, and then this rank's own. -/
def State.takeEarly (s : State) (group seq : Nat) (own : List ColPiece) : State :=
  let (now, later) := s.fabric.early.partition fun p => p.group == group && p.seq == seq
  (now ++ own).foldl (fun s p =>
    match s.runningOf group seq with
    | some r => s.takePiece r p
    | none => s) (s.modFabric fun x => { x with early := later })

/-- The number of the next BARRIER of a SYN group (log 40). -/
def State.barNumber (s : State) (g : Nat) : Half :=
  match s.synGroup g with
  | some y => y.barSeq
  | none => 0

def State.nextBarrier (s : State) (g : Nat) : State :=
  s.modFabric fun x =>
    { x with syn := Tab.mod none x.syn g fun y => y.map fun y => { y with barSeq := y.barSeq + 1 } }

/-- Begin a collective at its engine. -/
def State.beginCollective (s : State) (f j k : Nat) (d : Desc) (g : ColGroup) : State :=
  let digest := Config.colDigest (clOp d) (clDtype d) (clRedop d) (clCount d) (clPeer d)
  let r : Collective :=
    { f, slot := j, desc := d.id, group := clGroup d, seq := g.seq, op := clOp d, digest }
  let push := fun (r : Collective) (s : State) => s.modFabric fun x => { x with running := x.running ++ [r] }
  if clOp d = 5 ∨ clOp d = 6 then
    let cuts := cutAt 512 (clDst d) (clBytes d)
    let r := { r with left := cuts.length, todo := cuts }
    (push r s).issueTransfer k d r
  else
    let s := s.modFabric fun x => { x with col := Tab.set x.col (clGroup d) (some { g with seq := g.seq + 1 }) }
    if clOp d = 7 then
      let bar := s.barNumber g.synGroup
      let s := (push { r with bar } s).takeEarly (clGroup d) g.seq []
      if (s.runningOf (clGroup d) g.seq).isNone then s
      else (s.nextBarrier g.synGroup).barArrive g.synGroup selfArrival
        { kind := 3, group := BitVec.ofNat 6 g.synGroup, src := s.nodeId, job := (s.ctx k).job, epoch := bar }
    else
      let mine := if clOp d = 4 ∧ clPeer d ≠ g.rank then [] else s.readTier (clSrc d) (clBytes d)
      let tag : ColTag := ⟨Fin.ofNat 32 (clGroup d), g.rank, g.seq, digest⟩
      let s := ((push r s).touch (clSrc d) mine.length false).emit (.colData (clGroup d) g.seq digest mine)
      (s.sendPieces k g tag mine).takeEarly (clGroup d) g.seq [⟨clGroup d, g.rank, g.seq, digest, 0, mine⟩]

/-- A collective descriptor of one OP: dispatched to one of the 8 engines when its turn comes. A
poisoned source ends it (07 R242). -/
def State.colDesc (s : State) (f j id op : Nat) : State :=
  let q := s.queue f j
  match s.desc f j id with
  | none => s
  | some d =>
    if d.type ≠ 4 ∨ clOp d ≠ op ∨ d.dispatched ∨ !q.reaches id ∨ 8 ≤ s.fabric.running.length then s
    else
      let s := s.dispatch f j id
      let d := { d with dispatched := true, tStart := s.deviceTime }
      match s.colGroup (clGroup d) with
      | none => s.completeNow f j d stInvalidArg
      | some g =>
        if !s.colOk q.ctx d g then s.completeNow f j d stInvalidArg
        else if clCount d = 0 ∧ op ≠ 7 then s.completeNow f j d stOk
        else if op ≤ 4 ∧ s.isPoisoned (clSrc d) (clBytes d) then
          (s.touch (clSrc d) (clBytes d) false).completeNow f j d stPoisoned
        else s.beginCollective f j q.ctx d g

/-- ALLREDUCE (08 R307, R308). -/
def execAllreduce (f : FnId) (slot : SlotId) (id : Nat) (s : State) : Answer := .next (s.colDesc f slot id 1)

/-- REDUCE_SCATTER (08 R307, R308). -/
def execReduceScatter (f : FnId) (slot : SlotId) (id : Nat) (s : State) : Answer := .next (s.colDesc f slot id 2)

/-- ALLGATHER (08 R307). -/
def execAllgather (f : FnId) (slot : SlotId) (id : Nat) (s : State) : Answer := .next (s.colDesc f slot id 3)

/-- BROADCAST (08 R307). -/
def execBroadcast (f : FnId) (slot : SlotId) (id : Nat) (s : State) : Answer := .next (s.colDesc f slot id 4)

/-- PUT (08 R309). -/
def execPutRemote (f : FnId) (slot : SlotId) (id : Nat) (s : State) : Answer := .next (s.colDesc f slot id 5)

/-- GET (08 R309). -/
def execGetRemote (f : FnId) (slot : SlotId) (id : Nat) (s : State) : Answer := .next (s.colDesc f slot id 6)

/-- BARRIER of a collective group (08 R309). -/
def execCollectiveBarrier (f : FnId) (slot : SlotId) (id : Nat) (s : State) : Answer :=
  .next (s.colDesc f slot id 7)

end Sys2Proof.Machine
end

