-- ==== Sys2Proof/Machine/Blocks.lean ====
section
/-! DEFINITION. The register space as a whole: the blocks of tiles, contexts, sectors and ports, read
and written (01 Table 1.12; 04 R126; 08 R288, R310; 10 R352; 11 R385; 00 Table 0.4). -/
namespace Sys2Proof.Machine

/-! Offsets of the blocks in the register space. -/
def ctxBlocks : Nat := 0x2000000000
def secBlocks : Nat := 0x3000000000
def lnkBlocks : Nat := 0x4000000000
def lnkRoutes : Nat := 0x4000100000
def stagingWindows : Nat := 0x8000000000

/-! ### Words -/

def ctxStateNo : CtxState → Nat
  | .free => 0 | .ready => 1 | .running => 2 | .drained => 3 | .aborted => 4 | .teardown => 5

/-- The register block of a context (10 Table 10.2). -/
def State.ctxRead (s : State) (k off : Nat) : Word :=
  let x := s.ctx k
  BitVec.ofNat 32 (match off with
    | 0x000 => ctxStateNo x.st + 2 ^ 3 * bit (x.periodUs != 0) + 2 ^ 4 * bit x.dumpConsent + 2 ^ 16 * x.sectors.toNat
    | 0x004 => x.gen.toNat + 2 ^ 16 * x.epoch.toNat
    | 0x008 => ((s.queuesOf k).map fun q => (s.queue q.1 q.2).descs.length).sum
    | 0x00C => s.txn k
    | 0x010 => x.periodSeq.toNat
    | 0x014 => (s.sectorsOf k).foldl (fun m n => max m (s.sector n).deferred) 0
    | _ => if 0x100 ≤ off ∧ off < 0x200 ∧ off % 4 = 0 then
        (Tab.get (0 : Word) x.events ((off - 0x100) / 4)).toNat
      else 0)

def cadNo : CadState → Nat
  | .good => 0 | .spare => 1 | .lehr => 2 | .cullet => 3 | .factoryBad => 4

/-- SEC_CAD_TILE_n and SEC_CAD_WEAR_n (11 Table 11.2). -/
def Phys.cadWord (x : Phys) : Word :=
  let bound := x.cad == .good && x.index.isSome
  BitVec.ofNat 32 (cadNo x.cad + 2 ^ 3 * bit x.checker + 2 ^ 4 * bit x.visited + 2 ^ 5 * bit x.marginOnly
    + 2 ^ 6 * (x.fails % 4) + (if bound then 2 ^ 8 * (x.index.getD 0 % 32) + 2 ^ 13 else 0))

def Phys.wearWord (x : Phys) : Word :=
  BitVec.ofNat 32 (x.drift.toNat + 2 ^ 8 * (x.tavg % 256) + 2 ^ 16 * (x.score % 65536))

/-- The self-test block of a sector: the word, and the state after an RC field is cleared. -/
def State.secRead (s : State) (n off : Nat) : Word × State :=
  let x := s.sector n
  if off < 0x120 then
    let p := s.phy (physOfLocal n (off / 8))
    (if off % 8 = 0 then p.cadWord else if off % 8 = 4 then p.wearWord else 0, s)
  else match off with
    | 0x200 => (BitVec.ofNat 32 (bit x.paused + 2 * bit x.noSpare + 2 ^ 2 * bit (x.phase != 0)
        + 2 ^ 3 * (x.phase % 8) + 2 ^ 6 * (x.phaseTile % 64) + 2 ^ 16 * (x.cycles % 65536)), s)
    | 0x204 => (BitVec.ofNat 32 x.intervalMs, s)
    | 0x210 => (BitVec.ofNat 32 x.xSampled, s.modSector n fun x => { x with xSampled := 0 })
    | 0x214 => (BitVec.ofNat 32 x.xSkipped, s.modSector n fun x => { x with xSkipped := 0 })
    | 0x218 => (BitVec.ofNat 32 x.xMismatch, s.modSector n fun x => { x with xMismatch := 0 })
    | 0x220 =>
      let u := s.usableCount n
      (BitVec.ofNat 32 (u + 2 ^ 6 * bit x.noSpare
        + 2 ^ 7 * bit (decide (24 ≤ u) && decide (u < 32)) + 2 ^ 8 * bit (decide (u < 24))), s)
    | _ => (0, s)

def portStNo : PortState → Nat
  | .down => 0 | .training => 1 | .up => 2 | .disabled => 3

/-- LNK_PORT_STATUS [5:0], which PLB_LINK_p copies. -/
def Port.short (x : Port) : Nat := portStNo x.st + 4 * (x.width % 16)

/-- LNK_PORT_STATUS, LNK_PORT_EVENT (08 Table 8.9). -/
def Port.statusWord (x : Port) : Word :=
  BitVec.ofNat 32 (x.short + 2 ^ 6 * x.laneGood.toNat + 2 ^ 15 * bit x.spareUsed + 2 ^ 16 * x.peer.toNat
    + 2 ^ 30 * bit x.peerValid)
def Port.eventWord (x : Port) : Word :=
  BitVec.ofNat 32 (bit x.wentDown + 2 * bit x.narrowed + 4 * bit x.noRouteEv)

def State.lnkRead (s : State) (p off : Nat) : Word × State :=
  let x := s.port p
  match off with
  | 0x000 => (x.statusWord, s)
  | 0x004 => (x.eventWord, s)
  | 0x008 => (BitVec.ofNat 32 x.noRoute, s.modPort p fun x => { x with noRoute := 0 })
  | 0x00C => (BitVec.ofNat 32 s.fabric.flowFull, s.modFabric fun f => { f with flowFull := 0 })
  | 0x010 => (x.delayNs.setWidth 32, s)
  | _ => (0, s)

/-! ### The whole space -/

/-- A read of a word of the register space. What a staging window holds is open (log 50). -/
def State.spaceRead (s : State) (off : Nat) : Word × State :=
  if off < 512 * 0x10000 then s.tileRead (off / 0x10000) (off % 0x10000)
  else if ctxBlocks ≤ off ∧ off < ctxBlocks + 16 * 0x1000 then
    (s.ctxRead ((off - ctxBlocks) / 0x1000) (off % 0x1000), s)
  else if secBlocks ≤ off ∧ off < secBlocks + 16 * 0x10000 then
    s.secRead ((off - secBlocks) / 0x10000) (off % 0x10000)
  else if lnkBlocks ≤ off ∧ off < lnkBlocks + 16 * 0x1000 then
    s.lnkRead ((off - lnkBlocks) / 0x1000) (off % 0x1000)
  else if lnkRoutes ≤ off ∧ off < lnkRoutes + 16384 * 4 ∧ off % 4 = 0 then
    ((Tab.get (0 : BitVec 14) s.fabric.routes ((off - lnkRoutes) / 4)).setWidth 32, s)
  else if stagingWindows ≤ off ∧ off < stagingWindows + 32 * 0x100000 then
    let (n, s) := s.fresh
    (Config.free 32 n, s)
  else (0, s)

/-- A write of a word of the register space: outside the tiles, only LNK_PORT_EVENT is writable. -/
def State.spaceWrite (s : State) (g : Agent) (off : Nat) (v : Word) : State :=
  if off < 512 * 0x10000 then s.tileWriteReg g (Fin.ofNat 512 (off / 0x10000)) (off % 0x10000) v
  else if lnkBlocks ≤ off ∧ off < lnkBlocks + 16 * 0x1000 ∧ off % 0x1000 = 4 then
    s.modPort ((off - lnkBlocks) / 0x1000) fun x =>
      { x with wentDown := x.wentDown && !v.getLsbD 0, narrowed := x.narrowed && !v.getLsbD 1
               noRouteEv := x.noRouteEv && !v.getLsbD 2 }
  else s

/-- An event that increments the RC counter at an offset, in the cycle of the read (00 R11).
TIL_NET_MISROUTE stops at 0xFFFF: Table 6.8 gives TIL_NET_DEFL as saturating and says nothing of MISROUTE,
and R11 lists the trouble counters only (DESIGN CHOICE, log 63). -/
def State.spaceEvent (s : State) (off : Nat) : State :=
  if off < 512 * 0x10000 then
    let o := off % 0x10000
    s.modTile (off / 0x10000) fun x =>
      if o = 0xE10 then { x with misroute := satAdd 0xFFFF x.misroute 1 }
      else if o = 0xE14 then { x with defl := satAdd 0xFFFFFFFF x.defl 1 }
      else if 0x2800 ≤ o ∧ o < 0x284C ∧ o % 4 = 0 then
        { x with conflict := Tab.mod 0 x.conflict ((o - 0x2800) / 4) (satAdd 0xFFFFFFFF · 1) }
      else x
  else if secBlocks ≤ off ∧ off < secBlocks + 16 * 0x10000 then
    s.modSector ((off - secBlocks) / 0x10000) fun x => match off % 0x10000 with
      | 0x210 => { x with xSampled := satAdd 0xFFFFFFFF x.xSampled 1 }
      | 0x214 => { x with xSkipped := satAdd 0xFFFFFFFF x.xSkipped 1 }
      | 0x218 => { x with xMismatch := satAdd 0xFFFFFFFF x.xMismatch 1 }
      | _ => x
  else if lnkBlocks ≤ off ∧ off < lnkBlocks + 16 * 0x1000 then
    if off % 0x1000 = 8 then
      s.modPort ((off - lnkBlocks) / 0x1000) fun x => { x with noRoute := satAdd 0xFFFFFFFF x.noRoute 1 }
    else if off % 0x1000 = 0xC then s.modFabric fun f => { f with flowFull := satAdd 0xFFFFFFFF f.flowFull 1 }
    else s
  else s

/-- The sector whose hardware serves a device address, if one does (09 R320). -/
def State.servingSector (s : State) (a : Nat) : Option Nat :=
  match s.addrKind a with
  | .tier1 | .tier2 => some (s.homeSector a)
  | .spad t _ => some (sectorOfTile t)
  | .reg off =>
    if off < 512 * 0x10000 then some (sectorOfTile (off / 0x10000))
    else if secBlocks ≤ off ∧ off < secBlocks + 16 * 0x10000 then some ((off - secBlocks) / 0x10000)
    else none
  | .unpopulated => none

/-- Is the unit fenced, resetting or off, so that it does not answer the debug window in time? -/
def State.late (s : State) (a : Nat) : Bool :=
  match s.servingSector a with
  | some n => (s.sector n).st.isFenced || (s.sector n).st == .off
  | none => false

/-- A read of a word at any device address, as the debug window makes it. -/
def State.rawRead (s : State) (a : Nat) : Word × State :=
  match s.addrKind a with
  | .tier1 | .tier2 => (BitVec.ofNat 32 (leVal (s.readTier a 4)), s.touch a 4 false)
  | .spad _ _ => (BitVec.ofNat 32 (leVal (s.readBytes a 4)), s)
  | .reg off => s.spaceRead off
  | .unpopulated => (0, s)

/-- A write of a word at any device address. -/
def State.rawWrite (s : State) (g : Agent) (a : Nat) (v : Word) : State :=
  match s.addrKind a with
  | .tier1 | .tier2 => (s.writeTier a (leBytes 4 v.toNat)).touch a 4 true
  | .spad _ _ => s.writeBytes a (leBytes 4 v.toNat)
  | .reg off => s.spaceWrite g off v
  | .unpopulated => s

end Sys2Proof.Machine
end

