-- ==== Sys2Proof/Machine/Device.lean ====
section
/-! DEFINITION. The Plumb window, SMBus, BAR0 control, the BAR2 aperture, the debug window, function
level reset and the device commands of Delash (09 R313 to R347; 12 R443 to R445). -/
namespace Sys2Proof.Machine

/-! ### Plumb registers (09 Table 9.4) -/

def gafferNo : GafferState → Nat
  | .boot => 0 | .running => 1 | .restarting => 2 | .halted => 3 | .waitHost => 4

def sectorStNo : SectorSt → Nat
  | .off => 0 | .up => 1 | .fenced => 2 | .resetting => 3 | .degraded => 4 | .out => 5

/-- PLB_CFG_FLAGS. -/
def State.cfgFlags (s : State) : Nat :=
  let p := s.plumb
  bit p.cfgDefaulted + 2 * bit p.licInvalid + 4 * bit p.routeDefaulted + 8 * bit p.profileDefaulted
    + 16 * bit p.fwSlotB + 32 * bit p.fwFallback + 64 * bit s.faults.escOn + 128 * bit p.outOfService

/-- PLB_SECTOR_s. -/
def Sector.plumbWord (x : Sector) : Nat :=
  sectorStNo x.st + 2 ^ 3 * bit x.noSpare + 2 ^ 4 * bit x.shown.isSome + 2 ^ 5 * (x.shown.getD 0 % 16)
    + 2 ^ 9 * (x.usable % 64) + 2 ^ 16 * (x.resets % 65536)

/-- The word at an offset, for a requester; PLB_TIME_LO's latch is not part of it. -/
def State.plumbRead (s : State) (reader off : Nat) : Nat :=
  let p := s.plumb
  match off with
  | 0x000 => 0xB9E1 + 2 ^ 16 * 0xB2
  | 0x004 => p.rev.toNat
  | 0x008 => p.heartbeat.toNat
  | 0x00C => gafferNo p.gaffer + 2 ^ 8 * p.restarts + 2 ^ 16 * p.lastCause
  | 0x010 => s.cfgFlags
  | 0x014 => p.lifecycle.toNat + 2 ^ 4 * p.profile.toNat + 2 ^ 6 * p.pins.toNat
  | 0x018 => bit s.faults.modFault + 2 * p.lastClass.toNat + 2 ^ 4 * p.lastSector.toNat
      + 2 ^ 8 * bit p.lastSectorValid + 2 ^ 16 * p.faultSeq.toNat
  | 0x01C => p.alert.toNat
  | 0x020 => p.alertEn.toNat
  | 0x028 => s.deviceTime.toNat % 2 ^ 32
  | 0x02C => (Tab.get (0 : Word) p.timeHi reader).toNat
  | 0x030 => p.tjMax % 256 + 2 ^ 8 * (p.hotSector % 16) + 2 ^ 12 * (p.throttle % 4)
  | 0x034 => p.powerW % 65536 + 2 ^ 16 * bit p.capActive
  | 0x0C0 => maskOf 16 fun f => (s.mailbox f).state == 1
  | _ =>
    if 0x040 ≤ off ∧ off < 0x080 ∧ off % 4 = 0 then (s.sector ((off - 0x040) / 4)).plumbWord
    else if 0x080 ≤ off ∧ off < 0x0C0 ∧ off % 4 = 0 then (s.port ((off - 0x080) / 4)).short
    else 0

/-! ### Alerts (09 R323) -/

/-- May the agent write the Plumb window: the PF or the BMC? -/
def plumbWriter : Agent → Bool
  | .host f => f == 0
  | .bmc => true
  | _ => false

/-- PLB_ALERT_WRITE: RW1C. A bit that an event sets in the same cycle reads 1 afterwards (00 R10). -/
def execPlbAlertWrite (g : Agent) (v : Word) (events : BitVec 7) (s : State) : Answer :=
  let kept := if plumbWriter g then s.plumb.alert &&& ~~~(v.setWidth 7) else s.plumb.alert
  .next (s.setAlerts (kept ||| events) s.plumb.alertEn)

/-- PLB_ALERT_EN_WRITE. -/
def execPlbAlertEnWrite (g : Agent) (v : Word) (s : State) : Answer :=
  .next (if plumbWriter g then s.setAlerts s.plumb.alert (v.setWidth 7) else s)

/-! ### SMBus (09 R325) -/

/-- The packet error code of SMBus (PRESUMED, log 48: CRC-8 with x^8 + x^2 + x + 1). -/
def crc8Bit (c : Byte) : Byte := if c.getLsbD 7 then (c <<< 1) ^^^ 0x07#8 else c <<< 1
def crc8 (bs : List Byte) : Byte :=
  bs.foldl (fun c b => (List.range 8).foldl (fun c _ => crc8Bit c) (c ^^^ b)) 0

/-- SMBUS_BLOCK_READ: byte count 4 and the register; a read of PLB_TIME_LO latches PLB_TIME_HI. -/
def execSmbusBlockRead (code : Byte) (pec : Bool) (s : State) : Answer :=
  let off := 4 * code.toNat
  .next (if !s.boot.auxOn then s
    else if 0x80 ≤ code.toNat then s.emit .smbusNack
    else
      let data : List Byte := 4 :: leBytes 4 (s.plumbRead 16 off)
      let addr := s.boot.parison.smbusAddr
      let check := crc8 ([addr <<< 1, code, (addr <<< 1) ||| 1] ++ data)
      let s := if off = 0x28 then s.modPlumb fun p =>
          { p with timeHi := Tab.set p.timeHi 16 ((s.deviceTime >>> 32).setWidth 32) }
        else s
      s.emit (.smbusData (data ++ if pec then [check] else [])))

/-- SMBUS_BLOCK_WRITE: PLB_ALERT or PLB_ALERT_EN, four bytes; a PEC byte that does not match is NACKed.
`events` are the alerts that hardware raises in the cycle of the write (00 R10). -/
def execSmbusBlockWrite (code count : Byte) (data : List Byte) (pec : Option Byte) (events : BitVec 7)
    (s : State) : Answer :=
  let v := BitVec.ofNat 32 (leVal (fit 4 data))
  let check := crc8 ([s.boot.parison.smbusAddr <<< 1, code, count] ++ fit 4 data)
  let matches' := match pec with
    | some b => b == check
    | none => true
  .next (if !s.boot.auxOn then s
    else if (code ≠ 7 ∧ code ≠ 8) ∨ count ≠ 4 ∨ !matches' then
      (s.setAlerts (s.plumb.alert ||| events) s.plumb.alertEn).emit .smbusNack
    else if code = 7 then (after (execPlbAlertWrite .bmc v events s) s).emit .smbusAck
    else
      let t := after (execPlbAlertEnWrite .bmc v s) s
      (t.setAlerts (t.plumb.alert ||| events) t.plumb.alertEn).emit .smbusAck)

/-- ALERT_RESPONSE_ADDRESS: the port answers with its address while ALERT# is asserted. -/
def execAlertResponseAddress (s : State) : Answer :=
  .next (if !s.boot.auxOn then s
    else if s.plumb.raised = 0 then s.emit .smbusNack
    else s.emit (.smbusData [s.boot.parison.smbusAddr]))

/-! ### The aperture (09 R317, R318) -/

/-- MBX_APT_CTX_WRITE. -/
def execMbxAptCtxWrite (f : FnId) (v : Word) (s : State) : Answer :=
  let k := bits v.toNat 3 0
  let st := (s.ctx k).st
  let owns := decide (f.val = 0) || s.ownsCtx f k
  let ok := owns && st != .free && st != .teardown
  .next (s.modDelash fun d =>
    { d with apt := Tab.mod {} d.apt f fun a =>
        if !v.getLsbD 4 then { a with ctx := k, valid := false }
        else if ok then { a with ctx := k, valid := true }
        else { a with valid := false } })

def State.aperture (s : State) (f : Nat) : Aperture := Tab.get {} s.delash.apt f

/-! ### What configuration space names of a function (09 Table 9.1) -/

/-- What Table 9.1 states of a function: its device ID, its MSI-X vectors and the size of its BAR0. What a PCIe
host reads of it beside these is the PCIe base specification's (log 49). -/
structure PcieFunction where
  deviceId : Half
  msixVectors : Nat
  bar0Bytes : Nat
  maxPayload : Nat := 512
  maxReadRequest : Nat := 4096
  deriving DecidableEq, Repr

def pcieFunction (f : Nat) : PcieFunction :=
  if f = 0 then { deviceId := 0x9E01, msixVectors := 64, bar0Bytes := 0x2000000 }
  else { deviceId := 0x9E02, msixVectors := 16, bar0Bytes := 0x40000 }

/-- Is function f present: the PF, and VF n as function n up to NumVFs (First VF Offset 1, VF Stride 1)? -/
def State.fnPresent (s : State) (f : Nat) : Bool := decide (f ≤ s.delash.numVfs)

/-- Is the whole range tier memory? -/
def State.inTier (s : State) (a n : Nat) : Bool :=
  (s.addrKind a).isTier && (n == 0 || (s.addrKind (a + n - 1)).isTier && inTier2 a == inTier2 (a + n - 1))

/-- BAR2_READ. -/
def execBar2Read (f : FnId) (off len : Nat) (s : State) : Answer :=
  let x := s.aperture f
  let a := x.base + off
  .next (if !x.valid || !s.inTier a len then s.emit (.pcieUnsupported f)
    else match s.storeRead x.ctx a len with
      | (st, bs) =>
        if st = stOk then (s.touchRead st a len).emit (.pcieData f bs)
        else if st = stPoisoned then (s.touchRead st a len).emit (.pciePoisoned f)
        else s.emit (.pcieUnsupported f))

/-- BAR2_WRITE. -/
def execBar2Write (f : FnId) (off : Nat) (data : List Byte) (s : State) : Answer :=
  let x := s.aperture f
  .next (if x.valid && s.inTier (x.base + off) data.length then (s.storeWrite x.ctx (x.base + off) data).2 else s)

/-! ### The debug window (09 R319, R320) -/

def State.debugOpen (s : State) : Bool := s.lifecycle == 0 || s.lifecycle == 4

def State.setLate (s : State) : State := s.modDelash fun d => { d with dbgLate := true }

/-- A read of a device address through the debug window; `event` increments an RC counter in the same
cycle (00 R11). The window has no POISONED answer: of a poisoned line it returns the stored bytes (DESIGN CHOICE,
log 69). -/
def State.debugRead (s : State) (a : Nat) (event : Bool) : State :=
  if !s.debugOpen then s.emit (.debugData 0)
  else if s.late a then s.setLate.emit (.debugData 0xFFFFFFFF)
  else
    let r := s.rawRead a
    (match event, s.addrKind a with
      | true, .reg off => r.2.spaceEvent off
      | _, _ => r.2).emit (.debugData r.1)

/-- DEBUG_WINDOW_READ. -/
def execDebugWindowRead (off : Nat) (s : State) : Answer :=
  .next (s.debugRead (s.delash.dbgBase + off) false)

/-- DEBUG_WINDOW_WRITE. -/
def execDebugWindowWrite (off : Nat) (v : Word) (s : State) : Answer :=
  let a := s.delash.dbgBase + off
  .next (if !s.debugOpen then s else if s.late a then s.setLate else s.rawWrite .debug a v)

/-- DEBUG_LATE: an access that its target did not answer within 100 µs. -/
def execDebugLate (write : Bool) (s : State) : Answer :=
  .next (if !s.debugOpen then s else if write then s.setLate else s.setLate.emit (.debugData 0xFFFFFFFF))

/-! ### Function level reset (09 R315, R333) -/

/-- The sequencer's registers at their reset values (13 Table 13.8): with ACTIVE 0 it starts no step until a
module reset. While firmware itself boots the module, what it has done so far stays (`booting`; log 49). -/
def Boot.seqReset (b : Boot) (booting : Bool) : Boot :=
  let b := { b with seqSectors := 0, seqPorts := 0, seqRefused := false, seqLast := 0, seqResult := 0 }
  if booting then b
  else { b with
    trained := 0, released := 0, imageDone := 0, failed := 0, portsUp := 0, seqBusy := false, seqMask := 0
    seqActive := false }

/-- The reset of one function. The Plumb window is not the function's (R321); the sequencer is the PF's. -/
def State.resetFn (s : State) (f : Nat) : State :=
  let mine := fun (src : Src) => match src with
    | .mailbox g => g.val == f
    | .bmc => false
  let s := s.modDelash fun d =>
    { d with
      mbx := Tab.set d.mbx f {}, apt := Tab.set d.apt f {}
      order := d.order.filter fun src => !mine src
      dbgBase := if f = 0 then 0 else d.dbgBase
      dbgLate := if f = 0 then false else d.dbgLate
      sqTail := keepTab (fun i => i / 16 != f) d.sqTail
      cqHead := keepTab (fun i => i / 16 != f) d.cqHead }
  let s := if f = 0 then s.modBoot fun b => b.seqReset (s.plumb.gaffer == .boot) else s
  let ks := (List.range 16).filter fun k => s.ownsCtx f k
  let s := ks.foldl (fun s k => ((s.scrambleCollectives k).dropEngines k).dropFabric k) s
  let s := { s with queues := keepTab (fun i => i / 16 != f) s.queues }
  ks.foldl (fun s k =>
    let s := s.endOps k
    let s := if (s.ctx k).dead then s else s.contained k causeHostAbort []
    s.startTeardown k) s

/-- FLR. -/
def execFlr (f : FnId) (s : State) : Answer :=
  .next (if f.val = 0 then (List.range 16).foldl State.resetFn s else s.resetFn f)

/-! ### DEV_IDENTIFY and DEV_STATUS (09 Table 9.10) -/

def State.identifyBytes (s : State) (f : Nat) : List Byte :=
  let rev := s.plumb.rev.toNat
  leBytes 2 0xB9E1 ++ leBytes 1 0xB2 ++ leBytes 1 s.lifecycle.toNat ++ leBytes 2 rev
    ++ leBytes 2 s.plumb.fwPatch.toNat ++ leBytes 2 (rev / 65536) ++ leBytes 1 f
    ++ leBytes 1 s.boot.licence.tier ++ leBytes 8 Config.serial.toNat
    ++ leBytes 2 (match s.fabric.node with
      | some n => n.toNat
      | none => 0xFFFF)
    ++ leBytes 2 (maskOf 16 fun n => (s.sector n).enabled) ++ leBytes 2 (maskOf 16 fun p => (s.port p).enabled)
    ++ leBytes 1 s.plumb.profile.toNat ++ leBytes 1 s.boot.licence.features ++ leBytes 1 s.delash.numVfs

/-- DEV_IDENTIFY. -/
def execDevIdentify (src : Src) (s : State) : Answer :=
  .next (s.serve src 0x0101 fun s _ => Reply.ok s (s.identifyBytes (srcFn src)))

def State.statusBytes (s : State) (f : Nat) : List Byte :=
  leBytes 8 s.deviceTime.toNat
    ++ (List.range 16).flatMap (fun n => leBytes 1 ((s.sector n).plumbWord % 32))
    ++ (List.range 16).flatMap (fun p => leBytes 1 (s.port p).short)
    ++ leBytes 2 (maskOf 16 fun k => (s.ctx k).st != .free && (f == 0 || (s.ctx k).fn == f))
    ++ leBytes 1 s.plumb.tjMax ++ leBytes 1 s.plumb.throttle ++ leBytes 2 s.plumb.powerW
    ++ leBytes 1 s.plumb.profile.toNat ++ leBytes 1 s.cfgFlags ++ leBytes 2 s.plumb.faultSeq.toNat

/-- DEV_STATUS. -/
def execDevStatus (src : Src) (s : State) : Answer :=
  .next (s.serve src 0x0102 fun s _ => Reply.ok s (s.statusBytes (srcFn src)))

/-! ### HEALTH_READ and HEALTH_CLEAR (09 R341; 11 R415, Table 11.10) -/

/-- Units of a scope. -/
def scopeUnits (scope : Nat) : Nat := if scope = 0 then 576 else if scope = 2 then 144 else 16

/-- INFO and the counters of a unit, in the order of Table 11.10. -/
def State.healthOf (s : State) (scope u : Nat) : Nat × List Nat :=
  match scope with
  | 0 =>
    let x := s.phy u
    let info := cadNo x.cad + 2 ^ 8 * (match x.cad, x.index with
      | .good, some i => i
      | _, _ => 0xFF)
    (info, [x.lbistFail, x.xchkMismatch, x.eccCe, x.eccUe, x.deflEscape, x.droopEvent, x.spill])
  | 1 =>
    let x := s.port u
    (0, [x.crcErr, x.replayCtr, x.laneSpared, x.retrain, x.stomped])
  | 2 =>
    let x := s.channel u
    (0, [x.ce, x.ue, x.rowRepair, x.retrain])
  | _ =>
    let x := s.ctx u
    (0, [x.dropped, x.aborts])

/-- A record of 20 bytes. -/
def healthRecord (u : Nat) (x : Nat × List Nat) : List Byte :=
  fit 20 (leBytes 2 u ++ leBytes 2 x.1 ++ x.2.flatMap (leBytes 2))

def State.healthReadCmd (src : Src) (s : State) (r : List Byte) : Reply :=
  let scope := rq r 0 1
  let first := rq r 2 2
  let n := min (rq r 4 2) (scopeUnits scope - first)
  let rec' := fun i =>
    let u := first + i
    if srcPf src || s.ownsCtx (srcFn src) u then healthRecord u (s.healthOf scope u) else healthRecord u (0, [])
  Reply.ok s (leBytes 1 scope ++ leBytes 1 n ++ [0, 0] ++ (List.range n).flatMap rec')

/-- HEALTH_READ. -/
def execHealthRead (src : Src) (s : State) : Answer := .next (s.serve src 0x0701 (State.healthReadCmd src))

/-- Clear the counters of one unit. -/
def State.clearHealth (s : State) (scope u : Nat) : State :=
  match scope with
  | 0 => s.modPhy u fun x =>
      { x with lbistFail := 0, xchkMismatch := 0, eccCe := 0, eccUe := 0, deflEscape := 0, droopEvent := 0, spill := 0 }
  | 1 => s.modPort u fun x => { x with crcErr := 0, replayCtr := 0, laneSpared := 0, retrain := 0, stomped := 0 }
  | 2 => s.modChannel u fun x => { x with ce := 0, ue := 0, rowRepair := 0, retrain := 0 }
  | _ => s.modCtx u fun x => { x with dropped := 0, aborts := 0 }

def State.clearScope (s : State) (scope first n : Nat) : State :=
  (List.range n).foldl (fun s i => s.clearHealth scope (first + i)) s

def State.healthClearCmd (s : State) (r : List Byte) : Reply :=
  let scope := rq r 0 1
  let first := rq r 2 2
  if scope = 0xFF then
    let s := [0, 1, 2, 3].foldl (fun s c => s.clearScope c 0 (scopeUnits c)) s
    Reply.ok { s with xchk := { s.xchk with bins := [] } }
  else Reply.ok (s.clearScope scope first (min (rq r 4 2) (scopeUnits scope - first)))

/-- HEALTH_CLEAR. -/
def execHealthClear (src : Src) (s : State) : Answer := .next (s.serve src 0x0702 State.healthClearCmd)

/-! ### DIAG_DUMP_READ (09 R343, R344; 12 R421, R443 to R445, Tables 12.2, 12.11) -/

/-- A fault record's 128 bytes. -/
def FaultRec.bytes (r : FaultRec) : List Byte :=
  leBytes 4 r.seq.toNat ++ leBytes 1 r.cls ++ leBytes 1 r.action ++ leBytes 2 r.cause.toNat
    ++ leBytes 8 r.time.toNat ++ [r.ctx, r.sector] ++ leBytes 2 r.gen.toNat ++ leBytes 4 r.job.toNat
    ++ leBytes 2 r.epoch.toNat ++ leBytes 2 r.unit.toNat ++ leBytes 2 r.lcore.toNat ++ leBytes 2 r.dump.toNat
    ++ List.replicate 16 0 ++ fit 80 r.detail

/-- A byte of the fault log; a place never written reads zero. -/
def State.logByte (s : State) (off : Nat) : Byte :=
  match s.faults.log.find? (·.1 == off / 128) with
  | some e => e.2.bytes.getD (off % 128) 0
  | none => 0

/-- An entry of a part's directory (Table 12.11). -/
structure DumpUnit where
  kind : Nat
  status : Nat
  unit : Nat
  offset : Nat
  length : Nat
  deriving DecidableEq, Repr

/-- Did unit j of part k not answer its scan in time? It is open which units do not (log 32). -/
def Dump.silent (d : Dump) (k j : Nat) : Bool := (Config.freeByte d.stamp (k * 0x1000000 + 0x40 + 16 * j)).getLsbD 0

/-- The units of part k in the order of Table 12.12 (DEDUCED, log 32): the tiles, each WITHHELD with LENGTH 0
without consent; then from 0xE1_0000 the controller, whose registers take an open length before 64 KiB, and
4 KiB for each engine, the sync node, the fence agent and each channel. -/
def Dump.units (d : Dump) (k : Nat) : List DumpUnit :=
  let sec := d.sectors.getD k 0
  let read := fun j => bit (d.silent k j)
  let open' := fun j => (Config.freeByte d.stamp (k * 0x1000000 + 0x42 + 16 * j)).toNat
  let tile := fun j => if d.consent.getD k false then ⟨1, read j, j, 0x10000 + j * 0x70000, 0x70000⟩
    else ⟨1, 2, j, 0x10000 + j * 0x70000, 0⟩
  let controller := 0x10000 + (Config.free 16 d.stamp).toNat
  let rest : List (Nat × Nat) := [(3, 2 * sec), (3, 2 * sec + 1), (4, open' 35), (5, open' 36)]
    ++ (List.range 8).map (fun c => (6, 8 * sec + c)) ++ if d.tier2 then [(6, 128 + sec)] else []
  (List.range 32).map tile ++ [⟨2, read 32, open' 32, 0xE10000, controller⟩]
    ++ rest.zipIdx.map fun e => ⟨e.1.1, read (33 + e.2), e.1.2, 0xE10000 + controller + 0x1000 * e.2, 0x1000⟩

def DumpUnit.bytes (u : DumpUnit) : List Byte :=
  leBytes 1 u.kind ++ leBytes 1 u.status ++ leBytes 2 u.unit ++ leBytes 4 u.offset ++ leBytes 4 u.length
    ++ leBytes 4 0

/-- Bytes of a part in use. -/
def Dump.length (d : Dump) (k : Nat) : Nat := (d.units k).foldl (fun m u => max m (u.offset + u.length)) 0

/-- The header of part k of a dump and its directory, with a value in CHECK. PARTIAL is set when a unit is
UNREADABLE. -/
def Dump.header (d : Dump) (k check : Nat) : List Byte :=
  leBytes 4 0x504D5544 ++ leBytes 2 1 ++ leBytes 2 d.num ++ leBytes 8 d.time.toNat ++ leBytes 2 d.cause.toNat
    ++ leBytes 1 d.cls ++ leBytes 1 (d.sectors.getD k 0) ++ [d.ctxs.getD k 0xFF]
    ++ leBytes 1 (bit (d.consent.getD k false) + 2 * bit ((d.units k).any (·.status == 1)))
    ++ leBytes 2 (d.gens.getD k 0).toNat ++ leBytes 4 d.faultSeq.toNat ++ leBytes 4 (d.units k).length
    ++ leBytes 4 (d.length k) ++ leBytes 24 0 ++ leBytes 4 check ++ (d.units k).flatMap DumpUnit.bytes

/-- How many bytes of unit j of part k were read before its scan timed out: open (log 32). -/
def Dump.readBefore (d : Dump) (k j : Nat) : Nat :=
  leVal ((List.range 3).map fun i => Config.freeByte d.stamp (0x10000000 + (k * 64 + j) * 4 + i))

/-- Is a byte of a part one that an UNREADABLE unit did not give: it is zero (Table 12.12)? -/
def Dump.unread (d : Dump) (k o : Nat) : Bool :=
  (d.units k).zipIdx.any fun e =>
    e.1.status == 1 && decide (e.1.offset + d.readBefore k e.2 % (e.1.length + 1) ≤ o)
      && decide (o < e.1.offset + e.1.length)

/-- A byte of part k: its header and directory, then what the scanned units hold, which is open (log 32). -/
def Dump.partByte (d : Dump) (k check o : Nat) : Byte :=
  (d.header k check).getD o (if d.unread k o then 0 else Config.freeByte d.stamp (k * 0x1000000 + o))

/-- A byte of a dump. CHECK is over the part's bytes in use, with CHECK read as zero. -/
def Dump.byte (d : Dump) (off : Nat) : Byte :=
  let k := off / 0x1000000
  let o := off % 0x1000000
  if 0x3C ≤ o ∧ o < 0x40 then
    (leBytes 4 (crc32c ((List.range (d.length k)).map (d.partByte k 0))).toNat).getD (o - 0x3C) 0
  else d.partByte k 0 o

/-- The bytes of a dump that exist, and its byte function: dump 0 is the fault log. -/
def State.dumpSource (s : State) (n : Nat) : Option (Nat × (Nat → Byte)) :=
  if n = 0 then some (131072, s.logByte)
  else (s.faults.dumps.find? (·.num == n)).map fun d => (d.sectors.length * 0x1000000, d.byte)

def State.dumpReadCmd (src : Src) (hostOk : Bool) (s : State) (r : List Byte) : Reply :=
  match s.dumpSource (rq r 0 2) with
  | none => Reply.fail s stInvalidArg
  | some (size, byte) =>
    let n := min (rq r 8 4) (size - rq r 4 4)
    let data := (List.range n).map fun i => byte (rq r 4 4 + i)
    let addr := rq r 16 8
    if addr = 0 then Reply.ok s (leBytes 8 n ++ data)
    else if n ≠ 0 && !hostOk then Reply.fail s stInvalidArg
    else Reply.ok (if n = 0 then s else s.emit (.hostWrite (srcFn src) (BitVec.ofNat 64 addr) data)) (leBytes 4 n)

/-- DIAG_DUMP_READ; `hostOk` is how the host answers the DMA. -/
def execDiagDumpRead (src : Src) (hostOk : Bool) (s : State) : Answer :=
  .next (s.serve src 0x0802 (State.dumpReadCmd src hostOk))

end Sys2Proof.Machine
end

