-- ==== Sys2Proof/Machine/Scalar.lean ====
section
/-! DEFINITION. Scalar loads, stores and atomics of a core, and the accesses that write or read a
register through any of its ports (04 R127, R128, Table 4.3; 00 R8, R11, Table 0.4; 09 R316). -/
namespace Sys2Proof.Machine

/-! ### The core local address map (04 Table 4.3) -/

inductive LocalKind where
  /-- Private memory: the byte offset. -/
  | priv (off : Nat)
  /-- The own tile's register block: the offset in it. -/
  | reg (off : Nat)
  /-- The own tile's scratchpad: the byte offset. -/
  | spad (off : Nat)
  | nothing
  deriving DecidableEq, Repr

/-- What a core's local address names; the alias window is the own core's CHN_ registers. -/
def localKind (core : Nat) (addr : Word) : LocalKind :=
  let a := addr.toNat
  if a < 0x10000 then .priv a
  else if 0x40000000 ≤ a ∧ a < 0x40010000 then .reg (a - 0x40000000)
  else if 0x40010000 ≤ a ∧ a < 0x40010400 then .reg (0x4000 + core % 16 * 0x400 + (a - 0x40010000))
  else if 0x80000000 ≤ a ∧ a < 0x80300000 then .spad (a - 0x80000000)
  else .nothing

def widthBytes : Width → Nat
  | .byte => 1 | .half => 2 | .word => 4

/-- The register value of loaded bytes. -/
def extend (w : Width) (signed' : Bool) (v : Nat) : Word :=
  if signed' then BitVec.ofInt 32 (signed (8 * widthBytes w) v) else BitVec.ofNat 32 v

/-! ### Register loads -/

/-- A word load at an offset of the own tile's register block: the own core's registers whose loads
wait or act have commands of their own. -/
def State.regLoad (s : State) (a : At) (off : Nat) (rd : XReg) : State :=
  let c := a.core.val % 16
  let chn := 0x4000 + c * 0x400 + 0x200
  let q := (off - chn) / 0x20
  let i := (off - chn) % 0x20 / 4
  if off = 0x1080 + c * 0x100 then after (execTilFireLoad a rd s) s
  else if chn ≤ off ∧ off < chn + 0x200 ∧ 1 ≤ i ∧ i ≤ 6 then
    after (execChnQheadLoad a (Fin.ofNat 16 q) (Fin.ofNat 6 (i - 1)) rd s) s
  else if off = 0x400 + c * 0x40 then after (execTilKrnNext a rd s) s
  else if off = 0x820 + c * 0x40 then after (execTilAtomResLoLoad a rd s) s
  else if off = 0xE20 then after (execTilTimeLoRead (.core a) (Fin.ofNat 512 (tileOf a.core)) rd s) s
  else
    let r := s.tileRead (tileOf a.core) off
    r.2.modCore a.core fun x => (x.setReg rd r.1).advance a.pc a.short

/-! ### Loads and stores (04 R127, R128) -/

/-- Scratchpad bytes that a scalar load reads: free values while an instruction in flight writes them
(03 R112). -/
def State.spadLoad (s : State) (t off n : Nat) : List Byte × State :=
  if s.racyLoad t (off, off + n) then
    let (k, s) := s.fresh
    ((List.range n).map (Config.freeByte k), s)
  else (s.readBytes (spadAddr t off) n, s)

/-- Scratchpad bytes that a scalar store writes, unordered with the instructions in flight. -/
def State.spadStore (s : State) (t off : Nat) (bs : List Byte) : State :=
  (s.writeBytes (spadAddr t off) bs).racyStore t (off, off + bs.length)

/-- A load or store whose address is legal. -/
def State.access (s : State) (a : At) (op : ScalarOp) (k : LocalKind) (r : XReg) : State :=
  let x := s.core a.core
  let t := tileOf a.core
  let load := fun (w : Width) (sg : Bool) (bs : List Byte) (s : State) =>
    s.modCore a.core fun x => (x.setReg r (extend w sg (leVal bs))).advance a.pc a.short
  let stored := fun (w : Width) => leBytes (widthBytes w) (x.reg r).toNat
  let done := fun (s : State) => s.modCore a.core (·.advance a.pc a.short)
  match op, k with
  | .load w sg, .priv off => load w sg (s.readPrivBytes a.core off (widthBytes w)) s
  | .load w sg, .spad off =>
    let (bs, s) := s.spadLoad t off (widthBytes w)
    load w sg bs s
  | .load _ _, .reg off => s.regLoad a off r
  | .store w, .priv off => done (s.writePrivBytes a.core off (stored w))
  | .store w, .spad off => done (s.spadStore t off (stored w))
  | .store _, .reg off => s.tileWriteReg (.core a) (Fin.ofNat 512 t) off (x.reg r)
  | _, .nothing => s

/-- SCALAR_SPD_ACCESS: a load or store at a local address, or its exception: misaligned, or an access
fault for a narrow register access, for scratchpad outside an enabled region of the core, and
elsewhere. -/
def execScalarSpdAccess (a : At) (op : ScalarOp) (addr : Word) (r : XReg) (s : State) : Answer :=
  let (w, store) := match op with
    | .load w _ => (w, false)
    | .store w => (w, true)
  let n := widthBytes w
  let fault := s.accessFault a store addr
  let crooked := s.takeTrap a.core a.pc (if store then exStoreMisaligned else exLoadMisaligned) addr
  .next (if !(s.core a.core).canIssue then s
    else match localKind a.core addr with
      | .nothing => fault
      | .reg off =>
        if w ≠ .word then fault else if off % 4 ≠ 0 then crooked else s.access a op (.reg off) r
      | .priv off => if off % n ≠ 0 then crooked else s.access a op (.priv off) r
      | .spad off =>
        if off % n ≠ 0 then crooked
        else if s.coreReaches a.core off n then s.access a op (.spad off) r
        else fault)

/-! ### Atomics of RV32A (04 R128) -/

/-- The word an atomic leaves. -/
def amoNew (op : AmoOp) (old v : Word) : Word :=
  match op with
  | .lr => old
  | .sc | .swap => v
  | .add => old + v
  | .xor => old ^^^ v
  | .and => old &&& v
  | .or => old ||| v
  | .min => if old.toInt ≤ v.toInt then old else v
  | .max => if old.toInt ≤ v.toInt then v else old
  | .minu => if old.toNat ≤ v.toNat then old else v
  | .maxu => if old.toNat ≤ v.toNat then v else old

/-- A word an atomic acts on: in the scratchpad, or in private memory, whose words are numbered from
2^24 on among the reservations. -/
def State.amoRead (s : State) (a : At) : LocalKind → Word × State
  | .spad off =>
    let (bs, s) := s.spadLoad (tileOf a.core) off 4
    (BitVec.ofNat 32 (leVal bs), s)
  | .priv off => (BitVec.ofNat 32 (leVal (s.readPrivBytes a.core off 4)), s)
  | _ => (0, s)
def State.amoWrite (s : State) (a : At) (k : LocalKind) (v : Word) : State :=
  match k with
  | .spad off => s.spadStore (tileOf a.core) off (leBytes 4 v.toNat)
  | .priv off => s.writePrivBytes a.core off (leBytes 4 v.toNat)
  | _ => s
def resvKey : LocalKind → Nat
  | .spad off => off / 4
  | .priv off => 2 ^ 24 + off / 4
  | _ => 0

def State.setResv (s : State) (a : At) (r : Option Nat) : State :=
  s.modTile (tileOf a.core) fun x =>
    let rest := x.resv.filter fun e => e.1 != a.core.val % 16
    { x with resv := match r with
        | some k => Tab.set rest (a.core.val % 16) k
        | none => rest }

/-- Does the core hold a reservation on the word? -/
def State.reserved (s : State) (a : At) (key : Nat) : Bool :=
  (s.tile (tileOf a.core)).resv.any fun e => e.1 == a.core.val % 16 && e.2 == key

/-- One read-modify-write at the bank. -/
def State.amo (s : State) (a : At) (op : AmoOp) (k : LocalKind) (rd rs2 : XReg) : State :=
  let v := (s.core a.core).reg rs2
  let (old, s) := s.amoRead a k
  let finish := fun (s : State) (res : Word) =>
    s.modCore a.core fun x => (x.setReg rd res).advance a.pc a.short
  match op with
  | .lr => finish (s.setResv a (some (resvKey k))) old
  | .sc =>
    if s.reserved a (resvKey k) then finish ((s.amoWrite a k v).setResv a none) 0
    else finish (s.setResv a none) 1
  | _ => finish (s.amoWrite a k (amoNew op old v)) old

/-- SCALAR_SPD_ATOMIC: the register window takes loads and stores only, so an atomic there is an
access fault (DEDUCED, log 19). -/
def execScalarSpdAtomic (a : At) (op : AmoOp) (addr : Word) (rd rs2 : XReg) (s : State) : Answer :=
  let store := op != .lr
  let fault := s.accessFault a store addr
  let crooked := s.takeTrap a.core a.pc (if store then exStoreMisaligned else exLoadMisaligned) addr
  .next (if !(s.core a.core).canIssue then s
    else match localKind a.core addr with
      | .spad off =>
        if off % 4 ≠ 0 then crooked
        else if s.coreReaches a.core off 4 then s.amo a op (.spad off) rd rs2
        else fault
      | .priv off => if off % 4 ≠ 0 then crooked else s.amo a op (.priv off) rd rs2
      | _ => fault)

/-! ### BAR0 (09 Tables 9.2, 9.3, 9.5, 9.6; 13 Table 13.8) -/

/-- Replace the low or the high part of an address, whose low `log` bits stay zero. -/
def setBaseLo (base log : Nat) (v : Word) : Nat := (base / 2 ^ 32 * 2 ^ 32 + v.toNat) / 2 ^ log * 2 ^ log
def setBaseHi (base log : Nat) (v : Word) : Nat :=
  (v.toNat % 2 ^ 16 * 2 ^ 32 + base % 2 ^ 32) / 2 ^ log * 2 ^ log

/-- The size of a function's BAR2, resizable (09 Table 9.1): as the host set it, else the default of the
Parison. -/
def State.bar2Log2 (s : State) (f : Nat) : Nat :=
  if f = 0 then s.delash.bar2Pf.getD s.boot.parison.bar2Log2
  else s.delash.bar2Vf.getD s.boot.parison.vfBar2Log2

/-- The bases of the apertures of some functions once BAR2 has 2^log bytes: bits below log read zero (09 Table
9.3). -/
def Delash.alignApt (d : Delash) (p : Nat → Bool) (log : Nat) : Tab Aperture :=
  d.apt.map fun (e : Nat × Aperture) => (e.1, if p e.1 then { e.2 with base := e.2.base / 2 ^ log * 2 ^ log } else e.2)

/-- The PF's configuration space (09 Table 9.1): NumVFs up to TotalVFs; BAR2 from 1 GiB to 512 GiB on
the PF and to 64 GiB on a VF. A value outside the support changes nothing (PRESUMED, log 49). -/
def State.configWrite (s : State) (t : RegTarget) (n : Nat) : State :=
  match t with
  | .numVfs => if n ≤ min 15 s.boot.parison.vfTotal then s.modDelash fun d => { d with numVfs := n } else s
  | .bar2Size false => if 30 ≤ n ∧ n ≤ 39 then s.modDelash fun d => { d with bar2Pf := some n, apt := d.alignApt (· == 0) n } else s
  | .bar2Size true => if 30 ≤ n ∧ n ≤ 36 then s.modDelash fun d => { d with bar2Vf := some n, apt := d.alignApt (· != 0) n } else s
  | _ => s

/-- A write in mailbox f's page. -/
def State.mailboxWrite (s : State) (f : FnId) (off : Nat) (v : Word) : State :=
  if off < 0x100 then s.modMailbox f fun m => { m with req := patch (fit 256 m.req) off (leBytes 4 v.toNat) }
  else match off with
    | 0x200 => after (execMbxGo f v s) s
    | 0x204 => s.modMailbox f fun m => { m with overrun := m.overrun && !v.getLsbD 2 }
    | 0x208 => s.modMailbox f fun m => { m with doneEn := v.getLsbD 0, done := m.done && !v.getLsbD 1 }
    | _ => s

/-- A write in the doorbell page. -/
def State.doorbellWrite (s : State) (f : FnId) (off : Nat) (v : Word) : State :=
  if 0x80 ≤ off then s
  else if off % 8 = 0 then after (execMbxSqTail f (Fin.ofNat 16 (off / 8)) v s) s
  else if off % 8 = 4 then after (execMbxCqHead f (Fin.ofNat 16 (off / 8)) v s) s
  else s

/-- A write in the aperture and debug window control page. -/
def State.controlWrite (s : State) (f : FnId) (off : Nat) (v : Word) : State :=
  let log := s.bar2Log2 f
  let base := fun (g : Nat → Nat) => s.modDelash fun d =>
    { d with apt := Tab.mod {} d.apt f fun a => { a with base := g a.base } }
  let dbg := fun (g : Nat → Nat) => if f.val = 0 then s.modDelash fun d => { d with dbgBase := g d.dbgBase } else s
  match off with
  | 0x00 => base (setBaseLo · log v)
  | 0x04 => base (setBaseHi · log v)
  | 0x08 => after (execMbxAptCtxWrite f v s) s
  | 0x10 => dbg (setBaseLo · 24 v)
  | 0x14 => dbg (setBaseHi · 24 v)
  | 0x18 => if f.val = 0 then s.modDelash fun d => { d with dbgLate := d.dbgLate && !v.getLsbD 0 } else s
  | _ => s

/-- A write of the sequencer. -/
def State.sequencerWrite (s : State) (off : Nat) (v : Word) : State :=
  match off with
  | 0x000 => match v.toNat % 16 with
    | 1 => after (execTrainMemory s) s
    | 2 => after (execReleaseTiles s) s
    | 3 => after (execFetchImages s) s
    | 4 => after (execTrainPorts s) s
    | 15 => after (execFinish s) s
    | n => s.seqStart n
  | 0x004 => s.modBoot fun b => { b with seqSectors := v.setWidth 16 }
  | 0x008 => s.modBoot fun b => { b with seqPorts := v.setWidth 16 }
  | 0x00C => s.modBoot fun b => { b with seqRefused := b.seqRefused && !v.getLsbD 2 }
  | _ => s

/-- A write of a word of BAR0 by function f; an offset that is not the function's is ignored (R316).
`events` matter to PLB_ALERT alone. -/
def State.bar0Write (s : State) (f : FnId) (off : Nat) (v events : Word) : State :=
  let page := off / 0x1000
  let o := off % 0x1000
  if off % 4 ≠ 0 then s
  else if page = 0 then
    if o = 0x1C then after (execPlbAlertWrite (.host f) v (events.setWidth 7) s) s
    else if o = 0x20 then after (execPlbAlertEnWrite (.host f) v s) s
    else s
  else if page = 0x10 + f.val then s.mailboxWrite f o v
  else if page = 0x20 + f.val then s.doorbellWrite f o v
  else if page = 0x30 then s.controlWrite f o v
  else if f.val ≠ 0 then s
  else if page = 0x100 then s.sequencerWrite o v
  else if 0x1000000 ≤ off ∧ off < 0x2000000 then after (execDebugWindowWrite (off - 0x1000000) v s) s
  else s

/-- The sequencer's words. -/
def Boot.seqRead (b : Boot) (off : Nat) : Nat :=
  match off with
  | 0x004 => b.seqSectors.toNat
  | 0x008 => b.seqPorts.toNat
  | 0x00C => bit b.seqBusy + 2 * bit b.seqActive + 4 * bit b.seqRefused + 2 ^ 4 * b.seqLast.toNat
      + 2 ^ 8 * b.seqResult.toNat
  | 0x010 => b.trained.toNat
  | 0x014 => b.released.toNat
  | 0x018 => b.imageDone.toNat
  | 0x01C => b.failed.toNat
  | 0x020 => b.portsUp.toNat
  | _ => 0

/-- A mailbox's words. -/
def Mailbox.read (m : Mailbox) (off : Nat) : Nat :=
  if off < 0x100 then field m.req off 4
  else if off < 0x200 then field m.rsp (off - 0x100) 4
  else match off with
    | 0x204 => m.state + 4 * bit m.overrun
    | 0x208 => bit m.doneEn + 2 * bit m.done
    | _ => 0

/-- A read of a word of BAR0 by function f, without side effects. -/
def State.bar0Read (s : State) (f off : Nat) : Nat :=
  let page := off / 0x1000
  let o := off % 0x1000
  let apt := s.aperture f
  if off % 4 ≠ 0 then 0
  else if page = 0 then s.plumbRead f o
  else if page = 0x10 + f then (s.mailbox f).read o
  else if page = 0x20 + f then
    if 0x80 ≤ o then 0
    else (Tab.get (0 : Word) (if o % 8 = 0 then s.delash.sqTail else s.delash.cqHead) (f * 16 + o / 8)).toNat
  else if page = 0x30 then
    match o with
    | 0x00 => apt.base % 2 ^ 32
    | 0x04 => apt.base / 2 ^ 32
    | 0x08 => apt.ctx + 16 * bit apt.valid
    | 0x10 => if f = 0 then s.delash.dbgBase % 2 ^ 32 else 0
    | 0x14 => if f = 0 then s.delash.dbgBase / 2 ^ 32 else 0
    | 0x18 => if f = 0 then bit s.delash.dbgLate else 0
    | _ => 0
  else if f = 0 ∧ page = 0x100 then s.boot.seqRead o
  else 0

/-! ### REGISTER_WRITE (00 R8) -/

/-- Write a machine CSR (PRESUMED, log 15); another number is an illegal instruction. -/
def Csrs.write (c : Csrs) (n : Nat) (v : Word) : Option Csrs :=
  match n with
  | 0x300 => some { c with mstatus := (v &&& 0x88#32) ||| 0x1800#32 }
  | 0x304 => some { c with mie := v &&& 0x888#32 }
  | 0x305 => some { c with mtvec := v &&& 0xFFFFFFFD#32 }
  | 0x340 => some { c with mscratch := v }
  | 0x341 => some { c with mepc := v &&& 0xFFFFFFFE#32 }
  | 0x342 => some { c with mcause := v }
  | 0x343 => some { c with mtval := v }
  | _ => none

/-- A core's own write: of a scalar register or CSR by an instruction outside the table, or of a
register at a local address. -/
def State.coreWrite (s : State) (a : At) (t : RegTarget) (v : Word) : State :=
  let x := s.core a.core
  if !x.canIssue then s
  else match t with
    | .xreg r => s.modCore a.core fun x => (x.setReg r v).advance a.pc a.short
    | .csr n => match x.csr.write n.toNat v with
      | some c => s.modCore a.core fun x => Core.advance { x with csr := c } a.pc a.short
      | none => s.takeTrap a.core a.pc exIllegal 0
    | .local addr => match localKind a.core addr with
      | .reg off => if off % 4 = 0 then s.tileWriteReg (.core a) (Fin.ofNat 512 (tileOf a.core)) off v
          else s.takeTrap a.core a.pc exStoreMisaligned addr
      | _ => s.accessFault a true addr
    | _ => s

/-! ### Events in the cycle of a write (00 R10) -/

/-- The RW1C bits of a tile's register that hardware sets. -/
def State.tileRw1c (s : State) (t off : Nat) (ev : Word) : State :=
  let core := fun (n : Nat) => t * 16 + n
  if off = 0xE08 ∨ off = 0xE0C then
    (setBits ev).foldl (fun s i => s.modTile t fun x =>
      { x with bcnt := Tab.mod {} x.bcnt (8 * (off - 0xE08) + i) fun b => { b with err := true } }) s
  else if 0xF00 ≤ off ∧ off < 0x1000 ∧ off % 0x10 = 4 then
    let c := core ((off - 0xF00) / 0x10)
    (s.modCore c fun x => { x with sync := { x.sync with
      barRel := x.sync.barRel || ev.getLsbD 0, semGrant := x.sync.semGrant || ev.getLsbD 2 } }).wakeWfi c
  else if 0x1000 ≤ off ∧ off < 0x2000 ∧ off % 0x100 = 0x94 then
    s.modCore (core ((off - 0x1000) / 0x100)) fun x =>
      { x with df := { x.df with badWrite := x.df.badWrite || ev.getLsbD 0 } }
  else if off = 0x2880 then s.modTile t fun x => { x with badWrite := x.badWrite || ev.getLsbD 0 }
  else if 0x4000 ≤ off ∧ off < 0x8000 then
    let o := off % 0x400
    s.modCore (core ((off - 0x4000) / 0x400)) fun x =>
      if o = 0x118 then { x with chnBadWrite := x.chnBadWrite || ev.getLsbD 0 }
      else if 0x200 ≤ o ∧ o % 0x20 = 0 then
        let y := x.queue ((o - 0x200) / 0x20)
        x.setQueue ((o - 0x200) / 0x20)
          { y with overrun := y.overrun || ev.getLsbD 8, portErr := y.portErr || ev.getLsbD 9 }
      else x
  else s

/-- The same in the whole register space. -/
def State.spaceRw1c (s : State) (off : Nat) (ev : Word) : State :=
  if ev = 0 then s
  else if off < 512 * 0x10000 then s.tileRw1c (off / 0x10000) (off % 0x10000) ev
  else if lnkBlocks ≤ off ∧ off < lnkBlocks + 16 * 0x1000 ∧ off % 0x1000 = 4 then
    s.modPort ((off - lnkBlocks) / 0x1000) fun x =>
      { x with wentDown := x.wentDown || ev.getLsbD 0, narrowed := x.narrowed || ev.getLsbD 1
               noRouteEv := x.noRouteEv || ev.getLsbD 2 }
  else s

/-- The same in BAR0, PLB_ALERT apart. -/
def State.bar0Rw1c (s : State) (f : FnId) (off : Nat) (ev : Word) : State :=
  let page := off / 0x1000
  let o := off % 0x1000
  if ev = 0 then s
  else if page = 0x10 + f.val then
    s.modMailbox f fun m =>
      if o = 0x204 then { m with overrun := m.overrun || ev.getLsbD 2 }
      else if o = 0x208 then { m with done := m.done || ev.getLsbD 1 }
      else m
  else if f.val ≠ 0 then s
  else if off = 0x30018 then s.modDelash fun d => { d with dbgLate := d.dbgLate || ev.getLsbD 0 }
  else if off = 0x10000C then s.modBoot fun b => { b with seqRefused := b.seqRefused || ev.getLsbD 2 }
  else if 0x1000000 ≤ off ∧ off < 0x2000000 then
    match s.addrKind (s.delash.dbgBase + (off - 0x1000000)) with
    | .reg o => s.spaceRw1c o ev
    | _ => s
  else s

/-- REGISTER_WRITE: the access code of each field governs the write (Table 0.4); the RW1C bits of
`events` that hardware sets in the same cycle read 1 afterwards (R10). -/
def execRegisterWrite (g : Agent) (t : RegTarget) (v events : Word) (s : State) : Answer :=
  .next (match g, t with
    | .core a, .local addr => match localKind a.core addr with
      | .reg off => (s.coreWrite a t v).spaceRw1c (tileOf a.core * 0x10000 + off) events
      | _ => s.coreWrite a t v
    | .core a, t => s.coreWrite a t v
    | .net, .device addr => match s.addrKind addr with
      | .reg off => if off < 512 * 0x10000 then (s.spaceWrite .net off v).spaceRw1c off events else s
      | _ => s
    | .firmware, .device addr => match s.addrKind addr with
      | .reg off => (s.spaceWrite .firmware off v).spaceRw1c off events
      | _ => s
    | .debug, .device addr => match s.addrKind addr with
      | .reg off =>
        (if !s.debugOpen then s else if s.late addr then s.setLate else s.spaceWrite .debug off v).spaceRw1c off
          events
      | _ => s
    | .host f, .bar0 off => (s.bar0Write f off v events).bar0Rw1c f off events
    | .host f, t => if f.val = 0 then s.configWrite t v.toNat else s
    | .bmc, .bar0 off =>
      if off = 0x1C then after (execPlbAlertWrite .bmc v (events.setWidth 7) s) s
      else if off = 0x20 then after (execPlbAlertEnWrite .bmc v s) s
      else s
    | _, _ => s)

/-! ### READ_TO_CLEAR (00 R8, R11) -/

/-- A read at an offset of the register space: the value, the clear of an RC field, and the event that
falls into the same cycle. -/
def State.readClear (s : State) (g : Agent) (off : Nat) (event : Bool) : State :=
  let r := s.spaceRead off
  (if event then r.2.spaceEvent off else r.2).emit (.regData g r.1)

/-- READ_TO_CLEAR. The read of a core is its load, which writes rd. -/
def execReadToClear (g : Agent) (t : RegTarget) (event : Bool) (rd : XReg) (s : State) : Answer :=
  .next (match g, t with
    | .core a, .local addr =>
      if !(s.core a.core).canIssue then s
      else match localKind a.core addr with
        | .reg off =>
          if off % 4 ≠ 0 then s.takeTrap a.core a.pc exLoadMisaligned addr
          else
            let t := s.regLoad a off rd
            if event then t.spaceEvent (tileOf a.core * 0x10000 + off) else t
        | _ => s.accessFault a false addr
    | .net, .device addr => match s.addrKind addr with
      | .reg off => if off < 512 * 0x10000 then s.readClear g off event else s
      | _ => s
    | .firmware, .device addr => match s.addrKind addr with
      | .reg off => s.readClear g off event
      | _ => s
    | .debug, .device addr => s.debugRead addr event
    | .host f, .device addr => match s.addrKind addr with
      | .reg off => if f.val = 0 ∧ lnkBlocks ≤ off ∧ off < stagingWindows then s.readClear g off event else s
      | _ => s
    | .host f, .bar0 off =>
      if f.val = 0 ∧ 0x1000000 ≤ off ∧ off < 0x2000000 then
        s.debugRead (s.delash.dbgBase + (off - 0x1000000)) event
      else s.emit (.regData g (BitVec.ofNat 32 (s.bar0Read f off)))
    | .bmc, .bar0 off => s.emit (.regData g (BitVec.ofNat 32 (s.plumbRead 16 off)))
    | _, _ => s)

end Sys2Proof.Machine
end

