-- ==== Sys2Proof/Machine/Dispatch.lean ====
section
/-! DEFINITION. One arm per command, each a call of its meaning. -/
namespace Sys2Proof.Machine

def exec (i : Instr) (s : State) : Host.Outcome State Fault Refusal :=
  match i with
  | .tmm a w => Sys2Proof.Machine.execTmm a w s
  | .acmInit a w => Sys2Proof.Machine.execAcmInit a w s
  | .acmStore a w => Sys2Proof.Machine.execAcmStore a w s
  | .vred a w => Sys2Proof.Machine.execVred a w s
  | .vcvt a w => Sys2Proof.Machine.execVcvt a w s
  | .tfence a w => Sys2Proof.Machine.execTfence a w s
  | .tstatSlot a w => Sys2Proof.Machine.execTstatSlot a w s
  | .tstatPipe a w => Sys2Proof.Machine.execTstatPipe a w s
  | .tdLd a w => Sys2Proof.Machine.execTdLd a w s
  | .tdSd a w => Sys2Proof.Machine.execTdSd a w s
  | .tdSetw a w => Sys2Proof.Machine.execTdSetw a w s
  | .tdGetw a w => Sys2Proof.Machine.execTdGetw a w s
  | .btxHeldIssue c => Sys2Proof.Machine.execBtxHeldIssue c s
  | .btxRetire c id => Sys2Proof.Machine.execBtxRetire c id s
  | .scalarSpdAccess a op addr r => Sys2Proof.Machine.execScalarSpdAccess a op addr r s
  | .scalarSpdAtomic a op addr rd rs2 => Sys2Proof.Machine.execScalarSpdAtomic a op addr rd rs2 s
  | .spdRgnBaseWrite g t n v => Sys2Proof.Machine.execSpdRgnBaseWrite g t n v s
  | .spdRgnSizeWrite g t n v => Sys2Proof.Machine.execSpdRgnSizeWrite g t n v s
  | .spdRgnOwnerWrite g t n v => Sys2Proof.Machine.execSpdRgnOwnerWrite g t n v s
  | .spdRgnHeadWrite g t n v => Sys2Proof.Machine.execSpdRgnHeadWrite g t n v s
  | .spdRgnTailWrite g t n v => Sys2Proof.Machine.execSpdRgnTailWrite g t n v s
  | .regionWriteRelease t n => Sys2Proof.Machine.execRegionWriteRelease t n s
  | .claimGrant t n side => Sys2Proof.Machine.execClaimGrant t n side s
  | .claimCommit t n side id => Sys2Proof.Machine.execClaimCommit t n side id s
  | .chnBindWrite g c idx v => Sys2Proof.Machine.execChnBindWrite g c idx v s
  | .bindWriteTakeEffect c idx => Sys2Proof.Machine.execBindWriteTakeEffect c idx s
  | .chnTxCmd a v => Sys2Proof.Machine.execChnTxCmd a v s
  | .sendRelease c => Sys2Proof.Machine.execSendRelease c s
  | .chanMsg p => Sys2Proof.Machine.execChanMsg p s
  | .vaVbMemStore c q => Sys2Proof.Machine.execVaVbMemStore c q s
  | .accAddendApply c q => Sys2Proof.Machine.execAccAddendApply c q s
  | .credit p => Sys2Proof.Machine.execCredit p s
  | .chnRxPop a v => Sys2Proof.Machine.execChnRxPop a v s
  | .chnQheadLoad a q idx rd => Sys2Proof.Machine.execChnQheadLoad a q idx rd s
  | .tilActWrite g c n v => Sys2Proof.Machine.execTilActWrite g c n v s
  | .inmaskWriteRelease c n => Sys2Proof.Machine.execInmaskWriteRelease c n s
  | .tilSpillCfgWrite g c v => Sys2Proof.Machine.execTilSpillCfgWrite g c v s
  | .tilFireLoad a rd => Sys2Proof.Machine.execTilFireLoad a rd s
  | .tilFireRetire a v => Sys2Proof.Machine.execTilFireRetire a v s
  | .tilPerfSnap g c v => Sys2Proof.Machine.execTilPerfSnap g c v s
  | .probeRound k => Sys2Proof.Machine.execProbeRound k s
  | .packetInject net p => Sys2Proof.Machine.execPacketInject net p s
  | .routerHeader net p ecc => Sys2Proof.Machine.execRouterHeader net p ecc s
  | .starve net p => Sys2Proof.Machine.execStarve net p s
  | .tilBcntWrite g t n target v credit => Sys2Proof.Machine.execTilBcntWrite g t n target v credit s
  | .onDieFence u => Sys2Proof.Machine.execOnDieFence u s
  | .tilSyncArrive a v => Sys2Proof.Machine.execTilSyncArrive a v s
  | .syncBarArrive k gen t b => Sys2Proof.Machine.execSyncBarArrive k gen t b s
  | .semPost a v => Sys2Proof.Machine.execSemPost a v s
  | .semWait a v => Sys2Proof.Machine.execSemWait a v s
  | .semGrant k gen sem => Sys2Proof.Machine.execSemGrant k gen sem s
  | .tilBarMaskWrite g t j v => Sys2Proof.Machine.execTilBarMaskWrite g t j v s
  | .timeTriple => Sys2Proof.Machine.execTimeTriple s
  | .tilTimeLoRead g t rd => Sys2Proof.Machine.execTilTimeLoRead g t rd s
  | .plbTimeLoRead g => Sys2Proof.Machine.execPlbTimeLoRead g s
  | .memHomeHome src => Sys2Proof.Machine.execMemHomeHome src s
  | .memHomeRelease src => Sys2Proof.Machine.execMemHomeRelease src s
  | .memHomeSetGlobal src => Sys2Proof.Machine.execMemHomeSetGlobal src s
  | .memHomeSetSector src => Sys2Proof.Machine.execMemHomeSetSector src s
  | .backgroundZeroGranule u => Sys2Proof.Machine.execBackgroundZeroGranule u s
  | .sectorStoreRequest r => Sys2Proof.Machine.execSectorStoreRequest r s
  | .patrolScrub line found => Sys2Proof.Machine.execPatrolScrub line found s
  | .rowRepair ch granule spareRow => Sys2Proof.Machine.execRowRepair ch granule spareRow s
  | .recalibration ch => Sys2Proof.Machine.execRecalibration ch s
  | .liveRetrain ch ok => Sys2Proof.Machine.execLiveRetrain ch ok s
  | .dma f slot id => Sys2Proof.Machine.execDma f slot id s
  | .tilefeed f slot id => Sys2Proof.Machine.execTilefeed f slot id s
  | .tilefeedScaleWrite e place => Sys2Proof.Machine.execTilefeedScaleWrite e place s
  | .dmaAck p => Sys2Proof.Machine.execDmaAck p s
  | .atomFadd a v => Sys2Proof.Machine.execAtomFadd a v s
  | .atomCswap a v => Sys2Proof.Machine.execAtomCswap a v s
  | .atomSmin a v => Sys2Proof.Machine.execAtomSmin a v s
  | .atomSmax a v => Sys2Proof.Machine.execAtomSmax a v s
  | .atomUmin a v => Sys2Proof.Machine.execAtomUmin a v s
  | .atomUmax a v => Sys2Proof.Machine.execAtomUmax a v s
  | .atomClaim a v => Sys2Proof.Machine.execAtomClaim a v s
  | .atomCommit a v => Sys2Proof.Machine.execAtomCommit a v s
  | .atomRetry a v => Sys2Proof.Machine.execAtomRetry a v s
  | .atomReq p => Sys2Proof.Machine.execAtomReq p s
  | .atomCas64 p => Sys2Proof.Machine.execAtomCas64 p s
  | .atomicReq p => Sys2Proof.Machine.execAtomicReq p s
  | .atomRsp p => Sys2Proof.Machine.execAtomRsp p s
  | .atomReissueTimeout c => Sys2Proof.Machine.execAtomReissueTimeout c s
  | .laneFailure p lane => Sys2Proof.Machine.execLaneFailure p lane s
  | .codeword p symbolErrors cw => Sys2Proof.Machine.execCodeword p symbolErrors cw s
  | .flit p bytes => Sys2Proof.Machine.execFlit p bytes s
  | .linkDown p => Sys2Proof.Machine.execLinkDown p s
  | .linkRetrainEnd p rxLanes txLanes peer delay => Sys2Proof.Machine.execLinkRetrainEnd p rxLanes txLanes peer delay s
  | .linkPacketReceive p pkt => Sys2Proof.Machine.execLinkPacketReceive p pkt s
  | .linkPacketEgress p => Sys2Proof.Machine.execLinkPacketEgress p s
  | .tack p src cls cum bitmap => Sys2Proof.Machine.execTack p src cls cum bitmap s
  | .retransmit cls node => Sys2Proof.Machine.execRetransmit cls node s
  | .flowTeardown cls node => Sys2Proof.Machine.execFlowTeardown cls node s
  | .flowReclaim cls node => Sys2Proof.Machine.execFlowReclaim cls node s
  | .routeHoldComplete => Sys2Proof.Machine.execRouteHoldComplete s
  | .routeHoldTimeout => Sys2Proof.Machine.execRouteHoldTimeout s
  | .routeHoldExpire => Sys2Proof.Machine.execRouteHoldExpire s
  | .synAbort p m => Sys2Proof.Machine.execSynAbort p m s
  | .synTime p m => Sys2Proof.Machine.execSynTime p m s
  | .synBarArrive p m => Sys2Proof.Machine.execSynBarArrive p m s
  | .synBarRelease p m => Sys2Proof.Machine.execSynBarRelease p m s
  | .abortRepeat => Sys2Proof.Machine.execAbortRepeat s
  | .timeBeaconSend => Sys2Proof.Machine.execTimeBeaconSend s
  | .allreduce f slot id => Sys2Proof.Machine.execAllreduce f slot id s
  | .reduceScatter f slot id => Sys2Proof.Machine.execReduceScatter f slot id s
  | .allgather f slot id => Sys2Proof.Machine.execAllgather f slot id s
  | .broadcast f slot id => Sys2Proof.Machine.execBroadcast f slot id s
  | .putRemote f slot id => Sys2Proof.Machine.execPutRemote f slot id s
  | .getRemote f slot id => Sys2Proof.Machine.execGetRemote f slot id s
  | .collectiveBarrier f slot id => Sys2Proof.Machine.execCollectiveBarrier f slot id s
  | .colData p pkt tag => Sys2Proof.Machine.execColData p pkt tag s
  | .flr f => Sys2Proof.Machine.execFlr f s
  | .mbxAptCtxWrite f v => Sys2Proof.Machine.execMbxAptCtxWrite f v s
  | .bar2Read f off len => Sys2Proof.Machine.execBar2Read f off len s
  | .bar2Write f off data => Sys2Proof.Machine.execBar2Write f off data s
  | .debugWindowRead off => Sys2Proof.Machine.execDebugWindowRead off s
  | .debugWindowWrite off v => Sys2Proof.Machine.execDebugWindowWrite off v s
  | .debugLate write => Sys2Proof.Machine.execDebugLate write s
  | .plbAlertWrite g v events => Sys2Proof.Machine.execPlbAlertWrite g v events s
  | .plbAlertEnWrite g v => Sys2Proof.Machine.execPlbAlertEnWrite g v s
  | .smbusBlockRead code pec => Sys2Proof.Machine.execSmbusBlockRead code pec s
  | .smbusBlockWrite code count data pec events => Sys2Proof.Machine.execSmbusBlockWrite code count data pec events s
  | .alertResponseAddress => Sys2Proof.Machine.execAlertResponseAddress s
  | .mctpMessage bytes => Sys2Proof.Machine.execMctpMessage bytes s
  | .mbxGo f v => Sys2Proof.Machine.execMbxGo f v s
  | .poll src => Sys2Proof.Machine.execPoll src s
  | .longOpComplete f id => Sys2Proof.Machine.execLongOpComplete f id s
  | .heartbeat => Sys2Proof.Machine.execHeartbeat s
  | .mbxSqTail f slot v => Sys2Proof.Machine.execMbxSqTail f slot v s
  | .mbxCqHead f slot v => Sys2Proof.Machine.execMbxCqHead f slot v s
  | .devIdentify src => Sys2Proof.Machine.execDevIdentify src s
  | .devStatus src => Sys2Proof.Machine.execDevStatus src s
  | .devSetProfile src => Sys2Proof.Machine.execDevSetProfile src s
  | .ctxCreate src => Sys2Proof.Machine.execCtxCreate src s
  | .ctxDestroy src => Sys2Proof.Machine.execCtxDestroy src s
  | .ctxAbort src => Sys2Proof.Machine.execCtxAbort src s
  | .ctxSetPeriod src => Sys2Proof.Machine.execCtxSetPeriod src s
  | .qCreate src => Sys2Proof.Machine.execQCreate src s
  | .qDestroy src => Sys2Proof.Machine.execQDestroy src s
  | .placeLoad src => Sys2Proof.Machine.execPlaceLoad src s
  | .placeDrain src => Sys2Proof.Machine.execPlaceDrain src s
  | .placeResume src => Sys2Proof.Machine.execPlaceResume src s
  | .linkConfigNode src => Sys2Proof.Machine.execLinkConfigNode src s
  | .linkConfigPorts src => Sys2Proof.Machine.execLinkConfigPorts src s
  | .linkConfigSynGroup src => Sys2Proof.Machine.execLinkConfigSynGroup src s
  | .linkConfigColGroup src => Sys2Proof.Machine.execLinkConfigColGroup src s
  | .linkConfigDelete src => Sys2Proof.Machine.execLinkConfigDelete src s
  | .routeUpdateHold src => Sys2Proof.Machine.execRouteUpdateHold src s
  | .routeUpdateWriteRelease src => Sys2Proof.Machine.execRouteUpdateWriteRelease src s
  | .routeUpdateBoth src => Sys2Proof.Machine.execRouteUpdateBoth src s
  | .linkRetrain src => Sys2Proof.Machine.execLinkRetrain src s
  | .healthRead src => Sys2Proof.Machine.execHealthRead src s
  | .healthClear src => Sys2Proof.Machine.execHealthClear src s
  | .traverseCtlStatus src => Sys2Proof.Machine.execTraverseCtlStatus src s
  | .traverseCtlPause src => Sys2Proof.Machine.execTraverseCtlPause src s
  | .traverseCtlResume src => Sys2Proof.Machine.execTraverseCtlResume src s
  | .traverseCtlInterval src => Sys2Proof.Machine.execTraverseCtlInterval src s
  | .xchkCtlStatus src => Sys2Proof.Machine.execXchkCtlStatus src s
  | .xchkCtlEnable src => Sys2Proof.Machine.execXchkCtlEnable src s
  | .xchkCtlDisable src => Sys2Proof.Machine.execXchkCtlDisable src s
  | .xchkCtlRate src => Sys2Proof.Machine.execXchkCtlRate src s
  | .diagBistRun src misr => Sys2Proof.Machine.execDiagBistRun src misr s
  | .diagDumpRead src hostOk => Sys2Proof.Machine.execDiagDumpRead src hostOk s
  | .sectorReset src => Sys2Proof.Machine.execSectorReset src s
  | .escalationCfg src => Sys2Proof.Machine.execEscalationCfg src s
  | .fwUpdateBegin src slow => Sys2Proof.Machine.execFwUpdateBegin src slow s
  | .fwUpdateWrite src host slow => Sys2Proof.Machine.execFwUpdateWrite src host slow s
  | .fwUpdateCommit src slow => Sys2Proof.Machine.execFwUpdateCommit src slow s
  | .fwUpdateActivate src => Sys2Proof.Machine.execFwUpdateActivate src s
  | .fwUpdateCancel src slow => Sys2Proof.Machine.execFwUpdateCancel src slow s
  | .licInstall src host slow => Sys2Proof.Machine.execLicInstall src host slow s
  | .cfgWrite src host slow => Sys2Proof.Machine.execCfgWrite src host slow s
  | .descriptorFetch f slot bytes => Sys2Proof.Machine.execDescriptorFetch f slot bytes s
  | .kernel f slot id => Sys2Proof.Machine.execKernel f slot id s
  | .barrierQueue f slot id => Sys2Proof.Machine.execBarrierQueue f slot id s
  | .signalEvent f slot id => Sys2Proof.Machine.execSignalEvent f slot id s
  | .waitEvent f slot id => Sys2Proof.Machine.execWaitEvent f slot id s
  | .periodMark f slot id => Sys2Proof.Machine.execPeriodMark f slot id s
  | .tilKrnNext a rd => Sys2Proof.Machine.execTilKrnNext a rd s
  | .tilKrnDone a v => Sys2Proof.Machine.execTilKrnDone a v s
  | .kernelWatchdog f slot id => Sys2Proof.Machine.execKernelWatchdog f slot id s
  | .periodBoundary k => Sys2Proof.Machine.execPeriodBoundary k s
  | .ctxTxnZero k => Sys2Proof.Machine.execCtxTxnZero k s
  | .teardownTimeout k => Sys2Proof.Machine.execTeardownTimeout k s
  | .backgroundZeroTile t u => Sys2Proof.Machine.execBackgroundZeroTile t u s
  | .traverseStep sec how => Sys2Proof.Machine.execTraverseStep sec how s
  | .lbistRun p slice margin misr => Sys2Proof.Machine.execLbistRun p slice margin misr s
  | .lehrVisitEnd p memFails => Sys2Proof.Machine.execLehrVisitEnd p memFails s
  | .scanNoAnswer p => Sys2Proof.Machine.execScanNoAnswer p s
  | .migrationTrigger p why how => Sys2Proof.Machine.execMigrationTrigger p why how s
  | .crossCheckCompare sec flips how => Sys2Proof.Machine.execCrossCheckCompare sec flips how s
  | .tileHardFailure p => Sys2Proof.Machine.execTileHardFailure p s
  | .cadastreFlashWrite sec => Sys2Proof.Machine.execCadastreFlashWrite sec s
  | .tilCoreFaultWrite a v => Sys2Proof.Machine.execTilCoreFaultWrite a v s
  | .trapUnhandled a cause tval => Sys2Proof.Machine.execTrapUnhandled a cause tval s
  | .secctlWatchdog sec imageOk busy => Sys2Proof.Machine.execSecctlWatchdog sec imageOk busy s
  | .gafferWatchdog => Sys2Proof.Machine.execGafferWatchdog s
  | .lockstepMismatch pair => Sys2Proof.Machine.execLockstepMismatch pair s
  | .gafferRestartEnd => Sys2Proof.Machine.execGafferRestartEnd s
  | .gafferRestartTimeout => Sys2Proof.Machine.execGafferRestartTimeout s
  | .sectorResetComplete sec => Sys2Proof.Machine.execSectorResetComplete sec s
  | .sectorTrainingFail sec ch => Sys2Proof.Machine.execSectorTrainingFail sec ch s
  | .perstAssert => Sys2Proof.Machine.execPerstAssert s
  | .hotReset => Sys2Proof.Machine.execHotReset s
  | .perstRelease => Sys2Proof.Machine.execPerstRelease s
  | .abortIn => Sys2Proof.Machine.execAbortIn s
  | .synPortDown p => Sys2Proof.Machine.execSynPortDown p s
  | .timeLost => Sys2Proof.Machine.execTimeLost s
  | .auxPowerUp => Sys2Proof.Machine.execAuxPowerUp s
  | .auxPowerLoss => Sys2Proof.Machine.execAuxPowerLoss s
  | .sectorTrainingDone sec failures => Sys2Proof.Machine.execSectorTrainingDone sec failures s
  | .releaseWave tests => Sys2Proof.Machine.execReleaseWave tests s
  | .trainMemory => Sys2Proof.Machine.execTrainMemory s
  | .releaseTiles => Sys2Proof.Machine.execReleaseTiles s
  | .fetchImages => Sys2Proof.Machine.execFetchImages s
  | .trainPorts => Sys2Proof.Machine.execTrainPorts s
  | .finish => Sys2Proof.Machine.execFinish s
  | .seqStepEnd tests failed => Sys2Proof.Machine.execSeqStepEnd tests failed s
  | .fwPromotion => Sys2Proof.Machine.execFwPromotion s
  | .profilePinSample pins => Sys2Proof.Machine.execProfilePinSample pins s
  | .powerCapStep watts => Sys2Proof.Machine.execPowerCapStep watts s
  | .pwrbrkAssert => Sys2Proof.Machine.execPwrbrkAssert s
  | .pwrbrkRelease => Sys2Proof.Machine.execPwrbrkRelease s
  | .thermalSample readings => Sys2Proof.Machine.execThermalSample readings s
  | .droopTrip p cycles => Sys2Proof.Machine.execDroopTrip p cycles s
  | .droopReview p => Sys2Proof.Machine.execDroopReview p s
  | .railFault r => Sys2Proof.Machine.execRailFault r s
  | .mainRailsUp => Sys2Proof.Machine.execMainRailsUp s
  | .registerWrite g t v events => Sys2Proof.Machine.execRegisterWrite g t v events s
  | .readToClear g t event rd => Sys2Proof.Machine.execReadToClear g t event rd s
  | .sectorHw sec => Sys2Proof.Machine.execSectorHw sec s
  | .fabricDomain sec => Sys2Proof.Machine.execFabricDomain sec s
  | .ioDie d => Sys2Proof.Machine.execIoDie d s
  | .tackSend cls node => Sys2Proof.Machine.execTackSend cls node s
  | .abortInRelease => Sys2Proof.Machine.execAbortInRelease s
  | .meipInterrupt c => Sys2Proof.Machine.execMeipInterrupt c s
  | .mret a => Sys2Proof.Machine.execMret a s
  | .wfi a => Sys2Proof.Machine.execWfi a s
  | .tilAtomResLoLoad a rd => Sys2Proof.Machine.execTilAtomResLoLoad a rd s

end Sys2Proof.Machine
end

