-- ==== Sys2Proof/Safety.lean ====
section
/-! DEFINITION. What counts as a safe run of the block, and the terms in which its statements are made. -/
namespace Sys2Proof

/-- An outcome is a next state. -/
def Completes {σ φ ρ : Type} (o : Host.Outcome σ φ ρ) : Prop := ∃ s, o = .next s

/-- `k` steps from `s` all answer a next state. -/
def SafeFor (k : Nat) (s : Machine.State) : Prop := ∃ t, ({ core with reset := s }).run k s = .next t

end Sys2Proof

namespace Sys2Proof.Machine

/-- A device address outside the holes between the tiles' scratchpads (01 Table 1.12). -/
abbrev populated (x : Nat) : Prop := x < spadBase ∨ (x - spadBase) % 0x400000 < 0x300000

/-- A control packet that waits behind the other packets at the router of a logical tile. -/
def atSource (s : State) (t : Nat) (p : CtlPacket) : Transit :=
  { net := .control, at_ := (s.transOf t).phys, pkt := .control p }

/-- The state with the order of GO emptied: its only request has been taken. -/
def popped (s : State) : State := s.modDelash fun d => { d with order := [] }

/-- A source's request is the only one that waits, carries the opcode, is no poll, and passes every
check of 09 Table 9.8, no long operation being in progress on its context. -/
abbrev Fronts (s : State) (src : Src) (opcode : Nat) (req : List Byte) : Prop :=
  s.delash.order = [src] ∧ s.request src = some req ∧ rqOpcode req = opcode ∧ rqPoll req = false ∧
  s.gafferUp = true ∧ s.checkRequest src req = none ∧
  (opcode ≠ 0x0202 → opcode ≠ 0x0203 → (rqCtx req).all (fun k => !s.ctxBusy k) = true)

/-- The response to a request stands where its source reads it: in the mailbox, with STATE DONE, or at
the MCTP endpoint (09 R328, R327). -/
def Replied (t : State) (src : Src) (req : List Byte) (status : Nat) (payload : List Byte) : Prop :=
  match src with
  | .mailbox f => (t.mailbox f).state = 2 ∧ (t.mailbox f).done = true ∧ (t.mailbox f).buf = none ∧
      (t.mailbox f).rsp = fit 256 (response req status payload)
  | .bmc => .mctpResponse (response req status payload) ∈ t.out ∧ t.delash.bmcBuf = none

/-- The state with a request taken and answered. -/
def answered (s : State) (src : Src) (status : Nat) (payload : List Byte) : State :=
  (popped s).answer src status payload

/-- The descriptor is at the front of its queue and not dispatched. -/
abbrev Undispatched (s : State) (f : FnId) (slot : SlotId) (id type : Nat) (d : Desc) : Prop :=
  s.desc f slot id = some d ∧ d.id = id ∧ d.type = type ∧ d.dispatched = false ∧
  (s.queue f slot).reaches id = true

/-- The state with a completion record of a descriptor written (10 Table 10.5, R357). -/
abbrev Completed (s t : State) (f : FnId) (slot : SlotId) (d : Desc) (status : Nat) : Prop :=
  t.desc f slot d.id = none ∧ (t.queue f slot).unreturned = (s.queue f slot).unreturned + 1 ∧
  ∃ a rec', .hostWrite f.val a rec' ∈ t.out ∧
    a = (s.queue f slot).cqAddr + BitVec.ofNat 64 (32 * (s.queue f slot).cqTail) ∧
    rec'.length = 32 ∧ field rec' 0 2 = d.tag ∧ field rec' 2 1 = status

/-- Nothing is in flight in a core's tile. -/
abbrev QuietTile (s : State) (c : Nat) : Prop := ∀ c', tileOf c' = tileOf c → (s.core c').btx = []

/-- Which plan a tensor instruction follows at issue, by its command. -/
def tensorPlan (c : Instr) (s : State) : Plan :=
  match c with
  | .tmm a w => s.planTmm a.core w
  | .acmInit a w => s.planInit a.core w
  | .acmStore a w => s.planStore a.core w
  | .vred a w => s.planVred a.core w
  | .vcvt a w => s.planVcvt a.core w
  | _ => .nothing

/-- The five tensor instructions and where they stand. -/
def tensorAt : Instr → Option (At × Word)
  | .tmm a w | .acmInit a w | .acmStore a w | .vred a w | .vcvt a w => some (a, w)
  | _ => none

/-- The instruction in flight that an issue at `a` makes. -/
def issued (s : State) (a : At) (op : BtxOp) (d1 d2 d3 : BitVec 128) : InFlight :=
  { id := (s.core a.core).nextBtx, op, td1 := d1, td2 := d2, td3 := d3
    srseq := (s.core a.core).srseq }

/-- The control packet that carries a tuple of binding `i` of core `c` of context `k` (04 R146, 06
Tables 6.2 and 6.5): its fields are read back from the packet that the send posts. -/
abbrev isTuple (s : State) (c k i : Nat) (cmd : Word) (p : CtlPacket) : Prop :=
  let w := ((s.core c).binding i).word
  p.route.destTile.toNat = bindDest w / 16 ∧ p.route.ctx.toNat = k ∧ p.route.gen = (s.ctx k).gen ∧
  hdrCore p = bindDest w ∧ hdrKind p = 0 ∧ (entryOf p).src = c ∧ (entryOf p).bind = i ∧
  (entryOf p).seq = ((s.core c).binding i).nextSeq ∧ (entryOf p).nw = txNw cmd ∧
  bits p.header.toNat 36 33 = bindQueue w ∧
  (entryOf p).port.toNat = bindPort w ∧ (entryOf p).param.toNat = bindParam w ∧
  (entryOf p).tag.toNat = cmd.toNat / 2 ^ 16 ∧
  (entryOf p).words = (List.range (txNw cmd)).map fun j => Tab.get 0 (s.core c).txData j

/-- The order in which ready entries fire (05 R167): the moment of readiness, then the actor, then
the tag. -/
abbrev firesBefore (a b : MsEntry) : Prop :=
  a.ready.getD 0 < b.ready.getD 0 ∨ (a.ready.getD 0 = b.ready.getD 0 ∧
    (a.actor < b.actor ∨ (a.actor = b.actor ∧ a.tag.toNat ≤ b.tag.toNat)))

/-- The state of a context that a probe round finds stuck (05 R185): no progress and every core blocked from
`t0` on, for T_Q, with a core in a full wait. -/
abbrev Stuck (s : State) (k : Nat) (t0 : DWord) : Prop :=
  (s.ctx k).st = .running ∧ (s.ctx k).placed = true ∧ (s.ctx k).progressed = false ∧
  (∀ c ∈ s.listedCores k, (s.core c).prog = false ∧ s.coreBlocked c = true) ∧
  (∃ c ∈ s.listedCores k, s.coreFull c = true) ∧ (s.ctx k).probeSince = some t0 ∧
  t0.toNat + (s.ctx k).quiesceUs * 1000 ≤ s.deviceTime.toNat

/-- The packets that wait at the local ports of a router. -/
def waitingAt (s : State) (net : Net) (p : Nat) : List Transit :=
  s.net.sources.filter fun x => x.net == net && x.at_ == p

/-- May a packet leave a router on an output now: the link is in the port set, no STARVE bars it, and the input
slot at its far end is empty (06 R202, R203, R207)? -/
def outputOpen (s : State) (net : Net) (p : Nat) (d : Dir) : Bool :=
  s.linkOk net p d && !(s.barred net p).contains d && s.slotFree net p d

/-- May a header leave a router on an output: the link is in the port set and no STARVE bars it (06 R203, R204, R207)?
What stands in the slot at its far end leaves it in the same cycle (log 30). -/
def outputTakes (s : State) (net : Net) (p : Nat) (d : Dir) : Bool :=
  s.linkOk net p d && !(s.barred net p).contains d

/-- The acknowledgement that a sector store posts from its port to place `i` of engine `e` (07 R250, Table 7.5). -/
abbrev IsStoreAck (s : State) (x : Transit) (a e i n status : Nat) : Prop :=
  x.net = .control ∧ x.at_ = portTile (s.homeSector a) (portOf a) ∧ x.port = 2 ∧
  ∃ c, x.pkt = .control c ∧ hdrKind c = 5 ∧ bits c.header.toNat 9 7 = 0 ∧ bits c.header.toNat 14 10 = e ∧
    bits c.header.toNat 15 15 = i ∧ bits c.header.toNat 29 26 = status ∧ ackBytes c.header.toNat = n ∧
    c.route.memPort = true

/-- A line comes to stand first in its set, dirty when the access writes or it was; of more than 16 the one that was
used least recently, the last, leaves; no other set changes (07 R240). -/
abbrev LineUsed (s t : State) (l : Nat) (write : Bool) : Prop :=
  let ls := Tab.get [] s.caches (cacheKey l)
  let used : CacheLine := ⟨l / 128, write || (ls.find? (·.line == l / 128)).any (·.dirty)⟩
  Tab.get [] t.caches (cacheKey l) = (used :: ls.filter fun c => c.line != l / 128).take 16 ∧
  ∀ k, k ≠ cacheKey l → Tab.get [] t.caches k = Tab.get [] s.caches k

/-- A DMA or TILEFEED descriptor that its context may dispatch now takes place `i` of engine `e`, which has
requests to spare (07 R247, R248; 10 R360). -/
abbrev TakesPlace (s : State) (f : FnId) (slot : SlotId) (id type : Nat) (d : Desc) (e i : Nat) : Prop :=
  s.desc f slot id = some d ∧ d.id = id ∧ d.type = type ∧ d.dispatched = false ∧
  (s.ctx (s.queue f slot).ctx).st = .running ∧ (s.queue f slot).reaches id = true ∧
  s.freePlace (s.engineSector (s.queue f slot).ctx d) = some (e, i) ∧ e < 32 ∧ i < 2 ∧ s.outstanding e < 64

/-- A place whose last row or strip has all its requests sent and waits for one acknowledgement. -/
abbrev LastAckDue (s : State) (e i : Nat) (f j id : Nat) (d : Desc) (n : Nat) : Prop :=
  (s.place e i).desc = some (f, j, id) ∧ s.desc f j id = some d ∧ d.id = id ∧ d.dispatched = true ∧
  (s.place e i).rowsDone = false ∧ (s.place e i).paused = false ∧ (s.place e i).status = stOk ∧
  (s.place e i).reads = [] ∧ (s.place e i).writes = [1] ∧ (s.place e i).readAcks = 0 ∧
  (s.place e i).unacked = n ∧ (s.place e i).waiting = none ∧ (s.place e i).row + 1 = rowCount d ∧
  (s.jobPackets e i d).length ≤ (s.place e i).pkt

/-- An acknowledgement with status OK of `n` bytes at a place of an engine (07 R250, Table 7.5). -/
abbrev IsAck (s : State) (p : CtlPacket) (e i n : Nat) : Prop :=
  s.fate p.route = .deliver ∧ hdrKind p = 5 ∧ bits p.header.toNat 9 7 = 0 ∧
  bits p.header.toNat 29 26 = stOk ∧ bits p.header.toNat 14 10 = e ∧ bits p.header.toNat 15 15 = i ∧
  ackBytes p.header.toNat = n

/-- The bytes that posted WRITEs carry, in order, each with the address it is bound for. -/
def carried (xs : List Transit) : List (Nat × Byte) :=
  xs.flatMap fun x => match x.pkt with
    | .bulk b => (List.range b.data.length).map fun j => (b.addr.toNat + j, b.data.getD j 0)
    | .control _ => []

/-- The command of a store to TIL_ATOM_CMD with an OP (07 Table 7.8). -/
def atomInstr (a : At) (v : Word) : Nat → Instr
  | 0 => .atomFadd a v | 1 => .atomCswap a v | 2 => .atomSmin a v | 3 => .atomSmax a v
  | 4 => .atomUmin a v | 5 => .atomUmax a v | 6 => .atomClaim a v | _ => .atomCommit a v

/-- An ATOM_RSP to a core: its toggle, STATUS and result (07 Table 7.5). -/
abbrev IsAtomRsp (x : Transit) (core : Nat) (tgl : Bool) (status res : Nat) : Prop :=
  x.net = .control ∧ x.port = 2 ∧ ∃ c, x.pkt = .control c ∧ hdrKind c = 5 ∧ bits c.header.toNat 9 7 = 3 ∧
    rqCore c.header.toNat = core ∧ rqTgl c.header.toNat = tgl ∧ bits c.header.toNat 27 24 = status ∧
    c.word0.toNat + 2 ^ 32 * c.word1.toNat = res ∧ c.route.destTile.toNat = tileOf core

/-- A new request of a core at its home sector store: current, with a toggle that is not its replay entry's. -/
abbrev NewRequest (s : State) (p : CtlPacket) : Prop :=
  s.fate p.route = .deliver ∧ hdrKind p = 5 ∧ ∀ r ∈ s.replay,
    r.1 = sectorOfTile p.route.destTile.toNat * 8192 + rqCore p.header.toNat → r.2.tgl ≠ rqTgl p.header.toNat

/-- The request was performed: its result and status stand in the core's replay entry, and one response with them
was posted (07 R257, R260). -/
abbrev AtomAnswered (s t : State) (p : CtlPacket) (status res : Nat) : Prop :=
  (let e := Tab.get {} t.replay (sectorOfTile p.route.destTile.toNat * 8192 + rqCore p.header.toNat)
   e.res.toNat = res ∧ e.status.toNat = status ∧ e.tgl = rqTgl p.header.toNat) ∧
  ∃ x, t.net.sources = (s.takeCtl p).net.sources ++ [x] ∧
    IsAtomRsp x (rqCore p.header.toNat) (rqTgl p.header.toNat) status res

/-- The command of a COLLECTIVE descriptor with an OP (08 Table 8.8). -/
def colInstr (f : FnId) (slot : SlotId) (id : Nat) : Nat → Instr
  | 1 => .allreduce f slot id | 2 => .reduceScatter f slot id | 3 => .allgather f slot id
  | 4 => .broadcast f slot id | 5 => .putRemote f slot id | 6 => .getRemote f slot id
  | _ => .collectiveBarrier f slot id

/-- A COLLECTIVE descriptor whose turn has come, in a group of its context, with work to do and no
poisoned source (08 R305 to R307). -/
abbrev ColReady (s : State) (f : FnId) (slot : SlotId) (id : Nat) (d : Desc) (g : ColGroup) : Prop :=
  s.desc f slot id = some d ∧ d.id = id ∧ d.type = 4 ∧ d.dispatched = false ∧
  (s.queue f slot).reaches id = true ∧ s.fabric.running.length < 8 ∧
  s.colGroup (clGroup d) = some g ∧ s.colOk (s.queue f slot).ctx d g = true ∧ clCount d ≠ 0 ∧
  s.isPoisoned (clSrc d) (clBytes d) = false

/-- The state in which a packet for this module that its flow accepts has left its port's buffers. -/
abbrev tookIn (s : State) (p : PortId) (k : LinkPacket) : State :=
  ((s.acceptSeq k).2.takeArrived p k).modFabric fun x => { x with fullSeen := x.fullSeen.erase k }

/-- A COL_DATA packet for this module that its flow accepts (08 R294). -/
abbrev ColArrives (s : State) (k : LinkPacket) : Prop :=
  k.trailer = lpCheck k ∧ k.cls = 2 ∧ rtLocal (s.route k.dest) = true ∧
  ((s.rxFlow k).isSome = true ∨ s.flowRoom = true) ∧ (s.acceptSeq k).1 = true

/-- No packet of a context is in the on-die networks. -/
abbrev NetworkQuiet (s : State) (k : Nat) : Prop :=
  (∀ x ∈ s.net.slots ++ s.net.sources, ofCtx k x.pkt = false) ∧
  (∀ p ∈ s.net.ejected, p.route.ctx.toNat ≠ k) ∧ (∀ p ∈ s.net.ejectedBulk, p.route.ctx.toNat ≠ k)

/-- A self-test run with its failing slices and its response begins or ends (11 R394, R418; 14 R487; 09 R331). One of four
slices, which takes 12 ms, or one that waits for its tile to cool answers PENDING, with a SPARE in LEHR and the
compute domain powered until it ends; any other answers at once. -/
def BistAnswers (s t : State) (src : Src) (req : List Byte) (p fails : Nat) (response : List Byte) : Prop :=
  if popCount (BitVec.ofNat 4 (rq req 2 1)) = 4 ∨
      (2 ≤ (s.phy p).thermLevel ∧ BitVec.ofNat 4 (rq req 2 1) ≠ 0) then
    (∃ o ∈ t.delash.ops, o.work = .bist p fails ((s.phy p).cad == .spare) (s.phy p).powered response ∧
      o.final = none ∧ o.fn = srcFn src ∧ Replied t src req stPending (leBytes 2 o.id.toNat)) ∧
    t.phy p = { s.phy p with diag := some ((256 - rq req 3 1) % 256), powered := true
                             cad := if (s.phy p).cad = .spare then .lehr else (s.phy p).cad }
  else Replied t src req stOk response ∧
    t.phy p = { s.phy p with lbistFail := satAdd 0xFFFF (s.phy p).lbistFail fails }

/-- No sample of a block that has not ended is drawn on a logical tile (11 R410). -/
abbrev Drawn (s : State) (tl : Nat) : Prop :=
  ∀ c, c / 16 = tl → ∀ i ∈ (s.core c).btx, i.executed = true ∨ i.samples = []

/-- A visit that begins now: on a tile at thermal level 2 or 3 it waits (14 R487). -/
def visitOf (s : State) (p : Nat) : Visit := { waits := decide (2 ≤ (s.phy p).thermLevel) }

/-- The threshold of a migration trigger (11 R400): 16 corrected errors or 1,000 droop events of the tile
within 1 s, or a mismatch. -/
def Threshold (s : State) (p : PhysId) : Trigger → Prop
  | .eccCe n => 16 ≤ min n 1000 + ((s.phy p).ceTimes.filter fun t => decide (s.deviceTime.toNat ≤ t.toNat + 1000000000)).length
  | .droop => 1000 ≤ ((s.phy p).droopTimes.filter fun t => decide (s.deviceTime.toNat ≤ t.toNat + 1000000000)).length
  | .mismatch => (s.phy p).mismatchAt ≠ []

/-- The command of a sequencer step (13 Table 13.9). -/
def stepInstr : Nat → Instr
  | 1 => .trainMemory | 2 => .releaseTiles | 3 => .fetchImages | 4 => .trainPorts | _ => .finish

/-- The answer of a command with flash work: at once, or, when the work takes longer than 10 ms or waits for the
flash work of an earlier GO, PENDING with the final response kept for POLL (13 R454; 09 R331). -/
abbrev FlashAnswers (s t : State) (src : Src) (req : List Byte) (slow : Bool) (status : Nat) (p : List Byte) : Prop :=
  (slow = false → s.flashBusy = false → Replied t src req status p) ∧
  ((slow = true ∨ s.flashBusy = true) → ∃ o ∈ t.delash.ops, o.work = .flash status p ∧ o.final = none ∧
    o.fn = srcFn src ∧
    Replied t src req stPending (leBytes 2 o.id.toNat))

/-- The units of 2^(A - 88) of a term i * 2^e that needs no rounding. -/
def termUnits (anchor : BitVec 8) (t : Int × Int) : Int := t.1 * 2 ^ (t.2 - (anchor.toInt - 88)).toNat

end Sys2Proof.Machine
end

