-- ==== Sys2Proof/Certificates/Slice0/Obligations.lean ====
section
/-! DEFINITION. The statements for the provers. -/
open Sys2Proof Sys2Proof.Machine

/-- A step takes the command at the front of the queue, runs it on the state with the rest of the
queue and answers its outcome. With an empty queue the block idles and only device time moves (the
model's choice, log 22). -/
def Obligations.StepRunsTheFrontCommand : Prop :=
  (∀ (c : Instr) (rest : List Instr) (s : State),
    step { s with pending := c :: rest } = exec c { s with pending := rest }) ∧
  (∀ s : State, s.pending = [] → ∃ t, step s = .next t ∧
    t = { s with deviceTime := t.deviceTime, slewAhead := t.slewAhead, slewBack := t.slewBack
                 slewPhase := t.slewPhase })

/-- Every command answers a next state: no fault, no refusal. -/
def Obligations.EveryCommandAnswersANextState : Prop :=
  ∀ (c : Instr) (s : State), ∃ t, exec c s = .next t

/-- What the spec gives for reset (09 Tables 9.4 and 9.5; 10 R351; 08 Table 8.9): the Plumb registers
and mailboxes read zero, every context is FREE, every port DOWN, every core HALTED with its tensor
descriptors zero, no queue exists and device time is 0. That every core's pc is zero is the
model's choice (log 5), and so is that no command waits (log 22). -/
def Obligations.ResetLeavesTheBlockIdle : Prop :=
  State.reset.plumb.heartbeat = 0 ∧ State.reset.plumb.rev = 0 ∧ State.reset.plumb.alert = 0 ∧
  State.reset.plumb.alertEn = 0 ∧ State.reset.plumb.faultSeq = 0 ∧ State.reset.plumb.restarts = 0 ∧
  State.reset.plumb.outOfService = false ∧ State.reset.faults.modFault = false ∧
  State.reset.pending = [] ∧ State.reset.queues = [] ∧ State.reset.deviceTime = 0 ∧
  (∀ f : FnId, (State.reset.mailbox f).state = 0 ∧ State.reset.aperture f = {}) ∧
  (∀ k, (State.reset.ctx k).st = .free) ∧ (∀ p, (State.reset.port p).st = .down) ∧
  (∀ c, (State.reset.core c).run = .halted ∧ (State.reset.core c).pc = 0 ∧ (State.reset.core c).td = []) ∧
  (∀ t n, (State.reset.region t n).size = 0)

/-- The canonical form of the two byte memories holds at reset. -/
def Obligations.MemoryIsCanonicalAtReset : Prop :=
  Cells.wf State.reset.mem = true ∧ Cells.wf State.reset.priv = true

/-- Every step keeps the canonical form of the device memory and of the private memories: addresses
strictly rising and no cell that holds what an unlisted address reads as. -/
def Obligations.EveryStepKeepsMemoryCanonical : Prop :=
  ∀ (s t : State), Cells.wf s.mem = true → Cells.wf s.priv = true → step s = .next t →
    Cells.wf t.mem = true ∧ Cells.wf t.priv = true

/-- HEARTBEAT completes: the Delash service increments PLB_HEARTBEAT while PLB_GAFFER.STATE is RUNNING
or WAIT_HOST; in every other state it stands still (09 R322). -/
def Obligations.HeartbeatCountsWhileServed : Prop :=
  ∀ s : State,
    ((s.plumb.gaffer = .running ∨ s.plumb.gaffer = .waitHost) → ∃ t, exec .heartbeat s = .next t ∧
      t.plumb.heartbeat = s.plumb.heartbeat + 1 ∧
      t = { s with plumb := { s.plumb with heartbeat := t.plumb.heartbeat } }) ∧
    (s.plumb.gaffer ≠ .running → s.plumb.gaffer ≠ .waitHost → exec .heartbeat s = .next s)

/-- The addition of an EXACT element (02 R64), in units of 2^(A - 88): the true sum when it lies
within ± (2^127 - 1), otherwise the saturated value of its sign with OVERRANGE; a saturated
element may come back inside the range. -/
def Obligations.ExactAdditionSaturates : Prop :=
  ∀ (el : BitVec 128) (u : Int), el ≠ nanMarker →
    (-(2 ^ 127 - 1) ≤ el.toInt + u → el.toInt + u ≤ 2 ^ 127 - 1 →
      (exactAdd el u).1.toInt = el.toInt + u ∧ (exactAdd el u).2 = false) ∧
    (2 ^ 127 - 1 < el.toInt + u →
      (exactAdd el u).1 = 0x7FFFFFFFFFFFFFFFFFFFFFFFFFFFFFFF#128 ∧ (exactAdd el u).2 = true) ∧
    (el.toInt + u < -(2 ^ 127 - 1) →
      (exactAdd el u).1 = 0x80000000000000000000000000000001#128 ∧ (exactAdd el u).2 = true) ∧
    (∀ w : Int, 2 ^ 127 - 1 < el.toInt + u → w < 0 → -(2 ^ 127) < w →
      (exactAdd (exactAdd el u).1 w).1.toInt = 2 ^ 127 - 1 + w ∧ (exactAdd (exactAdd el u).1 w).2 = false)

/-- While no term is rounded and no sum saturates, an EXACT element is the exact sum of its terms, and
no flag is set, in whatever order they arrive (02 R66). -/
def Obligations.ExactSumsAreExactInAnyOrder : Prop :=
  ∀ (anchor : BitVec 8) (l l' : List (Int × Int)), l.Perm l' →
    (∀ t ∈ l, anchor.toInt - 88 ≤ t.2) →
    (∀ k, (((l'.take k).map (termUnits anchor)).sum).natAbs < 2 ^ 127) →
    (∀ t ∈ l, (termUnits anchor t).natAbs < 2 ^ 127) →
    l'.foldl (fun (a : BitVec 128 × AccFlags) (t : Int × Int) =>
        ((exactTerm anchor a.1 (.num t.1 t.2)).1, a.2.or (exactTerm anchor a.1 (.num t.1 t.2)).2))
      (0#128, {}) = (BitVec.ofInt 128 ((l.map (termUnits anchor)).sum), {})

/-- Rounding to nearest with ties to even (02 R52): of the multiples of 2^d the one chosen lies at
most half a unit away, and at exactly half a unit it is even. -/
def Obligations.RoundsToNearestEven : Prop :=
  ∀ (m d k n : Nat), 1 ≤ d → k = m / 2 ^ d → n = (if roundsUp .rne k (m % 2 ^ d) d then k + 1 else k) →
    2 * ((m : Int) - n * 2 ^ d).natAbs ≤ 2 ^ d ∧
      (2 * ((m : Int) - n * 2 ^ d).natAbs = 2 ^ d → n % 2 = 0)

/-- Every finite encoding of a floating-point element format converts to itself, whatever the rounding
(02 R44, R56, Table 2.4). -/
def Obligations.FiniteElementsConvertToThemselves : Prop :=
  ∀ (fmt : Nat) (f : FloatFmt) (r : Rounding) (v : Nat), floatFmt fmt = some f →
    v < 2 ^ (1 + f.ew + f.mw) → v % 2 ^ (f.mw + f.ew) ≤ f.maxCode →
    toFloat f r (decodeFloat f v) = (v, false)

/-- The TD group (03 R107): in a core that is free to issue, TD_LD reads 16 bytes of private memory
into a descriptor, TD_SETW replaces word w of it and TD_GETW reads word w; each of the three
completes, and nothing but that core changes. Bit 127 is reserved: a write of it is ignored (03
R82).

TD_SD completes (03 R107): the descriptor is stored, least significant word first, in 16 bytes of
the core's private memory; every other byte of every private memory reads as before, and beside
private memory only the core's own progress changes.

TD.LD and TD.SD at an address that is not 16-byte aligned, or aligned and outside private memory,
take the standard exception (03 R107): with a trap vector and outside a handler, the core enters
the handler with mepc at the instruction, and no descriptor, no memory and no other core changes.
The codes are those of RV32 (log 15); that an address both misaligned and outside private memory
takes the code of the misaligned one is the model's reading (log 19). -/
def Obligations.TensorDescriptorInstructions : Prop :=
  (∀ (a : At) (w : Word) (s : State), (s.core a.core).canIssue = true →
    bits w.toNat 6 0 = 0b0001011 → bits w.toNat 14 12 = 0 → bits w.toNat 24 24 = 0 →
    (bits w.toNat 31 25 = 0 → bits w.toNat 11 7 = 0 →
      ((s.core a.core).reg (bits w.toNat 19 15)).toNat % 16 = 0 →
      ((s.core a.core).reg (bits w.toNat 19 15)).toNat < 65536 →
      exec (.tdLd a w) s = .next (s.setCore a.core (Core.advance { s.core a.core with
        td := Tab.set (s.core a.core).td (bits w.toNat 23 20) (BitVec.ofNat 128 (leVal (s.readPrivBytes
          a.core ((s.core a.core).reg (bits w.toNat 19 15)).toNat 16) % 2 ^ 127)) } a.pc false))) ∧
    (∀ k, k < 4 → bits w.toNat 31 25 = 8 + k → bits w.toNat 11 7 = 0 →
      ∃ d : BitVec 128, exec (.tdSetw a w) s = .next (s.setCore a.core (Core.advance
          { s.core a.core with td := Tab.set (s.core a.core).td (bits w.toNat 23 20) d } a.pc false)) ∧
        d.getLsbD 127 = false ∧
        (∀ b, b < 32 → 32 * k + b < 127 →
          d.getLsbD (32 * k + b) = ((s.core a.core).reg (bits w.toNat 19 15)).getLsbD b) ∧
        ∀ b, b < 127 → b / 32 ≠ k →
          d.getLsbD b = (Tab.get 0 (s.core a.core).td (bits w.toNat 23 20)).getLsbD b) ∧
    (∀ k, k < 4 → bits w.toNat 31 25 = 12 + k → bits w.toNat 19 15 = 0 →
      exec (.tdGetw a w) s = .next (s.setCore a.core (((s.core a.core).setReg (bits w.toNat 11 7)
        ((Tab.get 0 (s.core a.core).td (bits w.toNat 23 20)).extractLsb' (32 * k) 32)).advance a.pc false)))) ∧
  (∀ (a : At) (w : Word) (s : State), (s.core a.core).canIssue = true → Cells.wf s.priv = true →
    bits w.toNat 6 0 = 0b0001011 → bits w.toNat 14 12 = 0 → bits w.toNat 24 24 = 0 →
    bits w.toNat 31 25 = 1 → bits w.toNat 11 7 = 0 →
    ((s.core a.core).reg (bits w.toNat 19 15)).toNat % 16 = 0 →
    ((s.core a.core).reg (bits w.toNat 19 15)).toNat < 65536 →
    ∃ t, exec (.tdSd a w) s = .next t ∧
      t = { s with cores := Tab.set s.cores a.core ((s.core a.core).advance a.pc false)
                   priv := t.priv, privPz := t.privPz } ∧
      t.readPrivBytes a.core ((s.core a.core).reg (bits w.toNat 19 15)).toNat 16
        = leBytes 16 (Tab.get 0 (s.core a.core).td (bits w.toNat 23 20)).toNat ∧
      ∀ c off, c < 8192 → off < 65536 →
        (c ≠ a.core.val ∨ off < ((s.core a.core).reg (bits w.toNat 19 15)).toNat ∨
          ((s.core a.core).reg (bits w.toNat 19 15)).toNat + 16 ≤ off) →
        t.readPriv c off = s.readPriv c off) ∧
  (∀ (a : At) (w : Word) (s : State), (s.core a.core).canIssue = true →
    4 ≤ (s.core a.core).csr.mtvec.toNat → (s.core a.core).inTrap = false →
    bits w.toNat 6 0 = 0b0001011 → bits w.toNat 14 12 = 0 → bits w.toNat 24 24 = 0 →
    bits w.toNat 11 7 = 0 →
    (bits w.toNat 31 25 = 0 →
      (((s.core a.core).reg (bits w.toNat 19 15)).toNat % 16 ≠ 0 →
        exec (.tdLd a w) s = .next (s.setCore a.core ((s.core a.core).enterTrap a.pc 4
          ((s.core a.core).reg (bits w.toNat 19 15))))) ∧
      (((s.core a.core).reg (bits w.toNat 19 15)).toNat % 16 = 0 →
        65536 ≤ ((s.core a.core).reg (bits w.toNat 19 15)).toNat →
        exec (.tdLd a w) s = .next (s.setCore a.core ((s.core a.core).enterTrap a.pc 5
          ((s.core a.core).reg (bits w.toNat 19 15)))))) ∧
    (bits w.toNat 31 25 = 1 →
      (((s.core a.core).reg (bits w.toNat 19 15)).toNat % 16 ≠ 0 →
        exec (.tdSd a w) s = .next (s.setCore a.core ((s.core a.core).enterTrap a.pc 6
          ((s.core a.core).reg (bits w.toNat 19 15))))) ∧
      (((s.core a.core).reg (bits w.toNat 19 15)).toNat % 16 = 0 →
        65536 ≤ ((s.core a.core).reg (bits w.toNat 19 15)).toNat →
        exec (.tdSd a w) s = .next (s.setCore a.core ((s.core a.core).enterTrap a.pc 7
          ((s.core a.core).reg (bits w.toNat 19 15)))))))

/-- TFENCE, TSTAT_SLOT and TSTAT_PIPE complete (03 R105, R106, Table 3.13): TFENCE goes on when no
in-flight instruction targets a masked slot or, with bit 15, uses the scratchpad, and otherwise
holds the scalar unit; TSTAT.SLOT writes the slot's state word to rd when nothing that targets the
slot is in flight, and otherwise holds it; TSTAT.PIPE never waits. Nothing but the core changes.

BTX_RETIRE and BTX_HELD_ISSUE complete (03 R88, R110): an executed instruction leaves the
in-flight list of its core, unless the core is drained, and no other leaves it; a held instruction
that passes its checks goes in flight once fewer than 8 are, and the scalar unit goes on after it. -/
def Obligations.SyncAndRetire : Prop :=
  (∀ (a : At) (w : Word) (s : State), (s.core a.core).canIssue = true →
    bits w.toNat 6 0 = 0b0001011 →
    (∀ i ∈ (s.core a.core).btx, i.id < (s.core a.core).nextBtx) →
    (bits w.toNat 14 12 = 5 → bits w.toNat 11 7 = 0 →
      ((∀ i ∈ (s.core a.core).btx, (∀ k ∈ i.targets, w.getLsbD (16 + k) = false) ∧
          (w.getLsbD 15 = true → i.uses = [])) →
        exec (.tfence a w) s = .next (s.setCore a.core ((s.core a.core).advance a.pc false))) ∧
      ((∃ i ∈ (s.core a.core).btx, (∃ k ∈ i.targets, k < 16 ∧ w.getLsbD (16 + k) = true) ∨
          (w.getLsbD 15 = true ∧ i.uses ≠ [])) →
        exec (.tfence a w) s = .next (s.setCore a.core ((s.core a.core).hold a.pc false
          (.tfence (BitVec.ofNat 16 (bits w.toNat 31 16)) (w.getLsbD 15) (s.core a.core).nextBtx))))) ∧
    (bits w.toNat 14 12 = 6 → bits w.toNat 31 24 = 0 → bits w.toNat 19 15 = 0 →
      ((∀ i ∈ (s.core a.core).btx, bits w.toNat 23 20 ∉ i.targets) →
        exec (.tstatSlot a w) s = .next (s.setCore a.core (((s.core a.core).setReg (bits w.toNat 11 7)
          (s.slot a.core (bits w.toNat 23 20)).word).advance a.pc false))) ∧
      ((∃ i ∈ (s.core a.core).btx, bits w.toNat 23 20 ∈ i.targets) →
        exec (.tstatSlot a w) s = .next (s.setCore a.core ((s.core a.core).hold a.pc false
          (.tstatSlot (bits w.toNat 23 20) (bits w.toNat 11 7) (s.core a.core).nextBtx))))) ∧
    (bits w.toNat 14 12 = 6 → bits w.toNat 31 25 = 1 → bits w.toNat 24 15 = 0 →
      ∃ v : Word, exec (.tstatPipe a w) s = .next (s.setCore a.core (((s.core a.core).setReg
          (bits w.toNat 11 7) v).advance a.pc false)) ∧
        ((s.core a.core).btx.length ≤ 8 → bits v.toNat 3 0 = (s.core a.core).btx.length ∧
          ∀ k, k < 16 → v.getLsbD (16 + k) = (s.core a.core).btx.any (·.targets.contains k)))) ∧
  ((∀ (c : CoreId) (id : Nat) (s : State) (i : InFlight), (s.core c).run ≠ .drained →
    (s.core c).btx.find? (·.id == id) = some i → i.executed = true →
    ∃ t, exec (.btxRetire c id) s = .next t ∧
      (t.core c).btx.map (·.id) = ((s.core c).btx.map (·.id)).filter (· != id) ∧
      t.priv = s.priv ∧ t.ctxs = s.ctxs ∧ t.net = s.net ∧
      ∀ c', c' ≠ c.val → t.core c' = s.core c') ∧
  (∀ (c : CoreId) (s : State) (w : Word) (op : BtxOp)
    (d1 d2 d3 : BitVec 128) (sr : Bool), (s.core c).run = .running →
    (s.core c).wait = some (.btxIssue w) → (s.core c).btx.length < 8 →
    s.planWord c w = .go op d1 d2 d3 sr →
    ∃ t, exec (.btxHeldIssue c) s = .next t ∧ (t.core c).wait = none ∧
      (t.core c).pc = (s.core c).pc + 4 ∧
      (t.core c).btx.map (·.id) = (s.core c).btx.map (·.id) ++ [(s.core c).nextBtx] ∧
      ∀ c', c' ≠ c.val → t.core c' = s.core c'))

/-- A TMM, ACM_INIT, ACM_STORE, VRED or VCVT that passes its issue checks completes its issue: it goes
in flight behind the instructions in flight, takes the next rounding sequence number where it
rounds stochastically, and the scalar unit goes on at once, whatever is in flight before it, up to
seven (03 R110, 02 R54).

A tensor instruction that fails an issue check with one descriptor or slot to name raises the BTX
fault of Table 3.15: the handler is entered with mcause 24 and mtval holding the code and WHICH,
and nothing is executed; zero work retires at once; a ninth in flight holds the scalar unit (03
R108 to R110), before its issue checks but for its encoding: that order is the model's choice (log
23). -/
def Obligations.TensorIssue : Prop :=
  (∀ (c : Instr) (a : At) (w : Word) (s : State) (op : BtxOp) (d1 d2 d3 : BitVec 128) (sr : Bool),
    tensorAt c = some (a, w) → (s.core a.core).canIssue = true → (s.core a.core).btx.length < 8 →
    tensorPlan c s = .go op d1 d2 d3 sr →
    ∃ t, exec c s = .next t ∧ (t.core a.core).pc = a.pc + 4 ∧ (t.core a.core).wait = none ∧
      (t.core a.core).run = .running ∧ (t.core a.core).nextBtx = (s.core a.core).nextBtx + 1 ∧
      (t.core a.core).btx.map (·.id) = (s.core a.core).btx.map (·.id) ++ [(s.core a.core).nextBtx] ∧
      (t.core a.core).srseq = (s.core a.core).srseq + (if sr then 1 else 0) ∧
      (t.core a.core).x = (s.core a.core).x ∧ (t.core a.core).td = (s.core a.core).td ∧
      (∀ c', c' ≠ a.core.val → t.core c' = s.core c') ∧ t.priv = s.priv ∧ t.net = s.net ∧
      t.ctxs = s.ctxs ∧ t.queues = s.queues ∧ t.deviceTime = s.deviceTime) ∧
  (∀ (c : Instr) (a : At) (w : Word) (s : State), tensorAt c = some (a, w) →
    (s.core a.core).canIssue = true →
    ((s.core a.core).btx.length < 8 → tensorPlan c s = .nothing →
      exec c s = .next (s.setCore a.core ((s.core a.core).advance a.pc false))) ∧
    (∀ code k, (s.core a.core).btx.length < 8 → tensorPlan c s = .fault code [k] →
      4 ≤ (s.core a.core).csr.mtvec.toNat → (s.core a.core).inTrap = false →
      ∃ t, exec c s = .next t ∧ t = { s with cores := t.cores, freeCtr := t.freeCtr } ∧
        t.cores = Tab.set s.cores a.core
          ((s.core a.core).enterTrap a.pc 24 (BitVec.ofNat 32 (code + 256 * k)))) ∧
    (8 ≤ (s.core a.core).btx.length → tensorPlan c s ≠ .illegal →
      exec c s = .next (s.setCore a.core ((s.core a.core).hold a.pc false (.btxIssue w)))))

/-- With nothing in flight in the tile, TMM, ACM_STORE, VRED and VCVT complete: where every streamed
descriptor's claim is granted at its request they take effect at issue, with each operand at its
descriptor's BASE or at its claim's start: memory and the accumulator slots become what the
instruction's own operation makes of them (03 R88, R93, R102 to R104, R111), a TMM's while its
sector draws no cross-check sample. Their random bits use srseq as it stands before the
instruction's own advance: the model's choice (log 23).

ACM_INIT completes with nothing in flight (03 R101, 02 R60): every element of the slot reads zero,
its ANCHOR is IMM plus the low byte of rs1, its MODE and flags are clear; every other slot of
every core and the scratchpad stay. -/
def Obligations.TensorEffects : Prop :=
  (∀ (c : Instr) (a : At) (w : Word) (s s' : State) (op : BtxOp) (d1 d2 d3 : BitVec 128) (sr : Bool)
    (ks : List ClaimRef) (bs : List Nat),
    c = .acmStore a w ∨ c = .vred a w ∨ c = .vcvt a w ∨
      c = .tmm a w ∧ s.crossCheckRuns (sectorOfCore a.core) = false → (s.core a.core).canIssue = true →
    QuietTile s a.core → tensorPlan c s = .go op d1 d2 d3 sr →
    s.claimStreams a.core (s.core a.core).nextBtx (issued s a op d1 d2 d3).batch (issued s a op d1 d2 d3).uses
      = (ks, s') →
    bases s' (issued s a op d1 d2 d3).uses ks = bs.map some →
    ∃ t, exec c s = .next t ∧
      (let u := s'.runOp a.core (issued s a op d1 d2 d3) bs
      t = { u with cores := t.cores }) ∧
      (t.core a.core).btx = [{ issued s a op d1 d2 d3 with claims := ks, executed := true }] ∧
      ∀ c', c' ≠ a.core.val → t.core c' = s.core c') ∧
  (∀ (a : At) (w : Word) (s : State), (s.core a.core).canIssue = true → (s.core a.core).btx = [] →
    bits w.toNat 6 0 = 0b0001011 → bits w.toNat 14 12 = 1 → bits w.toNat 11 7 = 0 →
    ∃ t, exec (.acmInit a w) s = .next t ∧
      t = { s with cores := t.cores, slots := t.slots, acmPz := t.acmPz } ∧
      t.slot a.core (bits w.toNat 23 20) = { anchor := BitVec.ofNat 8 (bits w.toNat 31 24)
        + ((s.core a.core).reg (bits w.toNat 19 15)).setWidth 8 } ∧
      (∀ c k, c < 8192 → k < 16 → (c ≠ a.core.val ∨ k ≠ bits w.toNat 23 20) → t.slot c k = s.slot c k) ∧
      (t.core a.core).pc = a.pc + 4)

/-- TMM with OUT = 0 and nothing in flight in the tile completes (03 R93, R94; 02 R62 to R73): element
(i, j) of the named slot becomes what the resolved mode accumulates, from the element before, over
the products of row i of A and column j of B in increasing k; the slot takes the mode and keeps
its anchor; the scratchpad and all private memories stay.

TMM with OUT = 1 and nothing in flight in the tile completes, its operands at BASE or at the start
of their granted claims (03 R88, R93, R94, R96, R111; 02 R56): of a result of one block, the
element in row i and column j of C becomes the sum from zero of the products of row i of A and
column j of B in increasing k, converted to C's format; nothing outside C's footprint changes, in
a result of any number of blocks and batch items; the slot takes the mode and keeps its anchor.
Its random bits use srseq as it stands before the instruction's own advance: the model's choice
(log 23).

A written element of an operand reads back, and the elements of the same row at other columns keep
their codes (03 R85, 02 R47), in a region that lies in its tile, whether or not the region wraps. -/
def Obligations.TmmAndElements : Prop :=
  (∀ (a : At) (w : Word) (s : State) (slot na nb nc : Nat)
    (mode : BitVec 3) (ctrl : Word) (d1 d2 d3 : BitVec 128) (sr : Bool),
    (s.core a.core).canIssue = true → QuietTile s a.core →
    s.planTmm a.core w = .go (.tmm slot mode false na nb nc ctrl) d1 d2 d3 sr →
    (TD.ofBits d1).stream = false → (TD.ofBits d2).stream = false → slot < 16 →
    ∃ t, exec (.tmm a w) s = .next t ∧
      (t.slot a.core slot).mode = mode ∧ (t.slot a.core slot).anchor = (s.slot a.core slot).anchor ∧
      (∀ i j, i < 16 → j < 16 → (t.slot a.core slot).elem (16 * i + j) =
        (accumulate mode (s.slot a.core slot).anchor ((TD.ofBits d1).mx || (TD.ofBits d2).mx)
          ((s.slot a.core slot).elem (16 * i + j))
          ((List.range (TD.ofBits d1).inner).map fun k =>
            ((TD.ofBits d1).codeVal (s.matCode (tileOf a.core) (TD.ofBits d1) (TD.ofBits d1).base 0 i k),
             (TD.ofBits d2).codeVal (s.matCode (tileOf a.core) (TD.ofBits d2) (TD.ofBits d2).base 0 j k)))).1) ∧
      t.mem = s.mem ∧ t.priv = s.priv ∧ t.tiles = s.tiles) ∧
  (∀ (a : At) (w : Word) (s s' : State) (slot na nb nc : Nat) (mode : BitVec 3) (ctrl : Word) (d1 d2 d3 : BitVec 128)
    (sr : Bool) (ks : List ClaimRef) (bs : List Nat),
    (s.core a.core).canIssue = true → QuietTile s a.core → s.crossCheckRuns (sectorOfCore a.core) = false →
    s.planTmm a.core w = .go (.tmm slot mode true na nb nc ctrl) d1 d2 d3 sr → slot < 16 →
    s.claimStreams a.core (s.core a.core).nextBtx (bits ctrl.toNat 15 0)
      [(TD.ofBits d1, false), (TD.ofBits d2, false), (TD.ofBits d3, true)] = (ks, s') →
    bases s' [(TD.ofBits d1, false), (TD.ofBits d2, false), (TD.ofBits d3, true)] ks = bs.map some →
    Cells.wf s.mem = true →
    (s.region (tileOf a.core) (TD.ofBits d3).region).base + (s.region (tileOf a.core) (TD.ofBits d3).region).size
      ≤ 786432 →
    ∃ t, exec (.tmm a w) s = .next t ∧ (t.core a.core).pc = a.pc + 4 ∧ t.priv = s.priv ∧
      (t.slot a.core slot).mode = mode ∧ (t.slot a.core slot).anchor = (s.slot a.core slot).anchor ∧
      (∀ x, populated x →
        (∀ iv ∈ (s.region (tileOf a.core) (TD.ofBits d3).region).interval (bs.getD 2 0)
            ((TD.ofBits d3).span (bits ctrl.toNat 15 0)),
          x < spadAddr (tileOf a.core) (4 * iv.1) ∨ spadAddr (tileOf a.core) (4 * iv.2) ≤ x) →
        t.readByte x = s.readByte x) ∧
      ((TD.ofBits d1).outer = 16 → (TD.ofBits d2).outer = 16 → bits ctrl.toNat 15 0 = 1 →
        ∀ i j, i < 16 → j < 16 →
        (let sum := (accumulate mode (s.slot a.core slot).anchor ((TD.ofBits d1).mx || (TD.ofBits d2).mx) 0
          ((List.range (TD.ofBits d1).inner).map fun k =>
            ((TD.ofBits d1).codeVal (s.matCode (tileOf a.core) (TD.ofBits d1) (bs.getD 0 0) 0 i k),
             (TD.ofBits d2).codeVal (s.matCode (tileOf a.core) (TD.ofBits d2) (bs.getD 1 0) 0 j k)))).1
        let code := (convert (TD.ofBits d3).fmt false
          (s.rounding a.core (ctrl.getLsbD 18) (s.core a.core).srseq (16 * i + j))
          (elemValue mode (s.slot a.core slot).anchor sum)).1
        t.readElem (tileOf a.core) (TD.ofBits d3) (bs.getD 2 0) 0
          (if (TD.ofBits d3).orient then j else i) (if (TD.ofBits d3).orient then i else j)
          = code % 2 ^ (TD.ofBits d3).width))) ∧
  (∀ (s : State) (t : Nat) (d : TD) (base b r c x : Nat), t < 512 → Cells.wf s.mem = true →
    (s.region t d.region).base + (s.region t d.region).size ≤ 786432 →
    d.width ∈ [4, 6, 8, 16, 32, 64] →
    base + b * d.batchStride + r * d.rowStride + d.rw ≤ (s.region t d.region).size → c < d.cols →
    (s.writeElem t d base b r c x).readElem t d base b r c = x % 2 ^ d.width ∧
    ∀ c', c' < d.cols → c' ≠ c →
      (s.writeElem t d base b r c x).readElem t d base b r c' = s.readElem t d base b r c')

/-- SCALAR_SPD_ACCESS completes (04 R127, R128) at a naturally aligned scratchpad address, in a core
that is free to issue. A load wholly within an enabled region that includes the core writes its
register, sign- or zero-extended, and changes nothing but the core; a store writes its bytes and
every other byte of the device reads as before; outside every such region the access fault is
taken and nothing is performed. Beside instructions in flight in the tile the access completes
too: a load with some value, and a store with the scalar unit going on (03 R112). The access fault
codes 5 and 7 are those of RV32 (log 15).

SCALAR_SPD_ATOMIC completes on an aligned scratchpad word that the core may use (04 R128): the old
word goes to rd and the result of the operation to memory in one step, every other byte reads as
before (beside instructions in flight in the tile the old word may be any value, 03 R112); lr.w
sets the core's reservation and sc.w stores and answers 0 exactly when the core still holds one on
the word, 1 otherwise, and drops it: the reservation is the model's reading of RV32 (log 19). -/
def Obligations.ScratchpadAccess : Prop :=
  (∀ (a : At) (w : Width) (sg : Bool) (addr : Word) (r : XReg) (s : State) (off n : Nat),
    (s.core a.core).canIssue = true → addr.toNat = 0x80000000 + off → n = widthBytes w →
    off + n ≤ 0x300000 → off % n = 0 →
    (s.coreReaches a.core off n = true → QuietTile s a.core →
      exec (.scalarSpdAccess a (.load w sg) addr r) s = .next (s.setCore a.core
        (((s.core a.core).setReg r (extend w sg (leVal (s.readBytes (spadAddr (tileOf a.core) off) n)))).advance
          a.pc a.short)) ∧
      (Cells.wf s.mem = true → ∃ t, exec (.scalarSpdAccess a (.store w) addr r) s = .next t ∧
        t.readBytes (spadAddr (tileOf a.core) off) n = leBytes n ((s.core a.core).reg r).toNat ∧
        (∀ x, populated x → x < spadAddr (tileOf a.core) off ∨ spadAddr (tileOf a.core) off + n ≤ x →
          t.readByte x = s.readByte x) ∧
        t.core a.core = (s.core a.core).advance a.pc a.short ∧ t.priv = s.priv)) ∧
    (s.coreReaches a.core off n = true →
      (∃ t, exec (.scalarSpdAccess a (.load w sg) addr r) s = .next t ∧
        t = { s with cores := t.cores, freeCtr := t.freeCtr } ∧ (t.core a.core).pc = a.pc + (if a.short then 2 else 4) ∧
        (∀ q, q ≠ r.val → (t.core a.core).reg q = (s.core a.core).reg q) ∧
        ∀ c', c' ≠ a.core.val → t.core c' = s.core c') ∧
      ∃ t, exec (.scalarSpdAccess a (.store w) addr r) s = .next t ∧
        t.cores = Tab.set s.cores a.core ((s.core a.core).advance a.pc a.short) ∧ t.priv = s.priv) ∧
    (s.coreReaches a.core off n = false → 4 ≤ (s.core a.core).csr.mtvec.toNat →
      (s.core a.core).inTrap = false →
      exec (.scalarSpdAccess a (.load w sg) addr r) s
        = .next (s.setCore a.core ((s.core a.core).enterTrap a.pc 5 addr)) ∧
      exec (.scalarSpdAccess a (.store w) addr r) s
        = .next (s.setCore a.core ((s.core a.core).enterTrap a.pc 7 addr)))) ∧
  (∀ (a : At) (op : AmoOp) (addr : Word) (rd rs2 : XReg) (s : State) (off : Nat),
    (s.core a.core).canIssue = true → addr.toNat = 0x80000000 + off → off + 4 ≤ 0x300000 →
    off % 4 = 0 → s.coreReaches a.core off 4 = true → Cells.wf s.mem = true →
    (∃ t, exec (.scalarSpdAtomic a op addr rd rs2) s = .next t ∧ t.priv = s.priv ∧
      (t.core a.core).pc = a.pc + (if a.short then 2 else 4)) ∧
    (QuietTile s a.core → ∃ t, exec (.scalarSpdAtomic a op addr rd rs2) s = .next t ∧
      (let old := s.readWord (tileOf a.core) (off / 4)
       let held := s.reserved a (off / 4)
       let v := (s.core a.core).reg rs2
       t.readWord (tileOf a.core) (off / 4) = (match op with
          | .lr => old | .sc => if held then v else old | .swap => v | .add => old + v
          | .xor => old ^^^ v | .and => old &&& v | .or => old ||| v
          | .min => if old.toInt ≤ v.toInt then old else v
          | .max => if old.toInt ≤ v.toInt then v else old
          | .minu => if old.toNat ≤ v.toNat then old else v
          | .maxu => if old.toNat ≤ v.toNat then v else old) ∧
       t.core a.core = ((s.core a.core).setReg rd (match op with
          | .sc => if held then 0 else 1 | _ => old)).advance a.pc a.short ∧
       (op = .lr → t.reserved a (off / 4) = true) ∧ (op = .sc → t.reserved a (off / 4) = false)) ∧
      (∀ x, populated x → x < spadAddr (tileOf a.core) off ∨ spadAddr (tileOf a.core) off + 4 ≤ x →
        t.readByte x = s.readByte x) ∧ t.priv = s.priv))

/-- Who reaches a tile register (04 R127, R147; 09 R316, R319): a store of a core of the tile that is
free to issue, after which it goes on; the network and firmware always; the debug window only in
lifecycle MANUFACTURE or RMA; a host function and the BMC never.

SPD_RGN_BASE_WRITE, SPD_RGN_SIZE_WRITE, SPD_RGN_OWNER_WRITE, SPD_RGN_HEAD_WRITE and
SPD_RGN_TAIL_WRITE complete on a region on which nothing waits or runs (04 R130 to R132): BASE and
SIZE that keep the region in the scratchpad take their value, and a changed BASE, SIZE or MODE
returns every pointer to zero; OWNER takes its value and CTX only from firmware; HEAD and TAIL set
the committed, reserved and initial pointer. So it is of a write by firmware or from the network,
and of a store of a core of the tile that is free to issue, which goes on after it; nothing else
changes.

A region write that is refused or held (04 R130, R131): a BASE or SIZE that leaves the scratchpad,
or a HEAD or TAIL at or beyond SIZE, sets BAD_WRITE and changes nothing else; while a granted or
waiting claim of either side or a tensor instruction stands on the region an accepted BASE, SIZE,
HEAD or TAIL is held and the region's fields stay, and OWNER is held by a tensor instruction
alone. A write behind a held one is held with it. So it is of a write by firmware or from the
network and of a store of a core of the tile that is free to issue, which goes on: that the scalar
unit does not wait for a held write, and that a later write is held behind an earlier one, are the
model's reading (log 20). -/
def Obligations.TileRegionWrites : Prop :=
  (∀ (s : State) (t : TileId) (n : RegionId) (v : Word) (g : Agent) (f : State → State),
    exec (.spdRgnOwnerWrite g t n v) s = .next (s.tileWrite g t fun s => s.writeRgn t n
        ⟨.owner, v, decide (g = .firmware), 0⟩) ∧
    (∀ a, g = .core a → (s.core a.core).canIssue = true → tileOf a.core = t →
      s.tileWrite g t f = (f s).setCore a.core (((f s).core a.core).advance a.pc a.short)) ∧
    (∀ a, g = .core a → (s.core a.core).canIssue = false ∨ tileOf a.core ≠ t →
      s.tileWrite g t f = s) ∧
    (g = .net ∨ g = .firmware → s.tileWrite g t f = f s) ∧
    (g = .debug → s.tileWrite g t f = if s.lifecycle = 0 ∨ s.lifecycle = 4 then f s else s) ∧
    (∀ h, g = .host h ∨ g = .bmc → s.tileWrite g t f = s)) ∧
  (∀ (g : Agent) (t : TileId) (n : RegionId) (v : Word) (s : State) (r : Region),
    s.region t n = r → r.held = [] → s.btxNames t n = false → r.pClaims = [] → r.cClaims = [] →
    r.pWait = [] → r.cWait = [] →
    let base := if bits v.toNat 19 0 = r.base ∧ v.getLsbD 20 = r.circular then r
      else { r with base := bits v.toNat 19 0, circular := v.getLsbD 20, head := {}, tail := {}
                    rhead := {}, rtail := {}, headInit := {}, tailInit := {}
                    taken := r.taken + fill r.size r.head r.tail }
    let size := if bits v.toNat 19 0 = r.size then r
      else { r with size := bits v.toNat 19 0, head := {}, tail := {}, rhead := {}, rtail := {}
                    headInit := {}, tailInit := {}
                    taken := r.taken + fill r.size r.head r.tail }
    let owner := { r with owner := v.setWidth 16, ctx := if g = .firmware then bits v.toNat 19 16 else r.ctx }
    let p : Ptr := ⟨bits v.toNat 19 0, v.getLsbD 20⟩
    let head := { r with head := p, rhead := p, headInit := p }
    let tail := { r with tail := p, rtail := p, tailInit := p, taken := r.taken + fill r.size p r.tail }
    (g = .net ∨ g = .firmware →
      (bits v.toNat 19 0 ≤ 786431 → bits v.toNat 19 0 + r.size ≤ 786432 →
        exec (.spdRgnBaseWrite g t n v) s = .next (s.setRegion t n base)) ∧
      (r.base + bits v.toNat 19 0 ≤ 786432 →
        exec (.spdRgnSizeWrite g t n v) s = .next (s.setRegion t n size)) ∧
      exec (.spdRgnOwnerWrite g t n v) s = .next (s.setRegion t n owner) ∧
      (r.size = 0 ∨ bits v.toNat 19 0 < r.size →
        exec (.spdRgnHeadWrite g t n v) s = .next (s.setRegion t n head) ∧
        exec (.spdRgnTailWrite g t n v) s = .next (s.setRegion t n tail))) ∧
    ∀ a : At, g = .core a → (s.core a.core).canIssue = true → tileOf a.core = t →
      let goesOn := fun (u : State) => u.setCore a.core ((s.core a.core).advance a.pc a.short)
      (bits v.toNat 19 0 ≤ 786431 → bits v.toNat 19 0 + r.size ≤ 786432 →
        exec (.spdRgnBaseWrite g t n v) s = .next (goesOn (s.setRegion t n base))) ∧
      (r.base + bits v.toNat 19 0 ≤ 786432 →
        exec (.spdRgnSizeWrite g t n v) s = .next (goesOn (s.setRegion t n size))) ∧
      exec (.spdRgnOwnerWrite g t n v) s = .next (goesOn (s.setRegion t n owner)) ∧
      (r.size = 0 ∨ bits v.toNat 19 0 < r.size →
        exec (.spdRgnHeadWrite g t n v) s = .next (goesOn (s.setRegion t n head)) ∧
        exec (.spdRgnTailWrite g t n v) s = .next (goesOn (s.setRegion t n tail)))) ∧
  (∀ (g : Agent) (t : TileId) (n : RegionId) (v : Word) (s : State) (r : Region),
    s.region t n = r →
    let bad := s.setTile t { s.tile t with badWrite := true }
    let held := fun (reg : RgnReg) => s.setRegion t n
      { r with held := r.held ++ [⟨reg, v, decide (g = .firmware), (s.tile t).nextClaim⟩] }
    let busy := s.btxNames t n = true ∨ r.pClaims ≠ [] ∨ r.cClaims ≠ [] ∨ r.pWait ≠ [] ∨ r.cWait ≠ []
    ∀ goesOn : State → State,
    ((g = .net ∨ g = .firmware) ∧ goesOn = id ∨
      ∃ a : At, g = .core a ∧ (s.core a.core).canIssue = true ∧ tileOf a.core = t ∧
        goesOn = fun u => u.setCore a.core ((s.core a.core).advance a.pc a.short)) →
    (r.held = [] →
      (786432 < bits v.toNat 19 0 + r.size ∨ 786431 < bits v.toNat 19 0 →
        exec (.spdRgnBaseWrite g t n v) s = .next (goesOn bad)) ∧
      (786432 < r.base + bits v.toNat 19 0 → exec (.spdRgnSizeWrite g t n v) s = .next (goesOn bad)) ∧
      (r.size ≠ 0 → r.size ≤ bits v.toNat 19 0 →
        exec (.spdRgnHeadWrite g t n v) s = .next (goesOn bad) ∧
        exec (.spdRgnTailWrite g t n v) s = .next (goesOn bad)) ∧
      (busy →
        (bits v.toNat 19 0 ≤ 786431 → bits v.toNat 19 0 + r.size ≤ 786432 →
          exec (.spdRgnBaseWrite g t n v) s = .next (goesOn (held .base))) ∧
        (r.base + bits v.toNat 19 0 ≤ 786432 →
          exec (.spdRgnSizeWrite g t n v) s = .next (goesOn (held .size))) ∧
        (r.size = 0 ∨ bits v.toNat 19 0 < r.size →
          exec (.spdRgnHeadWrite g t n v) s = .next (goesOn (held .head)) ∧
          exec (.spdRgnTailWrite g t n v) s = .next (goesOn (held .tail)))) ∧
      (s.btxNames t n = true → exec (.spdRgnOwnerWrite g t n v) s = .next (goesOn (held .owner))) ∧
      (s.btxNames t n = false → exec (.spdRgnOwnerWrite g t n v) s = .next (goesOn (s.setRegion t n
        { r with owner := v.setWidth 16, ctx := if g = .firmware then bits v.toNat 19 16 else r.ctx })))) ∧
    (r.held ≠ [] →
      exec (.spdRgnBaseWrite g t n v) s = .next (goesOn (held .base)) ∧
      exec (.spdRgnSizeWrite g t n v) s = .next (goesOn (held .size)) ∧
      exec (.spdRgnOwnerWrite g t n v) s = .next (goesOn (held .owner)) ∧
      exec (.spdRgnHeadWrite g t n v) s = .next (goesOn (held .head)) ∧
      exec (.spdRgnTailWrite g t n v) s = .next (goesOn (held .tail))))

/-- REGION_WRITE_RELEASE completes (04 R131, R132): with no tensor instruction on the region and, but
for OWNER, no claim that was there before the write, the oldest held write leaves the hold and is
applied as it would be at its arrival, or refused with BAD_WRITE. Several held writes are released
oldest first, each by a command of its own: the model's reading (log 20).

CLAIM_GRANT and CLAIM_COMMIT complete (04 R135 to R137). The oldest waiting claim of a side for
which there is room, or data, is granted at the reserved pointer, which moves past it. A finished
claim commits: the committed pointer passes over it and the finished claims before it, and stops
at the first that is not finished. The other side of the region stays. -/
def Obligations.RegionClaims : Prop :=
  (∀ (t : TileId) (n : RegionId) (s : State) (r : Region) (h : HeldRgn) (rest : List HeldRgn),
    s.region t n = r → r.held = h :: rest → s.btxNames t n = false →
    (h.reg ≠ .owner → r.pClaims = [] ∧ r.cClaims = [] ∧ (∀ k ∈ r.pWait, h.stamp ≤ k.id) ∧
      ∀ k ∈ r.cWait, h.stamp ≤ k.id) →
    ∃ u, exec (.regionWriteRelease t n) s = .next u ∧ u = { s with tiles := u.tiles } ∧
      (∀ m, m < 32 → m ≠ n.val → u.region t m = s.region t m) ∧
      (∀ t' m, t' ≠ t.val → u.region t' m = s.region t' m) ∧
      (let x := bits h.value.toNat 19 0
       let p : Ptr := ⟨x, h.value.getLsbD 20⟩
       let r' := { r with held := rest }
       let zero := fun (q : Region) => { q with head := {}, tail := {}, rhead := {}, rtail := {}, headInit := {}, tailInit := {}
                                                taken := r.taken + fill r.size r.head r.tail }
       let refused := u.region t n = r' ∧ (u.tile t).badWrite = true
       let applied := fun (q : Region) => u.region t n = q ∧ (u.tile t).badWrite = (s.tile t).badWrite
       (h.reg = .base → if 786431 < x ∨ 786432 < x + r.size then refused
         else applied (if x = r.base ∧ h.value.getLsbD 20 = r.circular then r'
           else zero { r' with base := x, circular := h.value.getLsbD 20 })) ∧
       (h.reg = .size → if 786432 < r.base + x then refused
         else applied (if x = r.size then r' else zero { r' with size := x })) ∧
       (h.reg = .owner → applied { r' with owner := h.value.setWidth 16
                                           ctx := if h.privileged then bits h.value.toNat 19 16 else r.ctx }) ∧
       (h.reg = .head → if r.size ≠ 0 ∧ r.size ≤ x then refused
         else applied { r' with head := p, rhead := p, headInit := p }) ∧
       (h.reg = .tail → if r.size ≠ 0 ∧ r.size ≤ x then refused
         else applied { r' with tail := p, rtail := p, tailInit := p, taken := r.taken + fill r.size p r.tail }))) ∧
  ((∀ (t : TileId) (n : RegionId) (s : State) (r : Region) (k : Claim) (rest : List Claim),
    s.region t n = r → (∀ h ∈ r.held, h.reg = .owner) →
    (r.pWait = k :: rest → r.pClaims.length < 16 → k.words + fill r.size r.rhead r.tail ≤ r.size →
      ∃ u, exec (.claimGrant t n .producer) s = .next u ∧
        u.region t n = { r with pWait := rest, pClaims := r.pClaims ++ [{ k with start := r.rhead }]
                                rhead := r.rhead.adv r.size k.words }) ∧
    (r.cWait = k :: rest → r.cClaims.length < 16 → k.words ≤ fill r.size r.head r.rtail →
      ∃ u, exec (.claimGrant t n .consumer) s = .next u ∧
        u.region t n = { r with cWait := rest, cClaims := r.cClaims ++ [{ k with start := r.rtail }]
                                rtail := r.rtail.adv r.size k.words })) ∧
  (∀ (t : TileId) (n : RegionId) (id : Nat) (s : State) (r : Region) (k : Claim),
    s.region t n = r →
    (k.done = true ∨ (∃ e i, k.who = .engine e i ∧ (s.place e i).rowsDone = true ∧
      (s.place e i).reads = [] ∧ (s.place e i).writes = []) ∨ ∃ c, k.who = .spill c) →
    (r.pClaims.find? (·.id == id) = some k →
      let cs := r.pClaims.map fun j => if j.id = id then { j with done := true } else j
      exec (.claimCommit t n .producer id) s = .next (s.setRegion t n
        { r with pClaims := cs.dropWhile (·.done)
                 head := (cs.takeWhile (·.done)).foldl (fun p j => p.adv r.size j.words) r.head })) ∧
    (r.cClaims.find? (·.id == id) = some k →
      let cs := r.cClaims.map fun j => if j.id = id then { j with done := true } else j
      exec (.claimCommit t n .consumer id) s = .next (s.setRegion t n
        { r with cClaims := cs.dropWhile (·.done)
                 tail := (cs.takeWhile (·.done)).foldl (fun p j => p.adv r.size j.words) r.tail
                 taken := (cs.takeWhile (·.done)).foldl (fun w j => w + j.words) r.taken }))))

/-- CHN_BIND_WRITE completes (04 R143, R145): an accepted value on a binding whose messages are all
accounted for, written by firmware or the network, gives the binding that value, AVAIL equal to
its CREDITS and, when it opens a new channel, sequence number 0; a refused value sets BAD_WRITE of
the core's channel registers and nothing else; a value written while messages are outstanding, or
behind another held value (the model's choice, log 66), is held behind those held before. A store
by a free core of the tile does the same; the scalar unit goes on, but that of the binding's own
core waits while its value is held.

BIND_WRITE_TAKE_EFFECT completes (04 R145): once AVAIL equals CREDITS, or the binding is not valid
any more, the oldest held value becomes the binding's and the scalar unit that waits for it goes
on; until then nothing happens. Held values take effect in the order in which they were written,
one by one: the model's choice (log 66). -/
def Obligations.ChannelBindings : Prop :=
  (∀ (g : Agent) (c : CoreId) (i : BindId) (v : Word) (s : State), g = .net ∨ g = .firmware →
    v.toNat < 2 ^ 30 → ((s.core c).binding i).word ≠ v →
    (s.bindRefused c v = false → bindValid v = true → ((s.core c).binding i).held = [] →
      (bindValid ((s.core c).binding i).word = true →
        ((s.core c).binding i).avail = bindCredits ((s.core c).binding i).word) →
      ∃ t, exec (.chnBindWrite g c i v) s = .next t ∧ t = { s with cores := t.cores } ∧
        ((t.core c).binding i).word = v ∧ ((t.core c).binding i).avail = bindCredits v ∧
        (bindValid ((s.core c).binding i).word = false ∨
            bindDest v ≠ bindDest ((s.core c).binding i).word ∨
            bindQueue v ≠ bindQueue ((s.core c).binding i).word →
          ((t.core c).binding i).nextSeq = 0) ∧
        ∀ j, j ≠ i.val → (t.core c).binding j = (s.core c).binding j) ∧
    (s.bindRefused c v = true →
      exec (.chnBindWrite g c i v) s = .next (s.setCore c { s.core c with chnBadWrite := true })) ∧
    (s.bindRefused c v = false → (((s.core c).binding i).held ≠ [] ∨ (bindValid ((s.core c).binding i).word = true ∧
      ((s.core c).binding i).avail ≠ bindCredits ((s.core c).binding i).word)) →
      (let kept := fun own => (s.core c).setBinding i
        { (s.core c).binding i with held := ((s.core c).binding i).held ++ [⟨v, own⟩] }
      exec (.chnBindWrite g c i v) s = .next (s.setCore c (kept false)) ∧
      ∀ a : At, (s.core a.core).canIssue = true → tileOf a.core = tileOf c →
        (a.core = c → exec (.chnBindWrite (.core a) c i v) s
          = .next (s.setCore c ((kept true).hold a.pc a.short (.bindWrite i)))) ∧
        (a.core ≠ c → exec (.chnBindWrite (.core a) c i v) s = .next ((s.setCore c (kept false)).setCore a.core
          ((s.core a.core).advance a.pc a.short))))) ∧
    ∀ a : At, (s.core a.core).canIssue = true → tileOf a.core = tileOf c → ((s.core c).binding i).held = [] →
      (bindValid ((s.core c).binding i).word = true →
        ((s.core c).binding i).avail = bindCredits ((s.core c).binding i).word) →
      ∃ t, exec (.chnBindWrite g c i v) s = .next t ∧ exec (.chnBindWrite (.core a) c i v) s
        = .next (t.setCore a.core ((t.core a.core).advance a.pc a.short))) ∧
  (∀ (c : CoreId) (i : BindId) (h : HeldBind) (rest : List HeldBind) (s : State),
    ((s.core c).binding i).held = h :: rest →
    (bindValid ((s.core c).binding i).word = false ∨
        ((s.core c).binding i).avail = bindCredits ((s.core c).binding i).word →
      ∃ t, exec (.bindWriteTakeEffect c i) s = .next t ∧ t = { s with cores := t.cores } ∧
        ((t.core c).binding i).word = h.word ∧ ((t.core c).binding i).held = rest ∧
        (bindValid h.word = true → ((t.core c).binding i).avail = bindCredits h.word) ∧
        (∀ j, j ≠ i.val → (t.core c).binding j = (s.core c).binding j) ∧
        (h.own = true → (s.core c).wait = some (.bindWrite i) → (t.core c).wait = none ∧
          (t.core c).pc = (s.core c).pc + (if (s.core c).waitShort then 2 else 4)) ∧
        (h.own = false → (t.core c).wait = (s.core c).wait ∧ (t.core c).pc = (s.core c).pc)) ∧
    (bindValid ((s.core c).binding i).word = true → ((s.core c).binding i).avail ≠ bindCredits ((s.core c).binding i).word →
      exec (.bindWriteTakeEffect c i) s = .next s))

/-- CHN_TX_CMD and SEND_RELEASE complete (04 R146). With a credit and room to inject, the send posts
exactly one tuple, with the words of CHN_TX_DATA, takes one credit and one sequence number, and
the scalar unit goes on; without, it is held, and SEND_RELEASE completes it in the same way once
both are there.

CHAN_MSG completes (04 R148, R150; 06 R214) from the network at a queue with room, in a core that
does not wait: a message that is next in its channel becomes the newest visible entry, one that is
early waits, and in both cases nothing else of the queue moves; a stale, foreign or fenced message
is discarded. Of a queue that an actor names, ActorFiring says the rest.

CREDIT completes (04 R152): the binding gets one credit back, never more than CREDITS; nothing
else of any core changes. -/
def Obligations.ChannelMessages : Prop :=
  ((∀ (a : At) (v : Word) (s : State) (k : Nat), (s.core a.core).canIssue = true →
    s.ownerOfCore a.core = some k → k < 16 →
    bindValid ((s.core a.core).binding (txBind v)).word = true → 1 ≤ txNw v → txNw v ≤ 4 →
    (((s.core a.core).binding (txBind v)).avail ≠ 0 → s.injectBlocked (tileOf a.core) = false →
      ∃ t p, exec (.chnTxCmd a v) s = .next t ∧ isTuple s a.core k (txBind v) v p ∧
        t = { s with cores := t.cores
                     net := { s.net with
                       sources := s.net.sources ++ [atSource s (tileOf a.core) p] } } ∧
        t.core a.core = ((s.core a.core).setBinding (txBind v)
          { (s.core a.core).binding (txBind v) with
            avail := ((s.core a.core).binding (txBind v)).avail - 1
            nextSeq := ((s.core a.core).binding (txBind v)).nextSeq + 1 }).advance a.pc a.short ∧
        ∀ c', c' ≠ a.core.val → t.core c' = s.core c') ∧
    (((s.core a.core).binding (txBind v)).avail = 0 ∨ s.injectBlocked (tileOf a.core) = true →
      exec (.chnTxCmd a v) s = .next (s.setCore a.core ((s.core a.core).hold a.pc a.short (.send v))))) ∧
  (∀ (c : CoreId) (v : Word) (s : State) (k : Nat), (s.core c).run = .running →
    (s.core c).wait = some (.send v) → s.ownerOfCore c = some k → k < 16 → 1 ≤ txNw v → txNw v ≤ 4 →
    ((s.core c).binding (txBind v)).avail ≠ 0 → s.injectBlocked (tileOf c) = false →
    ∃ t p, exec (.sendRelease c) s = .next t ∧ isTuple s c k (txBind v) v p ∧
      t.net.sources = s.net.sources ++ [atSource s (tileOf c) p] ∧
      (t.core c).wait = none ∧ ((t.core c).binding (txBind v)).avail
        = ((s.core c).binding (txBind v)).avail - 1)) ∧
  (∀ (p : CtlPacket) (s : State) (c q : Nat) (v : InQueue), c = hdrCore p →
    q = bits p.header.toNat 36 33 → v = (s.core c).queue q → (s.core c).wait = none →
    (∀ e ∈ v.vis ++ v.early, e.spill = none) → (s.core c).actorOf q = none →
    (s.fate p.route = .deliver → v.accepts (entryOf p).src (entryOf p).bind = true →
      ∃ t, exec (.chanMsg p) s = .next t ∧
        (v.early = [] →
          let next := ((v.chans.find? fun k => k.src == (entryOf p).src
            && k.bind == (entryOf p).bind).map (·.expect)).getD 0
          let e := { entryOf p with uid := (s.core c).nextEntry }
          ((t.core c).queue q).vis
            = (if next = (entryOf p).seq then v.vis ++ [e] else v.vis) ∧
          ((t.core c).queue q).early = (if next = (entryOf p).seq then [] else [e])) ∧
        (∀ q', q' ≠ q → (t.core c).queue q' = (s.core c).queue q') ∧
        (∀ c', c' ≠ c → t.core c' = s.core c')) ∧
    (s.fate p.route ≠ .deliver → exec (.chanMsg p) s = .next (s.takeCtl p))) ∧
  (∀ (p : CtlPacket) (s : State), s.fate p.route = .deliver →
    ∃ t, exec (.credit p) s = .next t ∧ t = { s.takeCtl p with cores := t.cores } ∧
      (let b := (s.core (hdrCore p)).binding (bits p.header.toNat 11 7)
      t.core (hdrCore p) = (s.core (hdrCore p)).setBinding (bits p.header.toNat 11 7)
        { b with avail := min (bindCredits b.word) (b.avail + 1) }) ∧
      ∀ c', c' ≠ hdrCore p → t.core c' = s.core c')

/-- CHN_QHEAD_LOAD and CHN_RX_POP complete (04 R152, R156, R157, Tables 4.15 and 4.16): with a visible
entry that was not spilled, CHN_QHEAD_LOAD reads a word of it and changes nothing but its core,
and CHN_RX_POP removes it and returns one credit to its sender's binding; with none, both hold the
scalar unit. Of a VA, VB or MEM entry whose claim waits or is granted the pop withdraws the
waiting claim and stores the words under the granted one, which commits: the model's choice (log
66).

VA_VB_MEM_STORE and ACC_ADDEND_APPLY complete (04 R153 to R155). A VA, VB or MEM entry at the head
of an unnamed queue is stored into its CIRCULAR region at the reserved head, whose claim commits,
and leaves the queue; an ACC entry is added into element TAG of slot PARAM once nothing in flight
targets the slot, and leaves the queue. -/
def Obligations.ChannelQueues : Prop :=
  (∀ (a : At) (q : QueueId) (s : State) (k : Nat), (s.core a.core).canIssue = true →
    (∀ (e : Entry) (rest : List Entry), ((s.core a.core).queue q).vis = e :: rest →
      (∀ (i : Fin 6) (rd : XReg), exec (.chnQheadLoad a q i rd) s = .next (s.setCore a.core
        (((s.core a.core).setReg rd (if i.val < 4 then e.words.getD i 0
          else if i.val = 4 then BitVec.ofNat 32 (e.tag.toNat + 2 ^ 16 * e.nw + 2 ^ 19 * e.port.toNat
            + 2 ^ 22)
          else BitVec.ofNat 32 (e.src + 2 ^ 13 * e.bind + 2 ^ 18 * e.seq.toNat))).advance a.pc a.short))) ∧
      (∀ (v : Word) (r : Region) (w : Claim), bits v.toNat 3 0 = q → (s.core a.core).actorOf q = none →
        e.isStored = true → e.spill = none → r = s.region (tileOf a.core) e.param.toNat → w.who = .port a.core q →
        (r.pClaims = [] → r.pWait = [w] → ∃ t, exec (.chnRxPop a v) s = .next t ∧
          ((t.core a.core).queue q).vis = rest ∧ (t.region (tileOf a.core) e.param.toNat) = { r with pWait := [] } ∧
          t.mem = s.mem) ∧
        (r.pClaims = [w] → w.words = e.nw → e.words.length = e.nw → e.nw ≤ r.size → r.circular = true →
          r.base + r.size ≤ 786432 → Cells.wf s.mem = true →
          ∃ t, exec (.chnRxPop a v) s = .next t ∧ ((t.core a.core).queue q).vis = rest ∧
            (t.region (tileOf a.core) e.param.toNat) = { r with pClaims := [], head := r.head.adv r.size e.nw } ∧
            ∀ j, j < e.nw → t.readWord (tileOf a.core) (r.base + (w.start.off + j) % r.size) = e.words.getD j 0)) ∧
      (∀ v : Word, bits v.toNat 3 0 = q → (s.core a.core).actorOf q = none → e.spill = none →
        (e.isStored = true → (s.region (tileOf a.core) e.param.toNat).portClaim (.port a.core q) = none) →
        e.src < 8192 → e.bind < 32 → s.ownerOfCore a.core = some k → k < 16 →
        ∃ t p, exec (.chnRxPop a v) s = .next t ∧ ((t.core a.core).queue q).vis = rest ∧
          t = { s with cores := t.cores
                       net := { s.net with
                         sources := s.net.sources ++ [atSource s (tileOf a.core) p] } } ∧
          hdrCore p = e.src ∧ hdrKind p = 1 ∧ bits p.header.toNat 11 7 = e.bind ∧
          p.route.ctx.toNat = k ∧ p.route.gen = (s.ctx k).gen ∧ (t.core a.core).pc
            = a.pc + (if a.short then 2 else 4))) ∧
    (((s.core a.core).queue q).vis = [] →
      (∀ (i : Fin 6) (rd : XReg), exec (.chnQheadLoad a q i rd) s = .next (s.setCore a.core
        ((s.core a.core).hold a.pc a.short (.qhead q i rd)))) ∧
      (∀ v : Word, bits v.toNat 3 0 = q → (s.core a.core).actorOf q = none →
        exec (.chnRxPop a v) s = .next (s.setCore a.core ((s.core a.core).hold a.pc a.short (.pop q)))))) ∧
  (∀ (c : CoreId) (q : QueueId) (s : State) (e : Entry) (rest : List Entry) (n : Nat) (r : Region),
    ((s.core c).queue q).vis = e :: rest → (s.core c).run = .running → e.spill = none →
    (e.isStored = true → (s.core c).actorOf q = none → n = e.param.toNat →
      r = s.region (tileOf c) n → s.usable c n = true → r.circular = true → e.nw ≤ r.size →
      r.base + r.size ≤ 786432 → Cells.wf s.mem = true → e.words.length = e.nw →
      r.pClaims = [] → r.pWait = [] → r.held = [] → e.nw + fill r.size r.rhead r.tail ≤ r.size →
      ∃ t, exec (.vaVbMemStore c q) s = .next t ∧ ((t.core c).queue q).vis = rest ∧
        (t.region (tileOf c) n).rhead = r.rhead.adv r.size e.nw ∧
        (t.region (tileOf c) n).head = r.head.adv r.size e.nw ∧
        (t.region (tileOf c) n).pClaims = [] ∧ (t.region (tileOf c) n).tail = r.tail ∧
        (t.region (tileOf c) n).cClaims = r.cClaims ∧
        ∀ j, j < e.nw → t.readWord (tileOf c) (r.base + (r.rhead.off + j) % r.size) = e.words.getD j 0) ∧
    (e.port = 4 → (∀ i ∈ (s.core c).btx, e.param.toNat % 16 ∉ i.targets) →
      ∃ t, exec (.accAddendApply c q) s = .next t ∧ ((t.core c).queue q).vis = rest ∧
        t.slot c (e.param.toNat % 16)
          = (s.slot c (e.param.toNat % 16)).addend (e.tag.toNat % 256) e.words ∧
        (∀ k, k < 16 → k ≠ e.param.toNat % 16 → t.slot c k = s.slot c k) ∧
        t.mem = s.mem ∧ t.tiles = s.tiles))

/-- TIL_ACT_WRITE and INMASK_WRITE_RELEASE complete (05 R162, R163), written by firmware. A value with
at most four inputs, none of which another actor names, is taken when the INMASK stays or the
actor has no matching store entry: the register holds it with bit 31 zero and no other actor's
register changes. A refused value sets BAD_WRITE. A new INMASK of a busy actor is held, and
INMASK_WRITE_RELEASE takes it once the actor is free. So it is of the own store of the core that
is free to issue: it goes on after a write that is taken or refused, and waits with one that is
held. A core that waits in TIL_FIRE goes on when the write makes an entry ready (05 R168).

TIL_SPILL_CFG_WRITE and TIL_PERF_SNAP complete (05 R162, R193). A spill configuration that is off,
or that names an own, CIRCULAR, non-empty region of whole records, is taken; another, also of a
region of another context or one that the core does not own, sets BAD_WRITE. The own store of a
core that is free to issue does the same and goes on. A snapshot moves the live counters to the
snapshot registers and clears them together. Nothing else changes.

PROBE_ROUND completes (05 R185, R186) for a RUNNING context with a placement: a round that finds
progress since the last one, or a core that is not blocked, notes its time; a quiet round counts
from the last round that was not, or from itself where it is the first; a quiet round with no core
in a full wait, or less than T_Q later, does nothing more. Every round clears the marks of
progress.

A context found stuck with nowhere to spill is aborted by a contained fault (05 R187, R188): its
descriptors complete, its generation moves on, its cores halt and it is ABORTED.

A context found stuck whose wait set is one queue spills it (05 R187, R189): each entry, the
visible ones first, becomes the record of eight words at the head of the core's spill region, its
credit goes back and it stays in order as a spilled entry; the context runs on, and T_Q runs anew. -/
def Obligations.ActorsSpillAndDeadlock : Prop :=
  (∀ (c : CoreId) (n : ActorId) (v : Word) (s : State),
    ((s.core c).wait = none → (popCount (v.setWidth 16) ≤ 4 ∧ ∀ k, k < 16 → k ≠ n.val →
        (s.core c).inmask k &&& v.setWidth 16 = 0) →
      ((s.core c).inmask n = v.setWidth 16 ∨ ∀ e ∈ (s.core c).df.ms, e.actor ≠ n.val) →
      ∃ t, exec (.tilActWrite .firmware c n v) s = .next t ∧ t = { s with cores := t.cores } ∧
        Tab.get 0 (t.core c).df.act n = v &&& 0x7FFFFFFF#32 ∧
        (∀ m, m ≠ n.val → Tab.get 0 (t.core c).df.act m = Tab.get 0 (s.core c).df.act m) ∧
        (t.core c).queues = (s.core c).queues ∧ (t.core c).pc = (s.core c).pc ∧
        ∀ c', c' ≠ c.val → t.core c' = s.core c') ∧
    (∀ rd, (s.core c).run = .running → (s.core c).wait = some (.fire rd) →
      (∀ e ∈ (s.core c).df.ms, e.fired = false) →
      (popCount (v.setWidth 16) ≤ 4 ∧ ∀ k, k < 16 → k ≠ n.val → (s.core c).inmask k &&& v.setWidth 16 = 0) →
      ((s.core c).inmask n = v.setWidth 16 ∨ ∀ e ∈ (s.core c).df.ms, e.actor ≠ n.val) →
      ∃ t, exec (.tilActWrite .firmware c n v) s = .next t ∧
        ((t.core c).wait = none ↔ ∃ e ∈ (t.core c).df.ms, e.ready.isSome)) ∧
    ((4 < popCount (v.setWidth 16) ∨ ∃ k, k < 16 ∧ k ≠ n.val ∧
        (s.core c).inmask k &&& v.setWidth 16 ≠ 0) →
      exec (.tilActWrite .firmware c n v) s = .next (s.setCore c { s.core c with
        df := { (s.core c).df with badWrite := true } })) ∧
    ((popCount (v.setWidth 16) ≤ 4 ∧ ∀ k, k < 16 → k ≠ n.val →
        (s.core c).inmask k &&& v.setWidth 16 = 0) →
      (s.core c).inmask n ≠ v.setWidth 16 → (∃ e ∈ (s.core c).df.ms, e.actor = n.val) →
      exec (.tilActWrite .firmware c n v) s = .next (s.setCore c { s.core c with
        df := { (s.core c).df with heldAct := Tab.set (s.core c).df.heldAct n v } })) ∧
    (∀ a : At, a.core = c → (s.core c).canIssue = true →
      (let fits := popCount (v.setWidth 16) ≤ 4 ∧ ∀ k, k < 16 → k ≠ n.val →
        (s.core c).inmask k &&& v.setWidth 16 = 0
      let free := (s.core c).inmask n = v.setWidth 16 ∨ ∀ e ∈ (s.core c).df.ms, e.actor ≠ n.val
      (fits → free → ∃ t u, exec (.tilActWrite .firmware c n v) s = .next u ∧
        exec (.tilActWrite (.core a) c n v) s = .next t ∧ Tab.get 0 (t.core c).df.act n = v &&& 0x7FFFFFFF#32 ∧
        t = u.setCore c ((u.core c).advance a.pc a.short)) ∧
      (¬ fits → exec (.tilActWrite (.core a) c n v) s = .next (s.setCore c (Core.advance { s.core c with
        df := { (s.core c).df with badWrite := true } } a.pc a.short))) ∧
      (fits → ¬ free → exec (.tilActWrite (.core a) c n v) s
        = .next (s.setCore c ((s.core c).hold a.pc a.short (.inmask n v)))))) ∧
    ((s.core c).run = .running → (s.core c).wait = some (.inmask n v) →
      (∀ e ∈ (s.core c).df.ms, e.actor ≠ n.val) →
      ∃ t, exec (.inmaskWriteRelease c n) s = .next t ∧ t = { s with cores := t.cores } ∧
        Tab.get 0 (t.core c).df.act n = v &&& 0x7FFFFFFF#32 ∧ (t.core c).wait = none ∧
        (t.core c).pc = (s.core c).pc + (if (s.core c).waitShort then 2 else 4))) ∧
  (∀ (c : CoreId) (v : Word) (s : State) (r : Region),
    s.region (tileOf c) (bits v.toNat 4 0) = r →
    ((v.getLsbD 5 = false ∨ (r.circular = true ∧ some r.ctx = s.ownerOfCore c ∧
        r.owner.getLsbD (c.val % 16) = true ∧ r.size ≠ 0 ∧ r.size % 8 = 0)) →
      exec (.tilSpillCfgWrite .firmware c v) s = .next (s.setCore c { s.core c with
        df := { (s.core c).df with spillCfg := v.setWidth 6 } })) ∧
    (v.getLsbD 5 = true → r.circular = false ∨ some r.ctx ≠ s.ownerOfCore c ∨ r.owner.getLsbD (c.val % 16) = false ∨
        r.size = 0 ∨ r.size % 8 ≠ 0 →
      exec (.tilSpillCfgWrite .firmware c v) s = .next (s.setCore c { s.core c with
        df := { (s.core c).df with badWrite := true } })) ∧
    (∀ a : At, a.core = c → (s.core c).canIssue = true → exec (.tilSpillCfgWrite (.core a) c v) s
      = .next (s.setCore c (Core.advance { s.core c with df :=
        (if v.getLsbD 5 = false ∨ (r.circular = true ∧ some r.ctx = s.ownerOfCore c ∧
            r.owner.getLsbD (c.val % 16) = true ∧ r.size ≠ 0 ∧ r.size % 8 = 0) then
          { (s.core c).df with spillCfg := v.setWidth 6 } else { (s.core c).df with badWrite := true }) }
        a.pc a.short))) ∧
    (v.getLsbD 0 = true → ∀ g, g = .net ∨ g = .firmware →
      exec (.tilPerfSnap g c v) s = .next (s.setCore c { s.core c with
        df := { (s.core c).df with snap := (s.core c).df.live, live := {} } })) ∧
    (v.getLsbD 0 = true → ∀ a : At, (s.core a.core).canIssue = true → a.core = c →
      exec (.tilPerfSnap (.core a) c v) s = .next (s.setCore c (Core.advance { s.core c with
        df := { (s.core c).df with snap := (s.core c).df.live, live := {} } } a.pc a.short)))) ∧
  (∀ (k : CtxId) (s : State), (s.ctx k).st = .running → (s.ctx k).placed = true →
    ∃ t, exec (.probeRound k) s = .next t ∧
      (((s.ctx k).progressed = true ∨ (∃ c ∈ s.listedCores k, (s.core c).prog = true) ∨
          ∃ c ∈ s.listedCores k, s.coreBlocked c = false) →
        t = { s with cores := t.cores, ctxs := t.ctxs } ∧ (t.ctx k).probeSince = some s.deviceTime ∧
        (t.ctx k).progressed = false ∧ ∀ c ∈ s.listedCores k, (t.core c).prog = false) ∧
      ((s.ctx k).progressed = false → (∀ c ∈ s.listedCores k, (s.core c).prog = false ∧
          s.coreBlocked c = true) →
        ((s.ctx k).probeSince = none → t = { s with cores := t.cores, ctxs := t.ctxs } ∧
          (t.ctx k).probeSince = some s.deviceTime ∧ (t.ctx k).st = .running) ∧
        (∀ t0, (s.ctx k).probeSince = some t0 →
          ((∀ c ∈ s.listedCores k, s.coreFull c = false) ∨
            s.deviceTime.toNat < t0.toNat + (s.ctx k).quiesceUs * 1000) →
          t = { s with cores := t.cores, ctxs := t.ctxs } ∧ (t.ctx k).probeSince = some t0 ∧
          (t.ctx k).st = .running))) ∧
  (∀ (k : CtxId) (s : State) (t0 : DWord), Stuck s k t0 →
    (∀ p, s.spillFits (s.waitSet k) p = false) →
    ∃ t, exec (.probeRound k) s = .next t ∧ (t.ctx k).st = .aborted ∧
      (t.ctx k).gen = (s.ctx k).gen + 1 ∧
      (∀ c ∈ s.listedCores k, (t.core c).run = .halted) ∧
      ∀ (f : FnId) (slot : SlotId), (s.queue f slot).present = true → (s.queue f slot).ctx = k → (t.queue f slot).descs = [] ∧
        (t.queue f slot).unreturned = (s.queue f slot).unreturned + (s.queue f slot).descs.length) ∧
  (∀ (k : CtxId) (s : State) (t0 : DWord) (c : CoreId) (q : QueueId) (r : Region) (es : List (Entry × Bool)),
    Stuck s k t0 → s.waitSet k = [(c.val, q.val)] → s.spillFits [(c.val, q.val)] c = true →
    s.coreIn k c = true → ((s.core c).queue q).present = es → (es.map (·.1.uid)).Nodup →
    r = s.region (tileOf c) (s.core c).spillRegion → r.held = [] → r.pClaims = [] → r.rhead.off < r.size →
    r.base + r.size ≤ 786432 → Cells.wf s.mem = true →
    ∃ t, exec (.probeRound k) s = .next t ∧ (t.ctx k).st = .running ∧ (t.ctx k).gen = (s.ctx k).gen ∧
      (t.ctx k).probeSince = some s.deviceTime ∧
      (∀ e ∈ ((t.core c).queue q).vis ++ ((t.core c).queue q).early, e.spill.isSome = true) ∧
      ((t.core c).queue q).vis.map (·.uid) = ((s.core c).queue q).vis.map (·.uid) ∧
      t.net.sources.length = s.net.sources.length + es.length ∧
      (t.region (tileOf c) (s.core c).spillRegion).head = es.foldl (fun p _ => p.adv r.size 8) r.head ∧
      (∀ i j, i < es.length → j < 8 →
        t.readWord (tileOf c) (r.base + (r.rhead.off + 8 * i + j) % r.size)
          = ((es.map fun e => e.1.spillWords q e.2).getD i []).getD j 0) ∧
      ∀ c', c' ≠ c.val → (t.core c').queues = (s.core c').queues)

/-- A scalar entry that arrives next in its channel at a queue that an actor names becomes a token (05
R164, R165): it fills its input of the actor's matching store entry of its tag, or opens one while
fewer than 256 are in use, and the entry is ready once every input holds a token and, of an
ORDERED actor, it is its turn; where that input is filled or the entry has fired, or all 256 are
in use, it waits unindexed. A waiting token is indexed afresh when the fired set retires.

TIL_FIRE_LOAD with no fired set outstanding and TIL_FIRE_RETIRE complete (05 R167, R168, Table
5.3): the ready entry that comes first in the order of R167 fires, rd gets its tag, its actor and
VALID, and the scalar unit goes on; with no ready entry it is held. TIL_FIRE_RETIRE with bit 31
retires the fired set: its entry leaves the matching store, an ORDERED actor's turn advances, and
the scalar unit goes on; without bit 31 only the scalar unit goes on.

Retiring a fired set takes each of its operands out of its queue and returns its credit (05 R169,
04 R152): a set of one scalar token whose entry heads its queue. -/
def Obligations.ActorFiring : Prop :=
  ((∀ (p : CtlPacket) (s : State) (c q n : Nat) (v : InQueue) (e : Entry) (k : Token), c = hdrCore p →
    q = bits p.header.toNat 36 33 → v = (s.core c).queue q → (s.core c).wait = none → v.early = [] →
    (∀ x ∈ v.vis, x.spill = none) → (s.core c).actorOf q = some n → s.fate p.route = .deliver →
    v.accepts (entryOf p).src (entryOf p).bind = true → (entryOf p).isScalar = true →
    (((v.chans.find? fun k => k.src == (entryOf p).src && k.bind == (entryOf p).bind).map (·.expect)).getD 0
      = (entryOf p).seq) →
    e = { entryOf p with uid := (s.core c).nextEntry } →
    k = { queue := q, uid := e.uid, tag := e.tag, words := e.words, tagOnly := false } →
    ∃ t, exec (.chanMsg p) s = .next t ∧ t = { s.takeCtl p with cores := t.cores } ∧
      ((t.core c).queue q).vis = v.vis ++ [e] ∧ (∀ c', c' ≠ c → t.core c' = s.core c') ∧
      ((∀ m ∈ (s.core c).df.ms, m.actor = n → m.tag ≠ e.tag) →
        ((s.core c).df.ms.length < 256 → (t.core c).df.unindexed = (s.core c).df.unindexed ∧
          (t.core c).df.ms.map (fun m => (m.actor, m.tag, m.tokens))
            = (s.core c).df.ms.map (fun m => (m.actor, m.tag, m.tokens)) ++ [(n, e.tag, [k])]) ∧
        (256 ≤ (s.core c).df.ms.length → (t.core c).df.unindexed = (s.core c).df.unindexed ++ [k] ∧
          (t.core c).df.ms = (s.core c).df.ms)) ∧
      (∀ before m after, (s.core c).df.ms = before ++ m :: after → m.actor = n → m.tag = e.tag →
        (∀ x ∈ before, x.actor = n → x.tag ≠ e.tag) →
        (m.fired = false → (∀ x ∈ m.tokens, x.queue ≠ q) → (t.core c).df.unindexed = (s.core c).df.unindexed ∧
          (t.core c).df.ms.map (fun m => (m.actor, m.tag, m.tokens))
            = before.map (fun m => (m.actor, m.tag, m.tokens)) ++ (n, e.tag, m.tokens ++ [k])
              :: after.map (fun m => (m.actor, m.tag, m.tokens))) ∧
        ((m.fired = true ∨ ∃ x ∈ m.tokens, x.queue = q) →
          (t.core c).df.unindexed = (s.core c).df.unindexed ++ [k] ∧ (t.core c).df.ms = (s.core c).df.ms)) ∧
      ((t.core c).df.unindexed = (s.core c).df.unindexed → ∀ m ∈ (t.core c).df.ms, m.fired = false →
        (m.ready.isSome = true ↔
          (∀ i, i < 16 → ((s.core c).inmask m.actor).getLsbD i = true → ∃ x ∈ m.tokens, x.queue = i) ∧
          ((s.core c).ordered m.actor = true → Tab.get 0 (s.core c).df.actNext m.actor = m.tag)))) ∧
  (∀ (a : At) (v : Word) (s : State) (m : MsEntry) (k : Token) (n : Nat), (s.core a.core).canIssue = true →
    v.getLsbD 31 = true → (s.core a.core).df.ms = [m] → m.fired = true → m.tokens = [] →
    (s.core a.core).df.unindexed = [k] → (s.core a.core).actorOf k.queue = some n →
    ∃ t x, exec (.tilFireRetire a v) s = .next t ∧ (t.core a.core).df.unindexed = [] ∧
      (t.core a.core).df.ms = [x] ∧ x.actor = n ∧ x.tag = k.tag ∧ x.tokens = [k] ∧ x.fired = false)) ∧
  (∀ (a : At) (rd : XReg) (v : Word) (s : State), (s.core a.core).canIssue = true →
    ((∀ m ∈ (s.core a.core).df.ms, m.fired = false) →
      ((∃ m ∈ (s.core a.core).df.ms, m.ready.isSome) →
        ∃ t, ∃ e ∈ (s.core a.core).df.ms, exec (.tilFireLoad a rd) s = .next t ∧
          e.ready.isSome ∧ (∀ m ∈ (s.core a.core).df.ms, m.ready.isSome → firesBefore e m) ∧
          t = { s with cores := t.cores } ∧
          (e.actor < 16 → rd ≠ 0 → Tab.get 0 (t.core a.core).x rd
            = BitVec.ofNat 32 (e.tag.toNat + 2 ^ 16 * e.actor + 2 ^ 20)) ∧
          (∃ f ∈ (t.core a.core).df.ms, f.fired = true ∧ f.actor = e.actor ∧ f.tag = e.tag) ∧
          (t.core a.core).pc = a.pc + (if a.short then 2 else 4)) ∧
      ((∀ m ∈ (s.core a.core).df.ms, m.ready = none) →
        exec (.tilFireLoad a rd) s = .next (s.setCore a.core
          ((s.core a.core).hold a.pc a.short (.fire rd))))) ∧
    (v.getLsbD 31 = false →
      exec (.tilFireRetire a v) s = .next (s.setCore a.core ((s.core a.core).advance a.pc a.short))) ∧
    (∀ e, v.getLsbD 31 = true → (s.core a.core).df.ms = [e] → e.fired = true → e.tokens = [] →
      (s.core a.core).df.unindexed = [] →
      ∃ t, exec (.tilFireRetire a v) s = .next t ∧ t = { s with cores := t.cores } ∧
        (t.core a.core).df.ms = [] ∧
        Tab.get 0 (t.core a.core).df.actNext e.actor = Tab.get 0 (s.core a.core).df.actNext e.actor
          + (if e.inTurn then 1 else 0) ∧
        (t.core a.core).pc = a.pc + (if a.short then 2 else 4))) ∧
  (∀ (a : At) (v : Word) (s : State) (m : MsEntry) (k : Token) (e : Entry) (rest : List Entry)
    (ctx : Nat), (s.core a.core).canIssue = true → v.getLsbD 31 = true →
    (s.core a.core).df.ms = [m] → m.fired = true → m.tokens = [k] → k.tagOnly = false →
    ((s.core a.core).queue k.queue).vis = e :: rest → e.uid = k.uid →
    (∀ f ∈ rest, f.uid ≠ k.uid) →
    e.spill = none → s.ownerOfCore a.core = some ctx → (s.core a.core).df.unindexed = [] →
    ∃ t p, exec (.tilFireRetire a v) s = .next t ∧ ((t.core a.core).queue k.queue).vis = rest ∧
      t.net.sources = s.net.sources ++ [atSource s (tileOf a.core) p] ∧ hdrKind p = 1 ∧
      (t.core a.core).df.ms = [])

/-- PACKET_INJECT completes (06 R197 to R199, R202, R204 to R206) for the one control packet that
waits at a router with no header of its own to route. A packet for a tile of its own context
leaves on the first free productive output toward the tile's carrier: it stands in the next
router's input slot with its AGE one higher and leaves its source. A packet for another context's
tile is discarded, and so is one of a generation that has ended.

ROUTER_HEADER completes (06 R204, R205, R214, R216) with one header at the router. With no error a
header bound elsewhere takes the first free productive output, and with none free any free output
in the order of R204, which counts as a deflection, whether or not the far router has had its
cycle (the model's choice, log 30); a current channel message at its tile's carrier is handed to
the tile and a stale one is discarded. A single-bit error is corrected and counted at the tile; a
packet without data whose header cannot be corrected is discarded and counted.

STARVE completes (06 R207) at a router whose waiting packet found no way out for 256 fabric
cycles, once in 256 cycles: for each link of the router that is in its port set, the router at its
far end may start no new packet toward it in its next cycle. At any other router nothing happens;
nothing outside the networks changes.

ON_DIE_FENCE completes (06 R228, R229): the router, or the link of its one network, is out of
every port set on both ends, what stood in a fenced router and what came over a fenced link and
has not left the router at its end is lost (that it still counts as on the link is the model's
choice, log 30), and every source is held for the change of the escape tables. Every context whose
packet crossed one of those links in the last 6,144 fabric cycles takes the contained fault
NET_FENCED: it is ABORTED with its generation one higher and named in a record; every other
context goes on. Where no packet crossed one, nothing outside the networks changes. -/
def Obligations.OnDieNetwork : Prop :=
  (∀ (p : PhysId) (c : CtlPacket) (s : State) (x : Transit),
    s.net.fencedRouters.contains p.val = false → s.net.escapeHold = none →
    waitingAt s .control p = [x] → x.port < 3 → x.pkt = .control c → discarded x.pkt = false →
    ((s.ctx c.route.ctx.toNat).gen ≠ c.route.gen ∨
        s.ownerOfTile c.route.destTile.toNat ≠ some c.route.ctx.toNat →
      ∃ t, exec (.packetInject .control p) s = .next t ∧
        t = { s with net := { s.net with sources := s.net.sources.erase x } }) ∧
    (∀ d q, (s.ctx c.route.ctx.toNat).gen = c.route.gen →
      s.ownerOfTile c.route.destTile.toNat = some c.route.ctx.toNat →
      c.route.memPort = false → (s.transOf c.route.destTile.toNat).hold = false →
      (s.transOf c.route.destTile.toNat).phys < 576 →
      (s.transOf c.route.destTile.toNat).phys ≠ p.val → s.headers .control p = [] →
      (s.productive .control p (s.transOf c.route.destTile.toNat).phys).find? (outputOpen s .control p) = some d →
      stepDir d p = some q →
      ∃ t hop, exec (.packetInject .control p) s = .next t ∧
        t.net.slots = s.net.slots ++ [hop] ∧ hop.net = .control ∧ hop.at_ = q ∧
        hop.via = some (oppDir d) ∧ destOf hop.pkt = (s.transOf c.route.destTile.toNat).phys ∧
        (routeOf hop.pkt).age = (if c.route.age = 255 then 255 else c.route.age + 1) ∧
        (routeOf hop.pkt).defl = c.route.defl ∧ t.net.sources = s.net.sources.erase x ∧
        t.mem = s.mem ∧ t.tiles = s.tiles ∧ t.ctxs = s.ctxs)) ∧
  (∀ (p : PhysId) (c : CtlPacket) (s : State) (x : Transit),
    s.net.fencedRouters.contains p.val = false → s.net.escapeHold = none →
    s.headers .control p = [x] → x ∈ s.net.slots →
    x.pkt = .control c → c.route.esc = false →
    (∀ d q, destOf x.pkt ≠ p.val → stepDir d p = some q →
      (s.productive .control p (destOf x.pkt)).find? (outputTakes s .control p) = some d →
      ∃ t hop, exec (.routerHeader .control p [.none]) s = .next t ∧
        t.net.slots = s.net.slots.erase x ++ [hop] ∧ hop.at_ = q ∧ hop.via = some (oppDir d) ∧
        hop.pkt = .control { c with route := { c.route with
          age := if c.route.age = 255 then 255 else c.route.age + 1 } } ∧
        t.mem = s.mem ∧ t.tiles = s.tiles ∧ t.phys = s.phys) ∧
    (∀ d q, destOf x.pkt ≠ p.val → stepDir d p = some q →
      (∀ o ∈ s.productive .control p (destOf x.pkt), outputTakes s .control p o = false) →
      allDirs.find? (outputTakes s .control p) = some d → c.route.defl < 31 →
      ∃ t hop, exec (.routerHeader .control p []) s = .next t ∧
        t.net.slots = s.net.slots.erase x ++ [hop] ∧ hop.at_ = q ∧
        hop.pkt = .control { c with route := { c.route with
          age := if c.route.age = 255 then 255 else c.route.age + 1
          defl := c.route.defl + 1 } }) ∧
    (destOf x.pkt = p.val → c.route.memPort = false → hdrKind c = 0 →
      s.logicalOf p = some c.route.destTile.toNat →
      ∃ t, exec (.routerHeader .control p []) s = .next t ∧
        t.net.slots = s.net.slots.erase x ∧
        (s.fate c.route = .deliver → t.net.ejected = s.net.ejected ++ [c]) ∧
        (s.fate c.route ≠ .deliver → t.net.ejected = s.net.ejected) ∧ t.tiles = s.tiles) ∧
    (x.at_ = p.val →
      (∃ t, exec (.routerHeader .control p [.single]) s = .next t ∧
        (t.phy p).eccCe = min 0xFFFF ((s.phy p).eccCe + 1)) ∧
      (s.net.linkErrs = [] → (s.net.slots.filter fun y => y.net == .control && y.at_ == p.val) = [x] →
        ∃ t, exec (.routerHeader .control p [.header]) s = .next t ∧
          t.net.slots = s.net.slots.erase x ∧ t.net.fencedLinks = s.net.fencedLinks ∧
          (t.phy p).eccUe = min 0xFFFF ((s.phy p).eccUe + 1)))) ∧
  (∀ (net : Net) (p : PhysId) (s : State) (x : Transit), x ∈ s.net.sources → x.net = net →
    x.at_ = p.val → x.blocked = true → s.passed x.since 214 = true →
    ((∀ y ∈ s.net.starveAt, y.1 = net → y.2.1 = p.val → s.passed y.2.2 214 = true) →
      ∃ t, exec (.starve net p) s = .next t ∧
        t = { s with net := { s.net with starved := t.net.starved, starveAt := t.net.starveAt } } ∧
        (∀ d q, s.linkOk net p d = true → stepDir d p = some q → oppDir d ∈ t.barred net q) ∧
        (∀ y ∈ s.net.starved, y ∈ t.net.starved) ∧ (net, p.val, s.deviceTime) ∈ t.net.starveAt) ∧
    ((∃ y ∈ s.net.starveAt, y.1 = net ∧ y.2.1 = p.val ∧ s.passed y.2.2 214 = false) →
      exec (.starve net p) s = .next s)) ∧
  (∀ (u : FenceUnit) (s : State), s.isOut u = false →
    let crossed := fun (k : Nat) => ∃ x ∈ s.net.uses, s.passed x.2.2.2.2 5121 = false ∧
      (x.1, x.2.1, x.2.2.1) ∈ fenceEnds u ∧ x.2.2.2.1 = k
    ∃ t, exec (.onDieFence u) s = .next t ∧
      ((∀ k, ¬ crossed k) → t = { s with net := t.net }) ∧
      (∀ k : CtxId, crossed k → (s.ctx k).dead = false → (t.ctx k).st = .aborted ∧
        (t.ctx k).gen = (s.ctx k).gen + 1 ∧
        (s.plumb.gaffer = .running → ∃ r ∈ t.faults.log, r.2.cause = 0x0207 ∧ r.2.ctx = BitVec.ofNat 8 k ∧
          r.2.gen = (s.ctx k).gen)) ∧
      (∀ k : CtxId, ¬ crossed k → (t.ctx k).st = (s.ctx k).st ∧ (t.ctx k).gen = (s.ctx k).gen) ∧
      t.net.escapeHold = some s.deviceTime ∧
      (∀ p, u = .router p → ∀ net, (∀ d, t.linkOk net p d = false) ∧
        (∀ q d, stepDir d q = some p.val → t.linkOk net q d = false) ∧
        (∀ y, y ∈ t.net.slots ↔ y ∈ s.net.slots ∧ y.at_ ≠ p.val ∧ onLink (fenceEnds u) y = false) ∧
        (∀ y ∈ t.net.sources, y.at_ ≠ p.val)) ∧
      (∀ net p d q, u = .link net p d → stepDir d p = some q →
        t.linkOk net p d = false ∧ t.linkOk net q (oppDir d) = false ∧
        (∀ y, y ∈ t.net.slots ↔ y ∈ s.net.slots ∧ ¬ (y.net = net ∧ ((y.at_ = p.val ∧ y.via = some d) ∨
          (y.at_ = q ∧ y.via = some (oppDir d))))) ∧
        ∀ n, n ≠ net → t.linkOk n p d = s.linkOk n p d))

/-- TIL_BCNT_WRITE completes (06 R219, Table 6.8) by firmware or the network: COUNT takes the value
and a credit of the same cycle is added after it, saturating; TARGET takes its value and the
credit counts. The other counters and the counter's error bit stay.

TIL_BAR_MASK_WRITE completes (06 R223) by firmware or the network: with no arrival at either
barrier of the pair and no write held, both masks take their halves of the value; otherwise the
write is held. The hypothesis that no report of the pair stands at the roots rules out a release
by the write itself. That a write waits for an arrival of either half of the pair is the model's
reading (log 51).

Time (06 R226, 09 R321): TIME_TRIPLE, TIL_TIME_LO_READ and PLB_TIME_LO_READ complete. TIME_TRIPLE
sets the tiles' copy to device time; the copy counts on with it; a core's read of TIL_TIME_LO
writes rd and latches TIL_TIME_HI with the same reading, which lies within 8 ns of the copy; a
read of PLB_TIME_LO returns the low word and latches the high word for the same requester. Device
time itself never changes by a read. -/
def Obligations.CountersMasksAndTime : Prop :=
  (∀ (g : Agent) (t : TileId) (n : Fin 64) (v : Word) (credit : Nat) (s : State),
    g = .net ∨ g = .firmware →
    ∃ u w, exec (.tilBcntWrite g t n false v credit) s = .next u ∧
      exec (.tilBcntWrite g t n true v credit) s = .next w ∧
      ((u.tile t).counter n).count = min 0xFFFFFFFF (v.toNat + credit) ∧
      ((u.tile t).counter n).target = ((s.tile t).counter n).target ∧
      ((w.tile t).counter n).target = v.toNat ∧
      ((w.tile t).counter n).count = min 0xFFFFFFFF (((s.tile t).counter n).count + credit) ∧
      ((u.tile t).counter n).err = ((s.tile t).counter n).err ∧
      (∀ m, m ≠ n.val → (u.tile t).counter m = (s.tile t).counter m ∧
        (w.tile t).counter m = (s.tile t).counter m) ∧
      u = { s with tiles := u.tiles, cores := u.cores } ∧ w = { s with tiles := w.tiles, cores := w.cores }) ∧
  (∀ (g : Agent) (t : TileId) (j : Fin 32) (v : Word) (s : State), g = .net ∨ g = .firmware →
    (∀ k, s.ownerOfTile t = some k → Tab.get [] (s.ctx k).barAt (2 * j) = [] ∧
      Tab.get [] (s.ctx k).barAt (2 * j + 1) = []) →
    ∃ u, exec (.tilBarMaskWrite g t j v) s = .next u ∧ u = { s with tiles := u.tiles } ∧
      ((s.tile t).arrived (2 * j) = 0 → (s.tile t).arrived (2 * j + 1) = 0 → (s.tile t).heldMask = [] →
        (u.tile t).mask (2 * j) = v.extractLsb' 0 16 ∧ (u.tile t).mask (2 * j + 1) = v.extractLsb' 16 16 ∧
        ∀ b, b ≠ 2 * j.val → b ≠ 2 * j.val + 1 → (u.tile t).mask b = (s.tile t).mask b) ∧
      ((s.tile t).arrived (2 * j) ≠ 0 ∨ (s.tile t).arrived (2 * j + 1) ≠ 0 →
        (u.tile t).heldMask = (s.tile t).heldMask ++ [(j.val, v)] ∧
        (u.tile t).barMask = (s.tile t).barMask)) ∧
  ((∀ s : State, exec .timeTriple s = .next { s with tileTime := s.deviceTime, tileTimeAt := s.deviceTime }) ∧
  (∀ (a : At) (rd : XReg) (s : State), (s.core a.core).canIssue = true → rd.val ≠ 0 →
    let copy := s.tileTime + (s.deviceTime - s.tileTimeAt)
    8 ≤ copy.toNat → copy.toNat < 2 ^ 64 - 8 →
    ∃ (t : State) (now : DWord), exec (.tilTimeLoRead (.core a) (Fin.ofNat 512 (tileOf a.core)) rd) s = .next t ∧
      (t.core a.core).reg rd = now.setWidth 32 ∧
      (t.tile (tileOf a.core)).timeHi = (now >>> 32).setWidth 32 ∧
      copy.toNat ≤ now.toNat + 8 ∧ now.toNat ≤ copy.toNat + 8 ∧
      t.deviceTime = s.deviceTime ∧ (t.core a.core).pc = a.pc + (if a.short then 2 else 4)) ∧
  (∀ (f : FnId) (s : State), exec (.plbTimeLoRead (.host f)) s = .next { s with
      plumb := { s.plumb with timeHi := Tab.set s.plumb.timeHi f ((s.deviceTime >>> 32).setWidth 32) }
      out := .regData (.host f) (s.deviceTime.setWidth 32) :: s.out }) ∧
  (∀ s : State, exec (.plbTimeLoRead .bmc) s = .next { s with
      plumb := { s.plumb with timeHi := Tab.set s.plumb.timeHi 16 ((s.deviceTime >>> 32).setWidth 32) }
      out := .regData .bmc (s.deviceTime.setWidth 32) :: s.out }))

/-- Barriers (06 R223): TIL_SYNC_ARRIVE and SYNC_BAR_ARRIVE complete. TIL_SYNC_ARRIVE by a member that
is not the last of its tile records the arrival; SYNC_BAR_ARRIVE of a current message from a tile
of the context is kept at the roots until every tile with members has reported, and the last
report releases the barrier: every member core of those tiles gets BAR_REL and none keeps an
outstanding arrival.

Semaphores (06 R224): SEM_POST, SEM_WAIT and SEM_GRANT complete. SEM_POST adds N to the count of
its context, saturating at 65,535; SEM_WAIT queues one request of the core; SEM_GRANT takes one
from the count for the oldest waiting core, which sees SEM_GRANT and may wait again. Both stores
let the scalar unit go on. -/
def Obligations.BarriersAndSemaphores : Prop :=
  ((∀ (a : At) (v : Word) (s : State), (s.core a.core).canIssue = true →
    ((s.tile (tileOf a.core)).mask (bits v.toNat 5 0)).getLsbD (a.core.val % 16) = true →
    (s.core a.core).sync.barOut = none →
    (∃ i, i < 16 ∧ i ≠ a.core.val % 16 ∧
      ((s.tile (tileOf a.core)).mask (bits v.toNat 5 0)).getLsbD i = true ∧
      ((s.tile (tileOf a.core)).arrived (bits v.toNat 5 0)).getLsbD i = false) →
    ∃ t, exec (.tilSyncArrive a v) s = .next t ∧ t = { s with cores := t.cores, tiles := t.tiles } ∧
      (t.core a.core).sync.barOut = some (bits v.toNat 5 0) ∧
      (t.core a.core).pc = a.pc + (if a.short then 2 else 4) ∧
      ((t.tile (tileOf a.core)).arrived (bits v.toNat 5 0)).getLsbD (a.core.val % 16) = true ∧
      ∀ i, i ≠ a.core.val % 16 → ((t.tile (tileOf a.core)).arrived (bits v.toNat 5 0)).getLsbD i
        = ((s.tile (tileOf a.core)).arrived (bits v.toNat 5 0)).getLsbD i) ∧
  (∀ (k : CtxId) (gen : BitVec 12) (t : TileId) (b : Fin 64) (s : State), (s.ctx k).gen = gen →
    (s.ctx k).dead = false → s.owner (sectorOfTile t) = some k →
    ∃ u, exec (.syncBarArrive k gen t b) s = .next u ∧
      ((∃ x ∈ s.memberTiles k b, x ≠ t.val ∧ x ∉ Tab.get [] (s.ctx k).barAt b) →
        u = { s with ctxs := u.ctxs } ∧ t.val ∈ Tab.get [] (u.ctx k).barAt b) ∧
      (s.memberTiles k b ≠ [] → (∀ x ∈ s.memberTiles k b, x = t.val ∨ x ∈ Tab.get [] (s.ctx k).barAt b) →
        Tab.get [] (u.ctx k).barAt b = [] ∧
        ∀ x ∈ s.memberTiles k b, ∀ i, i < 16 → ((s.tile x).mask b).getLsbD i = true →
          (u.core (x * 16 + i)).sync.barRel = true ∧ (u.core (x * 16 + i)).sync.barOut = none))) ∧
  (∀ (a : At) (v : Word) (s : State) (k : Nat), (s.core a.core).canIssue = true →
    s.ownerOfCore a.core = some k →
    (exec (.semPost a v) s = .next ((s.setCtx k { s.ctx k with
        sems := Tab.set (s.ctx k).sems (bits v.toNat 5 0)
          (min 65535 (Tab.get 0 (s.ctx k).sems (bits v.toNat 5 0) + bits v.toNat 15 8)) }).setCore a.core
        ((s.core a.core).advance a.pc a.short))) ∧
    ((s.core a.core).sync.semOut = none → ∃ t, exec (.semWait a v) s = .next t ∧
      t = { s with cores := t.cores, ctxs := t.ctxs } ∧
      (t.ctx k).semWaits = (s.ctx k).semWaits ++ [(bits v.toNat 5 0, a.core.val)] ∧
      (t.core a.core).sync.semOut = some (bits v.toNat 5 0) ∧
      (t.core a.core).pc = a.pc + (if a.short then 2 else 4)) ∧
    ∀ (j : CtxId) (sem : Fin 64) (c : Nat) (before after : List (Nat × Nat)), (s.ctx j).dead = false →
      Tab.get 0 (s.ctx j).sems sem ≠ 0 → (s.ctx j).semWaits = before ++ (sem.val, c) :: after →
      (∀ w ∈ before, w.1 ≠ sem.val) → c < 8192 → s.tileIn j (tileOf c) = true →
      ∃ t, exec (.semGrant j (s.ctx j).gen sem) s = .next t ∧
        Tab.get 0 (t.ctx j).sems sem = Tab.get 0 (s.ctx j).sems sem - 1 ∧
        (t.ctx j).semWaits = before ++ after ∧ (t.core c).sync.semGrant = true ∧
        (t.core c).sync.semOut = none ∧ ∀ c', c' ≠ c → t.core c' = s.core c')

/-- Interrupts, exceptions and returns (06 R222, 12 R423, Table 12.4; the RV32 layout of the status is
log 15): MEIP_INTERRUPT, WFI, MRET and TRAP_UNHANDLED complete. MEIP_INTERRUPT enters the handler
of a core with a pending, enabled interrupt; WFI goes on while MEIP is pending and otherwise
holds; an exception at an instruction enters the handler with mepc, mcause and mtval saved; MRET
goes back to mepc and IN_TRAP clears. In each case nothing but the core changes.

TRAP_UNHANDLED and TIL_CORE_FAULT_WRITE complete. A trap with no handler, and an exception inside
a handler (12 R423), and a CODE other than zero stored to TIL_CORE_FAULT (12 R424), halt the core
and abort its context: the context is ABORTED with its generation one higher, and its record names
the core, the cause, the context and the generation that ended. A stored CODE of zero only lets
the scalar unit go on. -/
def Obligations.CoreTrapsAndFaults : Prop :=
  ((∀ (c : CoreId) (s : State), s.meip c = true → (s.core c).run = .running → (s.core c).wait = none →
    (s.core c).csr.mstatus.getLsbD 3 = true → (s.core c).csr.mie.getLsbD 11 = true →
    4 ≤ (s.core c).csr.mtvec.toNat →
    ∃ t, exec (.meipInterrupt c) s = .next t ∧ t = s.setCore c (t.core c) ∧
      (t.core c).csr.mepc = (s.core c).pc ∧ (t.core c).csr.mcause = 0x8000000B ∧
      (t.core c).csr.mstatus.getLsbD 3 = false ∧ (t.core c).csr.mstatus.getLsbD 7 = true ∧
      (t.core c).inTrap = true ∧ (t.core c).x = (s.core c).x) ∧
  (∀ (a : At) (s : State), (s.core a.core).canIssue = true →
    (s.meip a.core = true →
      exec (.wfi a) s = .next (s.setCore a.core ((s.core a.core).advance a.pc a.short))) ∧
    (s.meip a.core = false →
      exec (.wfi a) s = .next (s.setCore a.core ((s.core a.core).hold a.pc a.short .wfi))) ∧
    (∃ t, exec (.mret a) s = .next t ∧ t = s.setCore a.core (t.core a.core) ∧
      (t.core a.core).pc = (s.core a.core).csr.mepc ∧ (t.core a.core).inTrap = false ∧
      (t.core a.core).csr.mstatus.getLsbD 3 = (s.core a.core).csr.mstatus.getLsbD 7 ∧
      (t.core a.core).x = (s.core a.core).x)) ∧
  (∀ (a : At) (cause tval : Word) (s : State), (s.core a.core).canIssue = true →
    4 ≤ (s.core a.core).csr.mtvec.toNat → (s.core a.core).inTrap = false → cause.getLsbD 31 = false →
    ∃ t, exec (.trapUnhandled a cause tval) s = .next t ∧ t = s.setCore a.core (t.core a.core) ∧
      (t.core a.core).csr.mepc = a.pc ∧ (t.core a.core).csr.mcause = cause ∧
      (t.core a.core).csr.mtval = tval ∧ (t.core a.core).inTrap = true ∧
      (t.core a.core).pc = (s.core a.core).csr.mtvec &&& ~~~3#32)) ∧
  (∀ (a : At) (cause tval v : Word) (s : State) (k : Nat), (s.core a.core).canIssue = true →
    s.ownerOfCore a.core = some k → k < 16 → (s.ctx k).st = .running → s.plumb.gaffer = .running →
    (let aborts := fun (t : State) (code : Half) =>
      (t.core a.core).run = .halted ∧ (t.ctx k).st = .aborted ∧ (t.ctx k).gen = (s.ctx k).gen + 1 ∧
      (let r := Tab.get { cls := 0, cause := 0 } t.faults.log (s.faults.nextSeq.toNat % 1024)
       r.cause = code ∧ r.lcore = BitVec.ofNat 16 a.core ∧ r.ctx = BitVec.ofNat 8 k ∧ r.gen = (s.ctx k).gen)
    ((s.core a.core).csr.mtvec.toNat < 4 → ∃ t, exec (.trapUnhandled a cause tval) s = .next t ∧
      aborts t 0x0201) ∧
    (4 ≤ (s.core a.core).csr.mtvec.toNat → (s.core a.core).inTrap = true → cause.getLsbD 31 = false →
      ∃ t, exec (.trapUnhandled a cause tval) s = .next t ∧ aborts t 0x0202) ∧
    (bits v.toNat 7 0 ≠ 0 → ∃ t, exec (.tilCoreFaultWrite a v) s = .next t ∧ aborts t 0x0203 ∧
      (Tab.get { cls := 0, cause := 0 } t.faults.log (s.faults.nextSeq.toNat % 1024)).detail
        = [BitVec.ofNat 8 (bits v.toNat 7 0)]) ∧
    (bits v.toNat 7 0 = 0 → exec (.tilCoreFaultWrite a v) s
      = .next (s.setCore a.core ((s.core a.core).advance a.pc a.short)))))

/-- Kernel calls of a core (10 R366, R367, Table 10.7): TIL_KRN_NEXT and TIL_KRN_DONE complete. A load
of TIL_KRN_NEXT takes the oldest queued call: its argument registers load, RUNNING is set and rd
gets its PC; with none queued it holds. A store of TIL_KRN_DONE ends the running call; the last
core of the KERNEL completes its descriptor with OK, so that the descriptor leaves its queue and
one record reaches the completion ring.

KERNEL completes (10 R366) on a running context, with a free place at every target: it is
dispatched now and every target has one call more, of its ENTRY_PC and arguments; with a full
target queue it stays. -/
def Obligations.KernelCalls : Prop :=
  (∀ (a : At) (rd : XReg) (v : Word) (s : State), (s.core a.core).canIssue = true →
    ((s.core a.core).krn.running = none →
      (∀ (k : Call) (rest : List Call), (s.core a.core).krn.calls = k :: rest →
        exec (.tilKrnNext a rd) s = .next (s.setCore a.core ((Core.setReg { s.core a.core with
          krn := { calls := rest, pc := k.pc, args := k.args, running := some k.desc } } rd
            (k.pc.setWidth 32)).advance a.pc a.short))) ∧
      ((s.core a.core).krn.calls = [] → exec (.tilKrnNext a rd) s = .next (s.setCore a.core
        ((s.core a.core).hold a.pc a.short (.krnNext rd))))) ∧
    ∀ (f j : Nat) (d : Desc), (s.core a.core).krn.running = some d.id → s.findDesc d.id = some (f, j, d) →
      s.queue f j = { s.queue f j with descs := [d] } → d.dispatched = true → d.coresLeft = [a.core.val] →
      ∃ t, exec (.tilKrnDone a v) s = .next t ∧ (t.core a.core).krn.running = none ∧
        (t.core a.core).pc = a.pc + (if a.short then 2 else 4) ∧ (t.queue f j).descs = [] ∧
        (t.queue f j).unreturned = (s.queue f j).unreturned + 1 ∧
        (∃ rec', .hostWrite f ((s.queue f j).cqAddr + BitVec.ofNat 64 (32 * (s.queue f j).cqTail)) rec'
            ∈ t.out ∧ rec'.length = 32 ∧ field rec' 2 1 = 0 ∧ field rec' 0 2 = d.tag ∧
          field rec' 24 8 = s.deviceTime.toNat) ∧
        t = { s with cores := t.cores, queues := t.queues, out := t.out }) ∧
  (∀ (f : FnId) (slot : SlotId) (id : Nat) (d : Desc) (s : State) (cs : List Nat),
    Undispatched s f slot id 1 d → (s.ctx (s.queue f slot).ctx).st = .running →
    s.targets (s.queue f slot).ctx d = some cs →
    ((∃ c ∈ cs, 4 ≤ (s.core c).krn.calls.length) → exec (.kernel f slot id) s = .next s) ∧
    ((∀ c ∈ cs, (s.core c).krn.calls.length < 4) → cs.Nodup →
      (∀ c ∈ cs, ∀ rd, (s.core c).wait ≠ some (.krnNext rd)) →
      ∃ t, exec (.kernel f slot id) s = .next t ∧
        t.desc f slot id = some { d with dispatched := true, tStart := s.deviceTime, coresLeft := cs } ∧
        (∀ c ∈ cs, (t.core c).krn.calls
          = (s.core c).krn.calls ++ [⟨BitVec.ofNat 16 (knEntry d), knArgs d, id⟩]) ∧
        (∀ c, c ∉ cs → t.core c = s.core c) ∧ t.mem = s.mem))

/-- REGISTER_WRITE completes (00 R8, R10, Table 0.4). A core's write of a scalar register or of its
own message data takes the value, with x0 discarding it; a write one of whose bits clears an RW1C
field clears that field and no other, and an event of the same cycle sets it; a host's write of a
sequencer mask register takes its 16 bits; a write of a register that is only readable changes
nothing but a storing core's progress.

READ_TO_CLEAR completes (00 R8, R11): a core's read of TIL_NET_MISROUTE loads the count into rd
and clears it, and an event that falls into the same cycle is counted after the clear. Nothing
else of the tile changes. A read of it by firmware answers the count and clears it in the same
way. -/
def Obligations.RegisterAccess : Prop :=
  (∀ (a : At) (v e : Word) (s : State), (s.core a.core).canIssue = true →
    (∀ r : XReg, exec (.registerWrite (.core a) (.xreg r) v e) s
      = .next (s.setCore a.core (((s.core a.core).setReg r v).advance a.pc a.short))) ∧
    (∀ i, i < 4 → exec (.registerWrite (.core a) (.local (BitVec.ofNat 32 (0x40010100 + 4 * i))) v e) s
      = .next (s.setCore a.core (Core.advance { s.core a.core with
          txData := Tab.set (s.core a.core).txData i v } a.pc a.short))) ∧
    (∀ t : TileId, exec (.registerWrite .net (.device (regBase + t * 0x10000 + 0x2880)) v e) s = .next (s.setTile t
      { s.tile t with badWrite := (s.tile t).badWrite && !v.getLsbD 0 || e.getLsbD 0 })) ∧
    exec (.registerWrite (.host 0) (.bar0 0x100004) v e) s
      = .next { s with boot := { s.boot with seqSectors := v.setWidth 16 } } ∧
    (∀ (t : TileId) (n : RegionId) (o : Nat), o ∈ [0x14, 0x18, 0x1C, 0x20, 0x24] →
      exec (.registerWrite .net (.device (regBase + t * 0x10000 + 0x2000 + n * 0x40 + o)) v e) s = .next s)) ∧
  (∀ (a : At) (rd : XReg) (event : Bool) (s : State),
    ((s.core a.core).canIssue = true →
      ∃ t, exec (.readToClear (.core a) (.local 0x40000E10) event rd) s = .next t ∧
        t.tile (tileOf a.core) = { s.tile (tileOf a.core) with misroute := if event then 1 else 0 } ∧
        t.core a.core = ((s.core a.core).setReg rd
          (BitVec.ofNat 32 (s.tile (tileOf a.core)).misroute)).advance a.pc a.short ∧
        t = { s with tiles := t.tiles, cores := t.cores }) ∧
    ∀ u : TileId, ∃ t, exec (.readToClear .firmware (.device (regBase + u * 0x10000 + 0xE10)) event rd) s = .next t ∧
      t.out = .regData .firmware (BitVec.ofNat 32 (s.tile u).misroute) :: s.out ∧
      t.tile u = { s.tile u with misroute := if event then 1 else 0 } ∧
      t = { s with tiles := t.tiles, out := t.out })

/-- MEM_HOME_HOME completes (07 R235, R236) for whole granules of one tier in SECTOR mode that the
context may home: each granule of the range is HOMED to it and every other granule is as before,
every byte of a newly homed granule reads zero, every byte outside those reads as before.

MEM_HOME_RELEASE, MEM_HOME_SET_GLOBAL and MEM_HOME_SET_SECTOR complete (07 R233, R235, R244).
RELEASE takes the context's granules of the range out of HOMED and leaves the bytes; a context
that owns all sectors and has nothing homed in a tier gets the whole tier but its FIRMWARE and
RETIRED granules; leaving GLOBAL mode releases the whole tier. -/
def Obligations.MemoryHoming : Prop :=
  (∀ (src : Src) (s : State) (req : List Byte) (k a n : Nat), Fronts s src 0x0501 req →
    k = rq req 0 1 → rq req 1 1 = 0 → a = rq req 8 8 → n = rq req 4 4 → 0 < n →
    (s.homeRange req).isSome → s.isGlobal a = false →
    (∀ g, a / granuleBytes ≤ g → g < a / granuleBytes + n →
      ISet.mem (s.firmware (rqTier2 req)) g = false ∧ ISet.mem s.retired g = false) →
    ∃ (t u : State) (payload : List Byte), exec (.memHomeHome src) s = .next t ∧ t = u.answer src stOk payload ∧
      u = { popped s with ctxs := u.ctxs, tierPz := u.tierPz, poison := u.poison } ∧
      (∀ g, ISet.mem (u.ctx k).homed g
        = (ISet.mem (s.ctx k).homed g || (decide (a / granuleBytes ≤ g) && decide (g < a / granuleBytes + n)))) ∧
      (∀ j, j ≠ k → u.ctx j = s.ctx j) ∧
      (∀ l, l < spadBase → a / granuleBytes ≤ l / granuleBytes → l / granuleBytes < a / granuleBytes + n →
        ISet.mem (s.ctx k).homed (l / granuleBytes) = false → u.readByte l = 0) ∧
      (∀ l, l / granuleBytes < a / granuleBytes ∨ a / granuleBytes + n ≤ l / granuleBytes ∨
        ISet.mem (s.ctx k).homed (l / granuleBytes) = true → u.readByte l = s.readByte l)) ∧
  (∀ (src : Src) (s : State) (req : List Byte) (k : Nat), Fronts s src 0x0501 req → k = rq req 0 1 →
    (rq req 1 1 = 1 → (s.homeRange req).isSome → s.isGlobal (rq req 8 8) = false →
      ∃ (u : State) (payload : List Byte), exec (.memHomeRelease src) s = .next (u.answer src stOk payload) ∧
        u.mem = s.mem ∧ ∀ g, ISet.mem (u.ctx k).homed g = (ISet.mem (s.ctx k).homed g &&
          !(decide (rq req 8 8 / granuleBytes ≤ g) && decide (g < rq req 8 8 / granuleBytes + rq req 4 4)))) ∧
    (rq req 1 1 = 2 → (s.ctx k).isGlobal (rqTier2 req) = false → (s.ctx k).sectors = 0xFFFF →
      s.tierHomed k (rqTier2 req) = [] →
      ∃ (u : State) (payload : List Byte), exec (.memHomeSetGlobal src) s = .next (u.answer src stOk payload) ∧
        (u.ctx k).isGlobal (rqTier2 req) = true ∧
        ∀ sec g, sec < 16 → (sectorGranules (rqTier2 req) sec).1 ≤ g → g < (sectorGranules (rqTier2 req) sec).2 →
          ISet.mem (u.ctx k).homed g
            = !(ISet.mem (s.firmware (rqTier2 req)) g || ISet.mem s.retired g)) ∧
    (rq req 1 1 = 3 → (s.ctx k).isGlobal (rqTier2 req) = true →
      ∃ (u : State) (payload : List Byte), exec (.memHomeSetSector src) s = .next (u.answer src stOk payload) ∧
        (u.ctx k).isGlobal (rqTier2 req) = false ∧ u.mem = s.mem ∧
        ∀ sec g, sec < 16 → (sectorGranules (rqTier2 req) sec).1 ≤ g → g < (sectorGranules (rqTier2 req) sec).2 →
          ISet.mem (u.ctx k).homed g = false))

/-- SECTOR_STORE_REQUEST completes (07 R237, R240 to R242, R250) for a current context at a serving
sector, for bytes of one line homed to the context. The line comes to stand first in its set, also
where a read is answered POISONED, dirty after a write, and of a full set the least recently used
line leaves. A write stores exactly its bytes and posts one ACK of its bytes with status OK to the
engine's place; a poisoned write poisons the line and its ACK says POISONED; a read posts one
READ_RSP with the bytes; a read of a poisoned line is answered POISONED without data; a write to a
granule that is not homed to the context changes no byte, and its ACK says INVALID_ARG.

Upkeep of the memory channels in service (01 R35, 07 R243 to R245, Table 11.10): PATROL_SCRUB,
ROW_REPAIR, RECALIBRATION and LIVE_RETRAIN complete. A corrected line counts one CE and an
uncorrectable one one UE and is poisoned; a repaired row counts one ROW_REPAIR, and with no spare
row its granule is marked for retirement; a recalibration and a successful live retrain keep every
byte.

BACKGROUND_ZERO_GRANULE completes (07 R236, R242): the 4 KiB unit is no longer pending, none of
its lines is poisoned, and no byte of the device reads otherwise than before.

BACKGROUND_ZERO_TILE completes (10 R379): zeroing a pending unit clears its bit and changes
nothing that a read returns. -/
def Obligations.SectorStoreAndZeroing : Prop :=
  (∀ (r : StoreRequest) (s : State) (n : Nat), (s.addrKind r.addr).isTier = true → 0 < n →
    r.addr % 128 + n ≤ 128 → s.homeFenced r.addr = false → s.owns r.ctx (s.homeSector r.addr) = true →
    r.gen = (s.ctx r.ctx).gen → Cells.wf s.mem = true →
    (∀ bs, r.data = some bs → bs.length = n → r.poisoned = false → s.isHomed r.ctx (s.loc r.addr) = true →
      ∃ t p, exec (.sectorStoreRequest r) s = .next t ∧
        (List.range n).map (fun i => t.readByte (s.loc r.addr + i)) = bs ∧
        (∀ l, populated l → l < s.loc r.addr ∨ s.loc r.addr + n ≤ l → t.readByte l = s.readByte l) ∧
        t.net.sources = s.net.sources ++ [p] ∧ IsStoreAck s p r.addr r.engine r.place n stOk ∧
        t.cores = s.cores ∧ t.priv = s.priv ∧ LineUsed s t (s.loc r.addr) true) ∧
    (∀ bs, r.data = some bs → bs.length = n → r.poisoned = true → s.isHomed r.ctx (s.loc r.addr) = true →
      ∃ t p, exec (.sectorStoreRequest r) s = .next t ∧ ISet.mem t.poison (s.loc r.addr / 128) = true ∧
        (∀ l, populated l → t.readByte l = s.readByte l) ∧
        t.net.sources = s.net.sources ++ [p] ∧ IsStoreAck s p r.addr r.engine r.place n stPoisoned ∧
        LineUsed s t (s.loc r.addr) true) ∧
    (r.data = none → r.len = n → s.isHomed r.ctx (s.loc r.addr) = true →
      ∃ t p, exec (.sectorStoreRequest r) s = .next t ∧
        t = { s with net := { s.net with sources := s.net.sources ++ [p] }, caches := t.caches } ∧
        LineUsed s t (s.loc r.addr) false ∧
        ∃ b, p.pkt = .bulk b ∧ b.kind = 2 ∧ b.addr.toNat = stagingAddr r.engine r.place ∧ b.bytes.toNat = n ∧
          (ISet.mem s.poison (s.loc r.addr / 128) = false → b.status = 0 ∧ b.data = s.readTier r.addr n) ∧
          (ISet.mem s.poison (s.loc r.addr / 128) = true → b.status = 1 ∧ b.data = [])) ∧
    (∀ bs, r.data = some bs → bs.length = n → s.isHomed r.ctx (s.loc r.addr) = false →
      ∃ p, exec (.sectorStoreRequest r) s = .next
        { s with net := { s.net with sources := s.net.sources ++ [p] } } ∧
        IsStoreAck s p r.addr r.engine r.place n stInvalidArg)) ∧
  (∀ (s : State) (ch : ChannelId) (line g : Nat),
    ((s.addrKind (line * 128)).isTier = true → s.channelOn (placeChannel (line * 128)) = true →
      exec (.patrolScrub line .corrected) s
        = .next (s.modChannel (placeChannel (line * 128)) fun c => { c with ce := min 0xFFFF (c.ce + 1) }) ∧
      (ISet.mem s.poison line = false → ∃ t, exec (.patrolScrub line .uncorrectable) s = .next t ∧
        t = { s with channels := t.channels, poison := t.poison } ∧
        (t.channel (placeChannel (line * 128))).ue
          = min 0xFFFF ((s.channel (placeChannel (line * 128))).ue + 1) ∧
        ∀ x, ISet.mem t.poison x = (ISet.mem s.poison x || x == line))) ∧
    (s.plumb.gaffer = .running → (s.addrKind (g * granuleBytes)).isTier = true →
      placeSector (g * granuleBytes) = channelSector ch →
      inTier2 (g * granuleBytes) = decide (128 ≤ ch.val) →
      s.channelOn ch = true →
      exec (.rowRepair ch g true) s
        = .next (s.modChannel ch fun c => { c with rowRepair := min 0xFFFF (c.rowRepair + 1) }) ∧
      (ISet.mem s.retired g = false → ∃ t, exec (.rowRepair ch g false) s = .next t ∧
        t = { s with retireMark := t.retireMark } ∧
        ∀ x, ISet.mem t.retireMark x = (ISet.mem s.retireMark x || x == g))) ∧
    (s.channelOn ch = true →
      exec (.recalibration ch) s
        = .next (s.modChannel ch fun c => { c with lastRecal := s.deviceTime }) ∧
      ((s.sector (channelSector ch)).st.inService = true → exec (.liveRetrain ch true) s
        = .next (s.modChannel ch fun c => { c with retrain := min 0xFFFF (c.retrain + 1) })))) ∧
  (∀ (u : Nat) (s : State), u * 4096 < spadBase → ISet.mem s.tierPz u = true →
    ∃ t, exec (.backgroundZeroGranule u) s = .next t ∧ ISet.mem t.tierPz u = false ∧
      (∀ x, x ≠ u → ISet.mem t.tierPz x = ISet.mem s.tierPz x) ∧ (∀ l, t.readByte l = s.readByte l) ∧
      (∀ x, ISet.mem t.poison x = (ISet.mem s.poison x && x / 32 != u)) ∧
      t = { s with mem := t.mem, scrambled := t.scrambled, tierPz := t.tierPz, poison := t.poison }) ∧
  (∀ (tl : TileId) (u : ZeroUnit) (s : State), ∃ t, exec (.backgroundZeroTile tl u) s = .next t ∧
    (∀ x, populated x → t.readByte x = s.readByte x) ∧
    (∀ c off, off < 65536 → t.readPriv c off = s.readPriv c off) ∧
    (∀ c k, k < 16 → t.slot c k = s.slot c k) ∧ t.cores = s.cores ∧
    (∀ kib, u = .spad kib → kib < 3072 → ISet.mem t.spadPz (spadUnit tl.val (kib * 1024)) = false))

/-- DMA and DMA_ACK complete: a DMA descriptor of one row of one packet and its acknowledgement (07
R247 to R251, R254, Table 7.6). From tier memory of the engine's sector, homed to the context, to
a tile the engine posts one WRITE with the row's bytes, whose RADDR lies in the half of its
staging window for the place; to homed tier memory of its own sector it writes the bytes itself
and its record says OK; from a tile it posts one READ_REQ. The place then holds the descriptor
until the last acknowledgement of a WRITE completes it with OK, writes its record and frees the
place.

A WRITE of an engine that ejects at the tile it is bound for (06 R214, R217; 07 R250):
ROUTER_HEADER of the tile's router writes its bytes in an enabled region of the context, credits
the tile's byte counter with them and posts one acknowledgement to the engine's place; every other
byte reads as before.

TILEFEED and TILEFEED_SCALE_WRITE complete (07 R252, R254). A visit claims 4 x ROW_BYTES words at
the head of REGION of its tile and posts WRITEs of its rows, of a source in the engine's own
sector, that credit the tile's byte counter: in order they carry the sixteen rows' bytes to the
claimed words, all of them while the 64 requests of the engine suffice, as they do for rows of up
to 512 bytes; the acknowledgement of the last one commits the claim, so that HEAD passes over the
strip, and completes the descriptor with OK. TILEFEED_SCALE_WRITE posts the WRITEs of the scale
strip that waits once its slot is free, which carry the sixteen rows of scales to the strip's
bytes, and until then does nothing. -/
def Obligations.DmaAndTilefeed : Prop :=
  ((∀ (f : FnId) (slot : SlotId) (id e i n a : Nat) (d : Desc) (s : State),
    TakesPlace s f slot id 2 d e i → s.dmaOk (s.queue f slot).ctx d = true → dmRows d = 1 →
    dmRowBytes d = n → 0 < n → dmFlags d = 0 → dmSrc d = a →
    (∀ t off, (s.addrKind a).isTier = true → a % 512 + n ≤ 512 → s.homeFenced a = false →
      s.isHomed (s.queue f slot).ctx (s.loc a) = true → s.isPoisoned a n = false →
      dmDst d = spadAddr t off → t < 512 → off + n ≤ 0x300000 → off % 512 + n ≤ 512 →
      ∃ u x b, exec (.dma f slot id) s = .next u ∧ u.net.sources = s.net.sources ++ [x] ∧ x.net = .bulk ∧
        x.port = 2 ∧ x.pkt = .bulk b ∧ b.kind = 0 ∧ b.addr.toNat = dmDst d ∧ b.data = s.readTier a n ∧
        b.bytes.toNat = n ∧ b.last = true ∧ b.bcnt.toNat = dmBcnt d ∧ b.route.destTile.toNat = t ∧
        b.route.ctx.toNat = (s.queue f slot).ctx % 16 ∧ stagingPlace b.raddr.toNat = (e, i) ∧ u.mem = s.mem ∧
        (u.place e i).desc = some (f.val, slot.val, id) ∧ (u.place e i).unacked = n ∧
        (u.place e i).status = stOk ∧ u.priv = s.priv) ∧
    ((s.addrKind a).isTier = true → a % 512 + n ≤ 512 → s.homeFenced a = false →
      s.isHomed (s.queue f slot).ctx (s.loc a) = true → s.isPoisoned a n = false →
      (s.addrKind (dmDst d)).isTier = true → dmDst d % 512 + n ≤ 512 → s.homeSector (dmDst d) = s.homeSector a →
      s.isHomed (s.queue f slot).ctx (s.loc (dmDst d)) = true → (dmDst d + n ≤ a ∨ a + n ≤ dmDst d) →
      Cells.wf s.mem = true →
      ∃ u, exec (.dma f slot id) s = .next u ∧ u.readTier (dmDst d) n = s.readTier a n ∧
        (∀ l, populated l → l < s.loc (dmDst d) ∨ s.loc (dmDst d) + n ≤ l → u.readByte l = s.readByte l) ∧
        (u.place e i).desc = none ∧ Completed s u f slot d stOk ∧ u.net = s.net) ∧
    (∀ t off, a = spadAddr t off → t < 512 → off + n ≤ 0x300000 → off % 512 + n ≤ 512 →
      (s.addrKind (dmDst d)).isTier = true → dmDst d % 512 + n ≤ 512 →
      ∃ u x b, exec (.dma f slot id) s = .next u ∧ u.net.sources = s.net.sources ++ [x] ∧ x.net = .bulk ∧
        x.pkt = .bulk b ∧ b.kind = 1 ∧ b.addr.toNat = a ∧ b.bytes.toNat = n ∧ b.route.destTile.toNat = t ∧
        stagingPlace b.raddr.toNat = (e, i) ∧ u.mem = s.mem ∧
        (u.place e i).desc = some (f.val, slot.val, id) ∧ (u.place e i).reads.length = 1)) ∧
  (∀ (p : CtlPacket) (s : State) (f j id e i n : Nat) (d : Desc), IsAck s p e i n →
    LastAckDue s e i f j id d n → d.type = 2 → dmaOverlaps d = false → dmFlags d = 0 →
    (s.place e i).claims = [] →
    ∃ u, exec (.dmaAck p) s = .next u ∧ u.desc f j id = none ∧ (u.place e i).desc = none ∧
      (u.queue f j).unreturned = (s.queue f j).unreturned + 1 ∧ u.mem = s.mem ∧
      ∃ addr rec', .hostWrite f addr rec' ∈ u.out ∧ field rec' 0 2 = d.tag ∧ field rec' 2 1 = stOk)) ∧
  (∀ (p : PhysId) (b : BulkPacket) (s : State) (x : Transit) (t off : Nat),
    s.net.fencedRouters.contains p.val = false → s.net.escapeHold = none →
    s.headers .bulk p = [x] → x ∈ s.net.slots → x.pkt = .bulk b → destOf x.pkt = p.val →
    b.route.memPort = false → b.route.destTile.toNat = t → s.logicalOf p = some t →
    b.kind = 0 → b.cast = 0 → b.status = 0 → b.addr.toNat = spadAddr t off → off + b.data.length ≤ 0x300000 →
    b.bytes.toNat = b.data.length → inStaging b.raddr.toNat = true → s.fate b.route = .deliver →
    s.runReaches b.route.ctx.toNat t off b.data.length = true → s.tileFenced t = false → Cells.wf s.mem = true →
    ∃ u y c, exec (.routerHeader .bulk p []) s = .next u ∧
      (List.range b.data.length).map (fun i => u.readByte (spadAddr t off + i)) = b.data ∧
      (∀ l, populated l → l < spadAddr t off ∨ spadAddr t off + b.data.length ≤ l → u.readByte l = s.readByte l) ∧
      ((u.tile t).counter b.bcnt.toNat).count
        = min 0xFFFFFFFF (((s.tile t).counter b.bcnt.toNat).count + b.data.length) ∧
      u.net.slots = s.net.slots.erase x ∧ u.net.sources = s.net.sources ++ [y] ∧ y.pkt = .control c ∧
      hdrKind c = 5 ∧ bits c.header.toNat 9 7 = 0 ∧ bits c.header.toNat 29 26 = stOk ∧
      ackBytes c.header.toNat = b.data.length ∧
      (bits c.header.toNat 14 10, bits c.header.toNat 15 15) = stagingPlace b.raddr.toNat) ∧
  ((∀ (f : FnId) (slot : SlotId) (id e i n : Nat) (d : Desc) (s : State) (r : Region),
    TakesPlace s f slot id 3 d e i →
    s.feedOk (s.queue f slot).ctx d = true → tfMb d = 1 → tfNb d = 1 → tfTiles d = 1 →
    tfFlags d = 0 → tfRowBytes d = n → 0 < n → s.region (tfFirst d) (tfRegion d) = r →
    r.circular = true → r.pClaims = [] → r.pWait = [] → r.held = [] →
    4 * n + fill r.size r.rhead r.tail ≤ r.size → r.rhead.off < r.size →
    r.base + r.size ≤ 786432 →
    (∀ q, q < 16 → ∀ x, tfSrc d + q * tfSrcStride d ≤ x → x < tfSrc d + q * tfSrcStride d + n →
      s.homeFenced x = false ∧ s.homeSector x = e / 2 ∧ s.isHomed (s.queue f slot).ctx (s.loc x) = true) →
    s.poison = [] →
    ∃ u k xs, exec (.tilefeed f slot id) s = .next u ∧
      (u.region (tfFirst d) (tfRegion d)).rhead = r.rhead.adv r.size (4 * n) ∧
      (u.region (tfFirst d) (tfRegion d)).head = r.head ∧
      (u.region (tfFirst d) (tfRegion d)).pClaims = [k] ∧ k.words = 4 * n ∧ k.start = r.rhead ∧
      u.net.sources = s.net.sources ++ xs ∧ xs ≠ [] ∧
      (∀ x ∈ xs, ∃ b, x.pkt = .bulk b ∧ b.kind = 0 ∧ b.bcnt.toNat = tfBcnt d ∧ b.status = 0 ∧
        b.bytes.toNat = b.data.length ∧ b.route.destTile.toNat = tfFirst d ∧
        stagingPlace b.raddr.toNat = (e, i)) ∧
      (let strip := (List.range (16 * n)).map fun j =>
         (spadAddr (tfFirst d) (4 * (r.base + (r.rhead.off + j / 4) % r.size) + j % 4),
          s.readByte (s.loc (tfSrc d + j / n * tfSrcStride d + j % n)))
       carried xs <+: strip ∧ (n ≤ 512 → s.outstanding e = 0 → carried xs = strip)) ∧
      (u.place e i).writes = xs.map (fun _ => 1) ∧ (u.place e i).unacked = (carried xs).length ∧
      (u.place e i).desc = some (f.val, slot.val, id) ∧ (u.place e i).claims.length = 1 ∧ u.mem = s.mem) ∧
  (∀ (p : CtlPacket) (s : State) (f j id e i n : Nat) (d : Desc) (c : ClaimRef) (k : Claim), IsAck s p e i n →
    LastAckDue s e i f j id d n → d.type = 3 → tfFlags d = 0 → (s.place e i).claims = [c] →
    c.tile = tfTile d (s.place e i).row → c.region = tfRegion d → c.side = .producer →
    (s.region c.tile c.region).pClaims = [k] → k.id = c.id →
    ∃ u, exec (.dmaAck p) s = .next u ∧
      (u.region c.tile c.region).head
        = (s.region c.tile c.region).head.adv (s.region c.tile c.region).size k.words ∧
      (u.region c.tile c.region).pClaims = [] ∧ u.desc f j id = none ∧ (u.place e i).desc = none ∧
      (u.queue f j).unreturned = (s.queue f j).unreturned + 1 ∧ u.mem = s.mem ∧
      ∃ addr rec', .hostWrite f addr rec' ∈ u.out ∧ field rec' 0 2 = d.tag ∧ field rec' 2 1 = stOk) ∧
  (∀ (e : EngineId) (i : Fin 2) (s : State) (k v : Nat) (d : Desc) (start : Ptr),
    s.placeDesc e i = some (k, d) → d.type = 3 → (s.place e i).paused = false → (s.place e i).rowsDone = false →
    (s.place e i).scaleDue = some (v, start) → (s.place e i).row < rowCount d →
    (s.scaleFree e i d v = false → exec (.tilefeedScaleWrite e i) s = .next s) ∧
    (s.scaleFree e i d v = true → (s.place e i).pkt = 0 → s.outstanding e = 0 → 0 < tfScaleRow d →
      (∀ q, q < 16 → ∀ x, tfScaleSrc d + (16 * tfBlock d v + q) * tfScaleStride d ≤ x →
        x < tfScaleSrc d + (16 * tfBlock d v + q) * tfScaleStride d + tfScaleRow d →
        (s.addrKind x).isTier = true ∧ s.homeFenced x = false ∧ s.homeSector x = e / 2 ∧
        s.isHomed k (s.loc x) = true) → s.poison = [] →
      ∃ u xs, exec (.tilefeedScaleWrite e i) s = .next u ∧ u.net.sources = s.net.sources ++ xs ∧ xs ≠ [] ∧
        (∀ x ∈ xs, ∃ b, x.pkt = .bulk b ∧ b.kind = 0 ∧ b.status = 0 ∧ b.bytes.toNat = b.data.length ∧
          b.bcnt.toNat = tfBcnt d % 64 ∧ stagingPlace b.raddr.toNat = (e.val, i.val)) ∧
        (let strip := (List.range (16 * tfScaleRow d)).map fun j =>
           (spadAddr (tfTile d v) (s.scaleAddr d v + j),
            s.readByte (s.loc (tfScaleSrc d + (16 * tfBlock d v + j / tfScaleRow d) * tfScaleStride d
              + j % tfScaleRow d)))
         carried xs <+: strip ∧ (tfScaleRow d ≤ 512 → carried xs = strip)) ∧
        (u.place e i).writes = (s.place e i).writes ++ xs.map (fun _ => 1) ∧
        (u.place e i).scaleDue = some (v, start) ∧ (u.place e i).desc = (s.place e i).desc ∧
        u.mem = s.mem ∧ u.priv = s.priv)))

/-- Stores to TIL_ATOM_CMD (07 R258, R259, Table 7.9): ATOM_FADD, ATOM_CSWAP, ATOM_SMIN, ATOM_SMAX,
ATOM_UMIN, ATOM_UMAX, ATOM_CLAIM, ATOM_COMMIT, ATOM_RETRY and TIL_ATOM_RES_LO_LOAD complete. With
BUSY clear, an address of a tier word of the context and RETRY 0, each of the eight operations
sets BUSY, flips the toggle of the home sector, keeps the request and posts one control packet
with the new toggle; RETRY posts the last request again with its own toggle; while BUSY, each
holds the scalar unit. A load of TIL_ATOM_RES_LO reads the result when not BUSY and holds
otherwise.

ATOM_RSP and ATOM_REISSUE_TIMEOUT complete (07 R258, R259): the response of the outstanding
request, known by its toggle, gives RES and STATUS and clears BUSY; a request without a response
is posted again, at most three times, and then ends with TIMEOUT. The core holds nothing else. -/
def Obligations.AtomicUnit : Prop :=
  (∀ (a : At) (v : Word) (s : State) (u : AtomUnit), (s.core a.core).canIssue = true →
    (s.core a.core).atom = u →
    (v.toNat % 8 < 8 → v.getLsbD 4 = false → u.busy = false →
      s.atomRefused a.core u (v.getLsbD 3) = false →
      ∃ t p, exec (atomInstr a v (v.toNat % 8)) s = .next t ∧
        (t.core a.core).atom.busy = true ∧ (t.core a.core).atom.tries = 0 ∧
        (t.core a.core).atom.toggles = u.toggles ^^^ oneBit 16 (s.homeSector u.addr.toNat) ∧
        (t.core a.core).atom.last = some ⟨v.setWidth 3, v.getLsbD 3, u.addr, u.opA, u.opB,
          !u.toggles.getLsbD (s.homeSector u.addr.toNat)⟩ ∧
        t.net.sources = s.net.sources ++ [atSource s (tileOf a.core) p] ∧ hdrKind p = 5 ∧
        rqTgl p.header.toNat = !u.toggles.getLsbD (s.homeSector u.addr.toNat) ∧
        rqCore p.header.toNat = a.core.val ∧ (t.core a.core).pc = a.pc + (if a.short then 2 else 4) ∧
        t.mem = s.mem) ∧
    (∀ q, v.getLsbD 4 = true → u.busy = false → u.last = some q → ∃ t p,
      exec (.atomRetry a v) s = .next t ∧ (t.core a.core).atom = { u with busy := true, tries := 0 } ∧
        t.net.sources = s.net.sources ++ [atSource s (tileOf a.core) p] ∧
        rqTgl p.header.toNat = q.tgl) ∧
    (v.getLsbD 4 = true → u.busy = false → u.last = none → exec (.atomRetry a v) s
      = .next (s.setCore a.core (Core.advance { s.core a.core with
          atom := { u with status := BitVec.ofNat 4 stInvalidArg } } a.pc a.short))) ∧
    (u.busy = true → v.getLsbD 4 = false → exec (atomInstr a v (v.toNat % 8)) s
      = .next (s.setCore a.core ((s.core a.core).hold a.pc a.short (.atomCmd v)))) ∧
    (∀ rd : XReg, (u.busy = false → exec (.tilAtomResLoLoad a rd) s = .next (s.setCore a.core
        (((s.core a.core).setReg rd (u.res.setWidth 32)).advance a.pc a.short))) ∧
      (u.busy = true → exec (.tilAtomResLoLoad a rd) s
        = .next (s.setCore a.core ((s.core a.core).hold a.pc a.short (.atomRes rd)))))) ∧
  ((∀ (p : CtlPacket) (s : State) (q : AtomLast), s.fate p.route = .deliver → hdrKind p = 5 →
    bits p.header.toNat 9 7 = 3 → (s.core (rqCore p.header.toNat)).atom.busy = true →
    (s.core (rqCore p.header.toNat)).atom.last = some q → q.tgl = rqTgl p.header.toNat →
    (s.core (rqCore p.header.toNat)).wait = none →
    ∃ t, exec (.atomRsp p) s = .next t ∧
      (t.core (rqCore p.header.toNat)).atom.busy = false ∧
      (t.core (rqCore p.header.toNat)).atom.status.toNat = bits p.header.toNat 27 24 ∧
      (t.core (rqCore p.header.toNat)).atom.res.toNat = p.word0.toNat + 2 ^ 32 * p.word1.toNat ∧
      (t.core (rqCore p.header.toNat)).atom.toggles = (s.core (rqCore p.header.toNat)).atom.toggles ∧
      t = { s.takeCtl p with cores := t.cores }) ∧
  (∀ (c : CoreId) (s : State) (q : AtomLast), (s.core c).atom.busy = true →
    (s.core c).atom.last = some q → (s.core c).wait = none →
    ((s.core c).atom.tries < 3 → ∃ t p, exec (.atomReissueTimeout c) s = .next t ∧
      (t.core c).atom = { (s.core c).atom with tries := (s.core c).atom.tries + 1 } ∧
      t.net.sources = s.net.sources ++ [atSource s (tileOf c) p] ∧ rqTgl p.header.toNat = q.tgl) ∧
    (3 ≤ (s.core c).atom.tries → exec (.atomReissueTimeout c) s = .next (s.setCore c { s.core c with
      atom := { (s.core c).atom with busy := false, status := BitVec.ofNat 4 stTimeout } }))))

/-- ATOM_REQ and ATOM_CAS64 complete: the store's answer to a core's atomic of a word or doubleword
(07 R256, R257, R260, Tables 7.5 and 7.8) that is homed to the context on a line that is not
poisoned. A new request is applied as one read-modify-write, its result is the value before, the
replay entry of the core holds it and one response with it and STATUS OK is posted; a request
whose toggle equals its entry's is answered with the entry's result and STATUS and changes no
byte. ATOM_CAS64 writes the swap value exactly when the doubleword equals the compare value.

ATOMIC_REQ completes (07 R257): an engine's 64-bit fetch-and-add at a homed doubleword on a clean
line is applied, and one ATOMIC_RSP with the value before is posted. One with STATUS POISONED (06
R216) changes no byte and is answered INVALID_ARG (the model's choice, log 69).

ATOM_REQ with OP CLAIM or COMMIT completes on a work counter (07 R261, R262) whose object and item
records are homed to the context on one sector. While items are left a CLAIM answers NEXT, which
goes one higher, and the lease of that item runs from now for LEASE_US microseconds. After the
last item a CLAIM whose first item not seen committed has a lease that ran out answers that item
with bit 32, renews its lease and counts it as reissued; with every item seen committed it answers
2^62. A COMMIT of an item sets its COMMITTED and answers 0; of a committed one it answers 1 and
counts a duplicate; of an item at or past LIMIT it answers INVALID_ARG and changes no byte. The
other fields and items stay. -/
def Obligations.MemoryAtomics : Prop :=
  (∀ (p : CtlPacket) (s : State) (a n : Nat), s.fate p.route = .deliver → hdrKind p = 5 →
    (s.addrKind a).isTier = true → s.isHomed p.route.ctx.toNat (s.loc a) = true →
    ISet.mem s.poison (s.loc a / 128) = false → Cells.wf s.mem = true →
    (NewRequest s p →
      (bits p.header.toNat 9 7 = 1 → p.word3.toNat % 8 < 6 →
        (bits p.word3.toNat 3 3 = 1 ∧ bits p.word3.toNat 4 4 = 0 ∧ n = 8 ∧ a = rqAddr p ∨
          bits p.word3.toNat 3 3 = 0 ∧ n = 4 ∧ a = rqAddr p + 4 * bits p.word3.toNat 4 4) →
        ∃ t, exec (.atomReq p) s = .next t ∧
        (let old := s.tierNat a n
         let v := (p.word0.toNat + 2 ^ 32 * p.word1.toNat) % 2 ^ (8 * n)
         t.tierNat a n = (match p.word3.toNat % 8 with
            | 0 => (old + v) % 2 ^ (8 * n)
            | 1 => if old = v then p.word2.toNat else old
            | 2 => if signed (8 * n) v < signed (8 * n) old then v else old
            | 3 => if signed (8 * n) old < signed (8 * n) v then v else old
            | 4 => min old v
            | _ => max old v) ∧
         (∀ l, populated l → l < s.loc a ∨ s.loc a + n ≤ l → t.readByte l = s.readByte l) ∧
         AtomAnswered s t p stOk old) ∧ t.cores = s.cores ∧ t.priv = s.priv) ∧
      (bits p.header.toNat 9 7 = 2 → a = rqAddr p → ∃ t, exec (.atomCas64 p) s = .next t ∧
        t.tierNat a 8 = (if s.tierNat a 8 = p.word0.toNat + 2 ^ 32 * p.word1.toNat
          then p.word2.toNat + 2 ^ 32 * p.word3.toNat else s.tierNat a 8) ∧
        AtomAnswered s t p stOk (s.tierNat a 8))) ∧
    (∀ r, s.replay.find? (fun r => r.1 == sectorOfTile p.route.destTile.toNat * 8192 + rqCore p.header.toNat
        && r.2.tgl == rqTgl p.header.toNat) = some r →
      ∃ x, IsAtomRsp x (rqCore p.header.toNat) (rqTgl p.header.toNat) r.2.status.toNat r.2.res.toNat ∧
        (let t := { s.takeCtl p with
          net := { (s.takeCtl p).net with sources := (s.takeCtl p).net.sources ++ [x] } }
        (bits p.header.toNat 9 7 = 1 → exec (.atomReq p) s = .next t) ∧
        (bits p.header.toNat 9 7 = 2 → exec (.atomCas64 p) s = .next t)))) ∧
  ((∀ (p : BulkPacket) (s : State), p.kind = 3 → p.status = 0 → s.fate p.route = .deliver → p.nflits = 1 →
    p.bytes = 24 → p.data.length = 24 → field p.data 0 8 = 8 → (s.addrKind p.addr.toNat).isTier = true →
    p.addr.toNat % 8 = 0 → s.isHomed p.route.ctx.toNat (s.loc p.addr.toNat) = true →
    ISet.mem s.poison (s.loc p.addr.toNat / 128) = false → Cells.wf s.mem = true →
    ∃ t x b, exec (.atomicReq p) s = .next t ∧
      t.tierNat p.addr.toNat 8 = (s.tierNat p.addr.toNat 8 + field p.data 8 8) % 2 ^ 64 ∧
      t.net.sources = (s.takeBulk p).net.sources ++ [x] ∧ x.pkt = .bulk b ∧ b.kind = 4 ∧
      b.status = 0 ∧ leVal b.data = s.tierNat p.addr.toNat 8 ∧ b.addr = p.raddr ∧ t.cores = s.cores) ∧
  (∀ (p : BulkPacket) (s : State), p.kind = 3 → p.status ≠ 0 → s.fate p.route = .deliver →
    ∃ t x b l, exec (.atomicReq p) s = .next t ∧ (∀ a, t.readByte a = s.readByte a) ∧
      t.net.sources = (s.takeBulk p).net.sources ++ x :: l ∧ x.pkt = .bulk b ∧ b.kind = 4 ∧
      b.status = bulkStatus stInvalidArg ∧ b.addr = p.raddr)) ∧
  (∀ (s : State) (p : CtlPacket) (a limit i lo hi : Nat), NewRequest s p → bits p.header.toNat 9 7 = 1 →
    bits p.word3.toNat 3 3 = 1 → bits p.word3.toNat 4 4 = 0 → rqAddr p = a → a % 64 = 0 →
    ((lo, hi) = (0, tier1Size) ∨ (s.hasTier2 = true ∧ (lo, hi) = (tier2Base, tier2Base + tier2Size))) →
    lo ≤ a → a + 64 ≤ hi → s.allHomed p.route.ctx.toNat a 64 = true →
    s.counterOk p.route.ctx.toNat a = true → limit = s.tierNat (a + 4) 4 →
    lo ≤ s.tierNat (a + 0x10) 8 → s.tierNat (a + 0x10) 8 + 8 * limit ≤ hi →
    (a + 64 ≤ s.tierNat (a + 0x10) 8 ∨ s.tierNat (a + 0x10) 8 + 8 * limit ≤ a) →
    s.poison = [] → Cells.wf s.mem = true → i = p.word0.toNat + 2 ^ 32 * p.word1.toNat →
    ∃ t, exec (.atomReq p) s = .next t ∧
      (let lease := fun (j : Nat) => recExpiry (t.item a j)
        = (s.deviceTime.toNat + 1000 * s.tierNat (a + 8) 4) % 2 ^ 63 ∧
        recCommitted (t.item a j) = recCommitted (s.item a j)
      let others := fun (j : Nat) => ∀ x, x < limit → x ≠ j → t.item a x = s.item a x
      let fields := fun (os : List Nat) => ∀ o ∈ os, t.tierNat (a + o) 4 = s.tierNat (a + o) 4
      let next := s.tierNat a 4
      let first := s.tierNat (a + 0xC) 4
      (p.word3.toNat % 8 = 6 → next < limit → AtomAnswered s t p stOk next ∧ t.tierNat a 4 = next + 1 ∧
        lease next ∧ others next ∧ fields [4, 8, 0xC, 0x10, 0x14, 0x18, 0x1C]) ∧
      (p.word3.toNat % 8 = 6 → limit ≤ next → first < limit → recCommitted (s.item a first) = false →
        recExpiry (s.item a first) ≤ s.deviceTime.toNat → AtomAnswered s t p stOk (first + 2 ^ 32) ∧ lease first ∧
        others first ∧ t.tierNat (a + 0x18) 4 = min 0xFFFFFFFF (s.tierNat (a + 0x18) 4 + 1) ∧
        fields [0, 4, 8, 0xC, 0x10, 0x14, 0x1C]) ∧
      (p.word3.toNat % 8 = 6 → limit ≤ next → first = limit → AtomAnswered s t p stOk (2 ^ 62) ∧ others limit ∧
        fields [0, 4, 8, 0xC, 0x10, 0x14, 0x18, 0x1C]) ∧
      (p.word3.toNat % 8 = 7 → i < limit → recCommitted (s.item a i) = false → AtomAnswered s t p stOk 0 ∧
        recCommitted (t.item a i) = true ∧ recExpiry (t.item a i) = recExpiry (s.item a i) ∧ others i ∧
        fields [0, 4, 8, 0xC, 0x10, 0x14, 0x18, 0x1C]) ∧
      (p.word3.toNat % 8 = 7 → i < limit → recCommitted (s.item a i) = true → AtomAnswered s t p stOk 1 ∧
        others limit ∧ t.tierNat (a + 0x1C) 4 = min 0xFFFFFFFF (s.tierNat (a + 0x1C) 4 + 1) ∧
        fields [0, 4, 8, 0xC, 0x10, 0x14, 0x18]) ∧
      (p.word3.toNat % 8 = 7 → limit ≤ i → (∀ l, t.readByte l = s.readByte l) ∧
        (Tab.get {} t.replay (sectorOfTile p.route.destTile.toNat * 8192 + rqCore p.header.toNat)).status.toNat
          = stInvalidArg)))

/-- LANE_FAILURE completes at a port that is UP (08 R267, R268). A lost active lane moves to the spare
when the port runs 8 lanes without it and lane 8 is good; otherwise the port falls back to the
four lowest good lanes, counting a spared lane and a retrain; with fewer than four good lanes it
is declared down and retrains (08 R268, R277), unless it is held down.

CODEWORD completes (08 R272, R273). With up to 15 symbol errors its ten units are taken as they
were sent: four flit units in a row join to their flit, and the messages of a good SYN unit are
kept. With more, every unit is bad: the flit is lost, the SYN unit gives nothing, and the fifth
such codeword within 1 ms makes the port retrain with its replay buffer kept. That the
lane-control bits are kept is the model's choice, and so is the retrain that keeps the replay
buffer; a lane that these bits of a good codeword name as failed at the peer fails here too (log
36).

LINK_DOWN and LINK_RETRAIN_END complete (08 R266, R269, R277; 12 R441). Ten microseconds without a
good flit take a port that is UP to TRAINING, with its replay buffer discarded and one RETRAIN
counted; sooner nothing happens. The end of the training brings the port up at the narrower of the
widths that both directions allow, with the lanes tested, the peer and the delay found, and the
waiting SYN messages sent, a TIME with the time at which it leaves (08 Table 8.7); with fewer than
four good lanes on a side it stays DOWN.

LINK_RETRAIN completes (08 R269; 09 R331). With no port named it answers OK at once; otherwise the
enabled ports of the mask train and the answer is PENDING. -/
def Obligations.LinkLanesAndState : Prop :=
  (∀ (p : PortId) (lane : Fin 9) (s : State) (x : Port) (good : BitVec 9), s.port p = x → x.st = .up →
    x.active.contains lane.val = true → good = x.laneGood &&& ~~~(oneBit 9 lane) →
    (x.width = 8 → x.spareUsed = false → good.getLsbD 8 = true → 4 ≤ popCount good →
      exec (.laneFailure p lane) s = .next (s.setPort p { x with
        laneGood := good, laneSpared := min 0xFFFF (x.laneSpared + 1), spareUsed := true
        active := (setBits good).take 8 })) ∧
    ((x.width = 4 ∨ x.spareUsed = true ∨ good.getLsbD 8 = false) → 4 ≤ popCount good →
      exec (.laneFailure p lane) s = .next (s.setPort p { x with
        laneGood := good, laneSpared := min 0xFFFF (x.laneSpared + 1), retrain := min 0xFFFF (x.retrain + 1)
        narrowed := true, active := (setBits good).take 4, spareUsed := ((setBits good).take 4).contains 8
        width := 4, downSince := none })) ∧
    (popCount good < 4 → x.heldDown = false → ∃ t, exec (.laneFailure p lane) s = .next t ∧
      (t.port p).st = .training ∧ (t.port p).width = 0 ∧ (t.port p).wentDown = true ∧
      (t.port p).retrain = min 0xFFFF (x.retrain + 1) ∧ t.mem = s.mem ∧ t.cores = s.cores)) ∧
  ((∀ (p : PortId) (n : Nat) (c : Codeword) (s : State) (x y : Port), s.port p = x → x.st = .up →
    y = c.units.foldl (Port.takeUnit (decide (n ≤ 15))) x →
    (n ≤ 15 → exec (.codeword p n c) s = match Config.peerLane c.control with
      | some lane =>
        if x.active.contains lane.val = true then exec (.laneFailure p lane) (s.setPort p { y with rxCtl := c.control })
        else .next (s.setPort p { y with rxCtl := c.control })
      | none => .next (s.setPort p { y with rxCtl := c.control })) ∧
    (15 < n →
      (let recent := s.deviceTime :: x.badCodewords.filter fun t =>
          decide (s.deviceTime.toNat ≤ t.toNat + 1000000)
       (recent.length ≤ 4 → exec (.codeword p n c) s = .next (s.setPort p { y with badCodewords := recent })) ∧
       (4 < recent.length → ∃ t, exec (.codeword p n c) s = .next t ∧ (t.port p).st = .training ∧
          (t.port p).retrain = min 0xFFFF (x.retrain + 1) ∧ (t.port p).replay = x.replay ∧
          t.mem = s.mem ∧ t.cores = s.cores)))) ∧
  (∀ (good : Bool) (x : Port) (f : List Byte) (m : SynMsg), x.rxUnits = [] → f.length = 256 →
    ((List.range 4).map fun i => (false, bytesAt f (64 * i) 64)).foldl (Port.takeUnit good) x
      = { x with rxFlits := x.rxFlits ++ [if good then some f else none] } ∧
    (m.kind ≠ 0 → Port.takeUnit good x (true, synUnit [m])
      = { x with rxSyn := x.rxSyn ++ if good then [m] else [] }))) ∧
  ((∀ (p : PortId) (s : State) (x : Port), s.port p = x → x.st = .up →
    (s.deviceTime.toNat < x.lastGood.toNat + 10000 → exec (.linkDown p) s = .next s) ∧
    (x.lastGood.toNat + 10000 ≤ s.deviceTime.toNat → x.heldDown = false →
      ∃ t, exec (.linkDown p) s = .next t ∧ (t.port p).st = .training ∧ (t.port p).wentDown = true ∧
        (t.port p).retrain = min 0xFFFF (x.retrain + 1) ∧ (t.port p).egress = [] ∧
        (t.port p).replay = [] ∧ (t.port p).txTail = [] ∧ (t.port p).openPkt = none ∧ t.mem = s.mem ∧
        t.cores = s.cores)) ∧
  (∀ (p : PortId) (rx tx : BitVec 9) (peer : BitVec 14) (delay : Half) (s : State) (w : Nat),
    (s.port p).st = .training → w = min (widthOf rx) (widthOf tx) →
    s.boot.portsTraining.getLsbD p = false →
    ∃ t, exec (.linkRetrainEnd p rx tx peer delay) s = .next t ∧ (t.port p).laneGood = rx ∧
      (t.port p).width = w ∧ t.mem = s.mem ∧ t.cores = s.cores ∧
      (w = 0 → (t.port p).st = .down) ∧
      (w ≠ 0 → (t.port p).st = .up ∧ (t.port p).active = (setBits rx).take w ∧
        (t.port p).peer = peer ∧ (t.port p).peerValid = true ∧ (t.port p).delayNs = delay ∧
        (t.port p).synQueue = [] ∧ ∀ m ∈ (s.port p).synQueue,
          .syn p.val (if m.kind = 2 then { m with payload := s.deviceTime } else m) ∈ t.out))) ∧
  (∀ (src : Src) (req : List Byte) (s : State) (mask : BitVec 16), Fronts s src 0x0603 req →
    mask = BitVec.ofNat 16 (rq req 0 2) →
    (mask = 0 → exec (.linkRetrain src) s = .next (answered s src stOk (leBytes 2 0))) ∧
    (mask ≠ 0 → (s.opsOf (srcFn src)).length < 8 → ∃ t o, exec (.linkRetrain src) s = .next t ∧
      o ∈ t.delash.ops ∧ o.work = .linkRetrain mask ∧ Replied t src req stPending (leBytes 2 o.id.toNat) ∧
      (∀ p, p < 16 → mask.getLsbD p = true → (s.port p).enabled = true → (s.port p).heldDown = false →
        (t.port p).st = .training) ∧
      (∀ p, mask.getLsbD p = false → t.port p = s.port p) ∧ t.mem = s.mem ∧ t.cores = s.cores))

/-- FLIT completes at a port that is UP (08 R274, R275): the flit is the oldest that codewords joined,
or, where none waits, the one the command gives (log 36). A lost flit or one with a bad CRC is
answered by an idle flit with NAK and counted in CRC_ERR and REPLAY; so is a good data flit out of
SEQ order, but for CRC_ERR; the next data flit in order is accepted: its whole packets arrive, and
an idle flit acknowledges it. An idle flit returns credits, its ACK frees the replay buffer up to
and including the flit it names, and its NAK sends what is left again, oldest first.

LINK_PACKET_EGRESS completes (08 R274 to R277, R280, R283, R286). Packets of a stale generation
are dropped unsent, and a port that is not UP sends nothing. The packet that leaves is the oldest
that has credit for all of it and room in the replay buffer, among those that no older packet
drawing on the same buffer and group waits before. Its bytes follow, back to back, what waits to
fill a flit, after a zero tail where only zero bytes of its header would stand in the flit's rest
(log 36); every full payload goes in a flit that the replay buffer keeps, and what stays goes in
one with a zero tail unless another packet waits. When no packet can go, the port sends what waits
to fill a flit, and else an idle flit. -/
def Obligations.FlitsAndEgress : Prop :=
  (∀ (p : PortId) (given : List Byte) (s : State) (x y : Port) (flit : Option (List Byte)),
    s.port p = x → x.st = .up → x.nextFlit given = flit → y = { x with rxFlits := x.rxFlits.drop 1 } →
    ((∀ b, flit = some b → b.length ≠ 256 ∨ (crc64 (b.take 248)).toNat ≠ field b 248 8) →
      ∃ t f, exec (.flit p given) s = .next t ∧ t.out = .flit p f :: s.out ∧
        bits (field f 0 8) 25 25 = 1 ∧ t.port p = { y with
          crcErr := min 0xFFFF (x.crcErr + 1), replayCtr := min 0xFFFF (x.replayCtr + 1) } ∧
        t.fabric.arrived = s.fabric.arrived) ∧
    (∀ (b : List Byte) (h : Nat), flit = some b → b.length = 256 →
      (crc64 (b.take 248)).toNat = field b 248 8 → h = field b 0 8 →
      (bits h 27 26 = 0 → bits h 25 25 = 0 → bits h 24 24 = 0 → bits h 11 0 ≠ x.rxExpect.toNat →
        ∃ t f, exec (.flit p given) s = .next t ∧ t.out = .flit p f :: s.out ∧
          bits (field f 0 8) 25 25 = 1 ∧ (t.port p).crcErr = x.crcErr ∧
          (t.port p).replayCtr = min 0xFFFF (x.replayCtr + 1) ∧ (t.port p).rxExpect = x.rxExpect ∧
          t.fabric.arrived = s.fabric.arrived) ∧
      (bits h 27 26 = 0 → bits h 25 25 = 0 → bits h 24 24 = 0 → bits h 11 0 = x.rxExpect.toNat →
        ∃ t f o, exec (.flit p given) s = .next t ∧ t.out = .flit p f :: (o ++ s.out) ∧
          bits (field f 0 8) 25 25 = 0 ∧ bits (field f 0 8) 24 24 = 1 ∧
          bits (field f 0 8) 23 12 = x.rxExpect.toNat ∧ (t.port p).rxExpect = x.rxExpect + 1 ∧
          (t.port p).rxStream = (takePackets 40 (x.rxStream ++ bytesAt b 8 240)).2 ∧
          ((t.port p).rxStream.length < 24 → o = []) ∧
          t.fabric.arrived = s.fabric.arrived ++
            (takePackets 40 (x.rxStream ++ bytesAt b 8 240)).1.map fun k => (p.val, k)) ∧
      (bits h 27 26 = 1 → bits h 24 24 = 1 → ∃ t left, exec (.flit p given) s = .next t ∧
         (∀ a f c, x.replay = a ++ f :: c → field f 0 2 % 4096 = bits h 23 12 →
            (∀ g ∈ a, field g 0 2 % 4096 ≠ bits h 23 12) → left = c) ∧
         ((∀ g ∈ x.replay, field g 0 2 % 4096 ≠ bits h 23 12) → left = x.replay) ∧
         t.port p = { y with
            lastGood := s.deviceTime, replay := left
            credits := Tab.mod 0 x.credits (bits h 35 32) (· + bits h 47 36)
            colOut := if bits h 35 32 = 6 then returnCol x.colOut (bits h 47 36) else x.colOut } ∧
         t.out = (if bits h 25 25 = 1 then left.reverse.map fun f => .flit p f else []) ++ s.out))) ∧
  (∀ (p : PortId) (s u : State) (x y : Port) (leaves : Egress → LinkPacket) (can : Egress → Bool)
    (key : Egress → Nat × Option (Fin 32)), s.port p = x →
    y = { x with egress := x.egress.filter fun e => !s.staleEgress e } → u = s.setPort p y →
    (∀ e, leaves e = sealPacket { e.pkt with level := levelAfter (s.route e.pkt.dest) p e.pkt.level }) →
    (∀ e, can e = (s.hasCredit p e (leaves e) && x.replayRoom (leaves e))) →
    (∀ e, key e = (bufferOf (leaves e) (if x.peerValid then some x.peer else none), e.col.map (·.group))) →
    (x.st ≠ .up → exec (.linkPacketEgress p) s = .next u) ∧
    (x.st = .up → (x.openPkt.isSome = true ∨ ∀ a g b, y.egress = a ++ g :: b →
        can g = false ∨ ∃ h ∈ a, key h = key g) →
      ((x.openPkt.isSome = true ∨ x.txTail = [] ∨ 3200 ≤ x.replay.length) →
        ∃ f, exec (.linkPacketEgress p) s = .next { u with out := .flit p f :: s.out } ∧
          bits (field f 0 8) 27 26 = 1) ∧
      (x.openPkt = none → x.txTail ≠ [] → x.replay.length < 3200 →
        ∃ t f, exec (.linkPacketEgress p) s = .next t ∧ t.out = .flit p f :: s.out ∧
          t.port p = { y with txTail := [], txSeq := x.txSeq + 1, replay := x.replay ++ [f] } ∧
          bits (field f 0 8) 27 26 = 0 ∧ bytesAt f 8 240 = fit 240 x.txTail ∧ t.mem = s.mem)) ∧
    (x.st = .up → x.openPkt = none → ∀ (before after : List Egress) (e : Egress) (start : List Byte)
        (room b : Nat), y.egress = before ++ e :: after → can e = true →
      (∀ g ∈ before, key g ≠ key e) →
      (∀ a g c, before = a ++ g :: c → can g = false ∨ ∃ h ∈ a, key h = key g) →
      room = x.txTail.length % 240 →
      start = (if room ≠ 0 ∧ ((lpBytes (leaves e)).take (240 - room)).all (· == 0) = true
        then fit (x.txTail.length + 240 - room) x.txTail else x.txTail) → b = (key e).1 →
      ∃ t fs, exec (.linkPacketEgress p) s = .next t ∧ (t.port p).egress = before ++ after ∧
        lpUnits (leaves e) ≤ Tab.get 0 x.credits b ∧
        Tab.get 0 (t.port p).credits b = Tab.get 0 x.credits b - lpUnits (leaves e) ∧
        (t.port p).replay = x.replay ++ fs ∧ (t.port p).replay.length ≤ 3200 ∧
        t.out = fs.reverse.map (fun f => .flit p f) ++ s.out ∧ (t.port p).txTail.length < 240 ∧
        (before ++ after = [] → (t.port p).txTail = []) ∧
        fs.flatMap (fun f => bytesAt f 8 240) ++ (t.port p).txTail
          = fit (240 * fs.length + (t.port p).txTail.length) (start ++ lpBytes (leaves e)) ∧
        (start ++ lpBytes (leaves e)).length ≤ 240 * fs.length + (t.port p).txTail.length ∧
        t.mem = s.mem ∧ t.cores = s.cores))

/-- A packet accepted by the receive side of a flow is not accepted again (08 R294), whatever comes in
between: its number is then one already accepted, or outside the window of 64. FSEQ has 16 bits,
so a number stands for a new packet only after 65,000 others and more.

TACK, RETRANSMIT, FLOW_TEARDOWN, FLOW_RECLAIM and TACK_SEND complete (08 R284, R294 to R297). A
TACK takes exactly the covered packets out of the flow's store and is its acknowledgement record;
packets that wait for room are tried again. RETRANSMIT puts each uncovered packet whose interval
has passed back in the egress queue of the current route, still of its context's generation, and
doubles its interval up to 1.28 ms, under the owner that it had (log 38). A flow with packets
outstanding and no TACK for 64 ms is torn down, its packets go wherever they wait, and its context
is aborted; an idle flow of either direction with none is reclaimed after 1 s. TACK_SEND sends the
one TACK that is due. What a TACK's fields mean is the model's choice (log 37). -/
def Obligations.LinkFlows : Prop :=
  (∀ (f g : RxFlow) (seq : Half) (now later : DWord) (between : List (Half × DWord)),
    f.accept seq now = (true, g) → between.length ≤ 65000 →
    ((between.foldl (fun h m => (h.accept m.1 m.2).2) g).accept seq later).1 = false) ∧
  (∀ (cls : BitVec 2) (node : BitVec 14) (s : State),
    (∀ (p : PortId) (cum : Half) (bitmap : DWord), exec (.tack p node cls cum bitmap) s
      = .next (State.retryWaiting { s with fabric := { s.fabric with
          flows := s.fabric.flows.map fun f => if f.cls = cls ∧ f.dest = node then
            { f with kept := f.kept.filter fun k => !((32768 ≤ (k.pkt.fseq - cum).toNat : Bool) ||
                ((k.pkt.fseq - cum).toNat < 64 : Bool) && bitmap.getLsbD (k.pkt.fseq - cum).toNat)
                     lastTack := s.deviceTime, lastUse := s.deviceTime, tackRec := some (cum, bitmap) }
          else f } })) ∧
    (∀ f, s.flow cls node = some f →
      (∀ q, s.portFor node = some q → rtLocal (s.route node) = false →
        (∀ k ∈ f.kept, s.isHeld k.pkt = false) →
        (∀ k ∈ f.kept, k.pkt.dest = node) → ∃ t, exec (.retransmit cls node) s = .next t ∧
        (t.port q).egress = (s.port q).egress ++
          ((f.kept.filter fun k => decide (k.sentAt.toNat + k.interval * 1000 ≤ s.deviceTime.toNat)).map
            fun k => { pkt := k.pkt, owner := k.owner, col := k.col }) ∧
        (∃ g, t.flow cls node = some g ∧ g.kept = f.kept.map fun k =>
          if k.sentAt.toNat + k.interval * 1000 ≤ s.deviceTime.toNat then
            { k with sentAt := s.deviceTime, interval := min 1280 (2 * k.interval) } else k) ∧
        t.mem = s.mem ∧ t.cores = s.cores) ∧
      (f.kept ≠ [] → f.lastTack.toNat + 64000000 ≤ s.deviceTime.toNat → s.fabric.waiting = [] →
        ∃ t, exec (.flowTeardown cls node) s = .next t ∧
          (∀ g ∈ t.fabric.flows, ¬ (g.cls = cls ∧ g.dest = node)) ∧
          (∀ q e, e ∈ (t.port q).egress →
            ¬ (e.pkt.cls = cls ∧ e.pkt.dest = node ∧ e.pkt.src = s.nodeId ∧ e.pkt.kind ≠ kTack)) ∧
          (∀ n, f.ctx = some n → (s.ctx n).st = .running → (t.ctx n).st = .aborted)) ∧
      ((f.kept = [] ∨ s.deviceTime.toNat < f.lastTack.toNat + 64000000) →
        exec (.flowTeardown cls node) s = .next s)) ∧
    (s.flow cls node = none → exec (.flowTeardown cls node) s = .next s ∧
      exec (.retransmit cls node) s = .next s) ∧
    (s.fabric.waiting = [] → exec (.flowReclaim cls node) s = .next { s with fabric := { s.fabric with
      flows := s.fabric.flows.filter fun g => !(g.cls == cls && g.dest == node && g.kept.isEmpty
        && decide (g.lastUse.toNat + 1000000000 ≤ s.deviceTime.toNat))
      rxFlows := s.fabric.rxFlows.filter fun g => !(g.cls == cls && g.src == node && g.tackDue.isNone
        && decide (g.lastUse.toNat + 1000000000 ≤ s.deviceTime.toNat)) } }) ∧
    (∀ f, s.fabric.rxFlows.find? (RxFlow.is cls node) = some f →
      (f.tackDue = none → exec (.tackSend cls node) s = .next s) ∧
      (∀ q since, f.tackDue = some since → s.fabric.held = none → s.portFor node = some q →
        rtLocal (s.route node) = false →
        ∃ t e, exec (.tackSend cls node) s = .next t ∧ (t.port q).egress = (s.port q).egress ++ [e] ∧
          e.pkt.kind = kTack ∧ e.pkt.dest = node ∧ e.pkt.cls = 1 ∧ e.pkt.fseq = f.base ∧
          leVal e.pkt.payload = f.bitmap.toNat ∧ e.pkt.period = 0 ∧
          t.fabric.rxFlows = s.fabric.rxFlows.map fun g =>
            if RxFlow.is cls node g then { g with tackDue := none } else g)))

/-- LINK_PACKET_RECEIVE completes (08 R276, R279, R285, R290, R294, R297): a stomped packet is counted
and changes no memory; a packet for another module goes to the egress queue of the port its entry
gives now, or is counted in LNK_NO_ROUTE; one for this module with a flow or room for one: a
duplicate changes no memory and makes a TACK due; a request whose response has no place in the
egress path stays where it is; an accepted WRITE of a current context writes exactly its bytes;
one that no context holds is discarded. COL_DATA waits in its buffer for the command COL_DATA, and
a TACK for this module leaves it for TACK.

LINK_PACKET_RECEIVE of an accepted READ_REQ of a current context, whose answer has a place in the
egress path, completes (08 R279, R281, R284, R285): its bytes go back in one READ_RSP of STATUS OK
that copies XTAG, EPOCH and PERIOD, kept by the response flow to the requester until a TACK covers
it.

LINK_PACKET_RECEIVE of an accepted WRITE or READ_REQ of a current context, whose answer has a
place in the egress path, completes with a response (08 R279, R281, R284, R285, Table 8.3; 07
R242): a WRITE_ACK of the WRITE's LEN, or a READ_RSP. Its STATUS is INVALID_ARG where the address
is not homed to the context, and then FENCED where the home sector is; POISONED of a packet that
carries it, whose lines are then poisoned, and of a read of a poisoned line; else OK. A READ_RSP
of another STATUS than OK has no payload, and only a WRITE of STATUS OK or POISONED changes
memory. -/
def Obligations.LinkPackets : Prop :=
  (∀ (p : PortId) (k : LinkPacket) (s : State),
    (k.trailer = ~~~(lpCheck k) → ∃ t, exec (.linkPacketReceive p k) s = .next t ∧
      (t.port p).stomped = min 0xFFFF ((s.port p).stomped + 1) ∧ t.mem = s.mem ∧ t.cores = s.cores) ∧
    (k.trailer = lpCheck k →
      (rtLocal (s.route k.dest) = false → s.isHeld k = false →
        (∀ q, q < 16 → sameOpen p k (s.port q).openPkt = false) →
        (∀ q, s.portFor k.dest = some q → ∃ t, exec (.linkPacketReceive p k) s = .next t ∧
          (t.port q).egress = (s.port q).egress ++ [{ pkt := k }] ∧ t.mem = s.mem) ∧
        (s.portFor k.dest = none → ∃ t, exec (.linkPacketReceive p k) s = .next t ∧
          (t.port p).noRoute = min 0xFFFFFFFF ((s.port p).noRoute + 1) ∧ (t.port p).noRouteEv = true ∧
          (t.port p).egress = (s.port p).egress ∧ t.mem = s.mem)) ∧
      (rtLocal (s.route k.dest) = true → k.kind = kColData →
        exec (.linkPacketReceive p k) s = .next (s.keepArrived p k)) ∧
      (rtLocal (s.route k.dest) = true → k.kind = kTack →
        exec (.linkPacketReceive p k) s = .next (s.takeArrived p k)) ∧
      (rtLocal (s.route k.dest) = true → k.kind ≠ kTack → k.kind ≠ kColData →
        ((s.rxFlow k).isSome = true ∨ s.flowRoom = true) →
        ((s.acceptSeq k).1 = false → ∃ t, exec (.linkPacketReceive p k) s = .next t ∧ t.mem = s.mem ∧
          t.priv = s.priv ∧ t.cores = s.cores ∧ t.net = s.net ∧
          ∃ f ∈ t.fabric.rxFlows, RxFlow.is k.cls k.src f = true ∧ f.tackDue.isSome = true) ∧
        ((s.acceptSeq k).1 = true → (s.acceptSeq k).2.canAnswer k = false →
          exec (.linkPacketReceive p k) s = .next (s.keepArrived p k)) ∧
        (k.kind = kWrite → (s.acceptSeq k).1 = true → (s.acceptSeq k).2.canAnswer k = true →
          (s.linkCtx k = none → ∃ t, exec (.linkPacketReceive p k) s = .next t ∧ t.mem = s.mem ∧
            t.priv = s.priv ∧ t.cores = s.cores) ∧
          (∀ n, s.linkCtx k = some n → k.status = 0 → 0 < k.len.toNat → k.len.toNat ≤ 512 →
            s.homedTier n k.addr.toNat k.len.toNat = true → s.homeFenced k.addr.toNat = false →
            Cells.wf s.mem = true →
            ∃ t, exec (.linkPacketReceive p k) s = .next t ∧
              t.readTier k.addr.toNat k.len.toNat = fit k.len.toNat k.payload ∧
              (∀ l, (∀ x, k.addr.toNat ≤ x → x < k.addr.toNat + k.len.toNat → s.loc x ≠ l) →
                t.readByte l = s.readByte l) ∧ t.priv = s.priv ∧ t.cores = s.cores))))) ∧
  (∀ (p : PortId) (k : LinkPacket) (s : State) (n : Nat), k.trailer = lpCheck k →
    rtLocal (s.route k.dest) = true → k.kind = kReadReq → k.cls = 0 →
    ((s.rxFlow k).isSome = true ∨ s.flowRoom = true) → (s.acceptSeq k).1 = true →
    (s.acceptSeq k).2.canAnswer k = true →
    s.linkCtx k = some n → 0 < k.len.toNat → k.len.toNat ≤ 512 →
    s.homedTier n k.addr.toNat k.len.toNat = true → s.homeFenced k.addr.toNat = false →
    s.isPoisoned k.addr.toNat k.len.toNat = false →
    ∃ t f r, exec (.linkPacketReceive p k) s = .next t ∧ t.mem = s.mem ∧ t.cores = s.cores ∧
      f ∈ t.fabric.flows ∧ Flow.is 1 k.src f = true ∧ r ∈ f.kept ∧ r.pkt.kind = kReadRsp ∧
      r.pkt.status = 0 ∧ r.pkt.payload = s.readTier k.addr.toNat k.len.toNat ∧
      r.pkt.xtag = k.xtag ∧ r.pkt.epoch = k.epoch ∧ r.pkt.period = k.period ∧
      r.pkt.trailer = lpCheck r.pkt) ∧
  (∀ (p : PortId) (k : LinkPacket) (s : State) (n st : Nat), k.trailer = lpCheck k →
    rtLocal (s.route k.dest) = true → (k.kind = kWrite ∨ k.kind = kReadReq) → k.cls = 0 →
    ((s.rxFlow k).isSome = true ∨ s.flowRoom = true) → (s.acceptSeq k).1 = true →
    (s.acceptSeq k).2.canAnswer k = true →
    s.linkCtx k = some n → 0 < k.len.toNat → k.len.toNat ≤ 512 →
    st = (if s.homedTier n k.addr.toNat k.len.toNat = false then 3
      else if s.homeFenced k.addr.toNat = true then 2
      else if k.kind = kWrite then (if k.status = 0 then 0 else 1)
      else if s.isPoisoned k.addr.toNat k.len.toNat = true then 1 else 0) →
    ∃ t f r, exec (.linkPacketReceive p k) s = .next t ∧ t.cores = s.cores ∧ t.priv = s.priv ∧
      f ∈ t.fabric.flows ∧ Flow.is 1 k.src f = true ∧ r ∈ f.kept ∧
      r.pkt.kind = (if k.kind = kWrite then kWriteAck else kReadRsp) ∧ r.pkt.status.toNat = st ∧
      (k.kind = kWrite → r.pkt.len = k.len) ∧
      (k.kind = kReadReq → st ≠ 0 → r.pkt.len = 0 ∧ r.pkt.payload = []) ∧
      r.pkt.xtag = k.xtag ∧ r.pkt.epoch = k.epoch ∧ r.pkt.period = k.period ∧ r.pkt.trailer = lpCheck r.pkt ∧
      (k.kind = kReadReq ∨ 2 ≤ st → t.mem = s.mem ∧ t.poison = s.poison) ∧
      (k.kind = kWrite → st = 1 → t.isPoisoned k.addr.toNat k.len.toNat = true))

/-- ROUTE_UPDATE_HOLD, ROUTE_UPDATE_BOTH and ROUTE_UPDATE_WRITE_RELEASE complete (08 R291; 09 R342,
R347). HOLD and BOTH hold the entries and answer later; a second hold is BUSY, and with no entries
nothing is held. WRITE_RELEASE of the update that is held writes its entries; any other is
INVALID_ARG, one of an update that BOTH holds among them, and COUNT 0 is answered after the checks
(the model's choices, log 36).

ROUTE_HOLD_COMPLETE, ROUTE_HOLD_TIMEOUT and ROUTE_HOLD_EXPIRE of a held update complete (08 R291;
09 R342). It is done once no egress queue holds a packet that an old entry routed; one not done
after 10 ms is released with the old entries and answers TIMEOUT; one done and not written within
1 s is released too. Of a BOTH the completion writes the entries. -/
def Obligations.RouteUpdates : Prop :=
  (∀ (src : Src) (req : List Byte) (s : State), Fronts s src 0x0602 req →
    (∀ both : Bool, rq req 0 1 = (if both then 2 else 0) →
      (s.fabric.held.isSome = true → exec (if both then .routeUpdateBoth src else .routeUpdateHold src) s
        = .next (answered s src stBusy [])) ∧
      (s.fabric.held = none → rq req 2 2 = 0 →
        exec (if both then .routeUpdateBoth src else .routeUpdateHold src) s
          = .next (answered s src stOk [])) ∧
      (s.fabric.held = none → rq req 2 2 ≠ 0 → ∃ t h,
        exec (if both then .routeUpdateBoth src else .routeUpdateHold src) s = .next t ∧
        t = (popped s).modFabric (fun x => { x with held := some h }) ∧ h.both = both ∧ h.done = false ∧
        h.since = s.deviceTime ∧ h.classes = BitVec.ofNat 8 (rq req 1 1) ∧ h.first = rq req 4 2 ∧
        h.entries = (List.range (rq req 2 2)).map (fun i => BitVec.ofNat 32 (rq req (8 + 4 * i) 4)) ∧
        h.req = req)) ∧
    (rq req 0 1 = 1 →
      (s.fabric.held = none → exec (.routeUpdateWriteRelease src) s = .next (answered s src stInvalidArg [])) ∧
      (∀ h, s.fabric.held = some h →
        ((h.both = true ∨ h.classes ≠ BitVec.ofNat 8 (rq req 1 1) ∨ h.first ≠ rq req 4 2 ∨
          h.entries.length ≠ rq req 2 2) →
          exec (.routeUpdateWriteRelease src) s = .next (answered s src stInvalidArg [])) ∧
        (h.both = false → h.done = true → h.classes = BitVec.ofNat 8 (rq req 1 1) → h.first = rq req 4 2 →
          h.entries = (List.range (rq req 2 2)).map (fun i => BitVec.ofNat 32 (rq req (8 + 4 * i) 4)) →
          s.fabric.waiting = [] → ∃ t, exec (.routeUpdateWriteRelease src) s = .next t ∧
            Replied t src req stOk [] ∧ t.fabric.held = none ∧
            (∀ i, i < rq req 2 2 → t.route (BitVec.ofNat 14 (h.first + i))
              = BitVec.ofNat 14 (rq req (8 + 4 * i) 4)) ∧
            (∀ n : BitVec 14, (n.toNat < h.first ∨ h.first + rq req 2 2 ≤ n.toNat) →
              t.route n = s.route n))))) ∧
  (∀ (s : State) (h : HeldRoute), s.fabric.held = some h → s.fabric.waiting = [] → s.delash.order = [] →
    s.request h.src = some h.req →
    (h.done = false → s.oldRouted = false → h.both = false → exec .routeHoldComplete s
      = .next (State.answer { s with fabric := { s.fabric with held := some { h with done := true } } }
          h.src stOk [])) ∧
    (h.done = false → s.oldRouted = false → h.both = true → ∃ t, exec .routeHoldComplete s = .next t ∧
      t.fabric.held = none ∧ (∀ i, i < h.entries.length → h.first + i < 16384 →
        t.route (BitVec.ofNat 14 (h.first + i)) = (h.entries.getD i 0).setWidth 14) ∧
      (∀ n : BitVec 14, (n.toNat < h.first ∨ h.first + h.entries.length ≤ n.toNat) →
        t.route n = s.route n)) ∧
    ((h.done = true ∨ s.oldRouted = true) → exec .routeHoldComplete s = .next s) ∧
    (h.done = false → h.since.toNat + 10000000 ≤ s.deviceTime.toNat → exec .routeHoldTimeout s
      = .next (State.answer { s with fabric := { s.fabric with held := none } } h.src stTimeout [])) ∧
    (h.done = true → h.since.toNat + 1000000000 ≤ s.deviceTime.toNat → exec .routeHoldExpire s
      = .next { s with fabric := { s.fabric with held := none } }))

/-- LINK_CONFIG_NODE, LINK_CONFIG_PORTS, LINK_CONFIG_SYN_GROUP, LINK_CONFIG_COL_GROUP and
LINK_CONFIG_DELETE complete (09 Table 9.11; 08 R269, R270, R286, R300, R305). NODE sets the node
and the time master; PORTS enables the ports of the mask that PORT_DISABLE does not name (13 R455)
and disables the others, which then train, stay down while a sector of theirs holds them down, or
are DISABLED (the model's choice, log 41); SYN_GROUP and COL_GROUP define a group, the latter
reserving COL buffer on its paths; DELETE removes one, and the running collectives of a collective
group with it. -/
def Obligations.LinkConfig : Prop :=
  ∀ (src : Src) (req : List Byte) (s : State), Fronts s src 0x0601 req →
    (rq req 0 1 = 0 → exec (.linkConfigNode src) s = .next (State.answer ((popped s).modFabric fun x =>
      { x with node := some (BitVec.ofNat 14 (rq req 4 2)), timeMaster := some (BitVec.ofNat 14 (rq req 6 2)) })
      src stOk [])) ∧
    (rq req 0 1 = 1 → ∃ t, exec (.linkConfigPorts src) s = .next t ∧ Replied t src req stOk [] ∧
      (∀ p want, p < 16 →
        want = ((BitVec.ofNat 16 (rq req 4 2)).getLsbD p && !s.boot.parison.portDisable.getLsbD p) →
        (t.port p).enabled = want ∧
        (t.port p).st = (if want = (s.port p).enabled then (s.port p).st
          else if (s.port p).enabled then .disabled else if (s.port p).heldDown then .down else .training)) ∧
      t.mem = s.mem ∧ t.cores = s.cores) ∧
    (rq req 0 1 = 2 → ∃ t, exec (.linkConfigSynGroup src) s = .next t ∧ Replied t src req stOk [] ∧
      t.synGroup (rq req 4 1) = some { up := if rq req 5 1 = 0xFF then none else some (rq req 5 1)
                                       down := BitVec.ofNat 16 (rq req 6 2), job := BitVec.ofNat 32 (rq req 8 4) } ∧
      (∀ g, g ≠ rq req 4 1 → t.synGroup g = s.synGroup g) ∧ t.fabric.col = s.fabric.col ∧ t.mem = s.mem) ∧
    (rq req 0 1 = 3 → ∀ (k n a : Nat) (ranks : List Nat), k = rq req 7 1 → n = rq req 10 2 → a = rq req 16 8 →
      ranks = (List.range n).map (fun i => field (s.readTier a (2 * n)) (2 * i) 2) →
      (s.homedTier k a (2 * n) = false →
        exec (.linkConfigColGroup src) s = .next (answered s src stInvalidArg [])) ∧
      (s.homedTier k a (2 * n) = true → s.isPoisoned a (2 * n) = true →
        ∃ t, exec (.linkConfigColGroup src) s = .next t ∧ Replied t src req stPoisoned [] ∧
          t.fabric = s.fabric ∧ t.mem = s.mem) ∧
      (s.homedTier k a (2 * n) = true → s.isPoisoned a (2 * n) = false → (∃ x ∈ ranks, 16384 ≤ x) →
        ∃ t, exec (.linkConfigColGroup src) s = .next t ∧ Replied t src req stInvalidArg [] ∧
          t.fabric = s.fabric ∧ t.mem = s.mem) ∧
      (s.homedTier k a (2 * n) = true → s.isPoisoned a (2 * n) = false → (∀ x ∈ ranks, x < 16384) →
        s.colGroup (rq req 4 1) = none →
        ((∃ p ∈ s.groupPorts ranks, 262144 < (s.port p).colReserved + 16384) →
          ∃ t, exec (.linkConfigColGroup src) s = .next t ∧ Replied t src req stNoResource [] ∧
            t.fabric = s.fabric ∧ t.mem = s.mem) ∧
        ((∀ p ∈ s.groupPorts ranks, (s.port p).colReserved + 16384 ≤ 262144) →
          ∃ t g, exec (.linkConfigColGroup src) s = .next t ∧ Replied t src req stOk [] ∧
            t.colGroup (rq req 4 1) = some g ∧ g.ctx = k ∧ g.tree = (rq req 5 1 == 1) ∧
            g.synGroup = rq req 6 1 ∧ g.rank = rq req 8 2 ∧ g.ranks = ranks ∧ g.seq = 0 ∧
            (∀ p, (t.port p).colReserved = (s.port p).colReserved +
              (if p ∈ s.groupPorts ranks then 16384 else 0)) ∧
            (∀ j, j ≠ rq req 4 1 → t.colGroup j = s.colGroup j) ∧ t.mem = s.mem))) ∧
    (rq req 0 1 = 4 → ∃ t, exec (.linkConfigDelete src) s = .next t ∧ Replied t src req stOk [] ∧
      (rq req 4 1 = 0 → t.synGroup (rq req 5 1) = none ∧ t.fabric.col = s.fabric.col ∧
        ∀ g, g ≠ rq req 5 1 → t.synGroup g = s.synGroup g) ∧
      (rq req 4 1 = 1 → (s.colGroup (rq req 5 1) ≠ none → ∀ r ∈ t.fabric.running, r.group ≠ rq req 5 1) ∧
        t.colGroup (rq req 5 1) = none ∧ t.fabric.syn = s.fabric.syn ∧
        ∀ g, g ≠ rq req 5 1 → t.colGroup g = s.colGroup g))

/-- SYN_ABORT and ABORT_REPEAT complete (08 R300 to R302; 12 R430). A new epoch for the job of a
running context is adopted: the context is aborted with its generation one higher; one that is
ABORTED or in TEARDOWN takes the epoch up and does nothing else. The first copy of its job and
epoch goes on to the other ports of the group that are UP and is kept for 32 repeats; of a later
copy nothing stays but that it has been taken. ABORT_REPEAT sends every kept ABORT again on its
group's ports and counts one repeat down.

SYN_TIME and TIME_BEACON_SEND complete (08 R300, R304). A later TIME is compared, with the port's
delay added, with device time: behind by more than 1 µs the time steps, otherwise it slews ahead
or back by the difference; the message goes on stamped with the module's own time. One that is not
later changes nothing. The time master sends its device time on the ports of group 0.

SYN_PORT_DOWN and TIME_LOST complete (12 R441; 08 R304). A port of a job's group that has been
down for 100 µs aborts the job's context, once, whether or not it trains (log 58); one that no
group names, is not down, or is down for less does nothing. A module that is not the time master
and has had no TIME for 1 ms records the loss. -/
def Obligations.SynMessages : Prop :=
  ((∀ (p : PortId) (m : SynMsg) (s : State) (k : Nat) (g : SynGroup), m.kind = 1 → m.job ≠ 0 →
    s.jobCtx m.job = some k → (s.ctx k).epoch ≠ m.epoch →
    s.synGroup m.group.toNat = some g → g.job = m.job →
    (∀ r ∈ s.fabric.repeats, ¬ (r.msg.job = m.job ∧ r.msg.epoch = m.epoch)) →
    ∃ t, exec (.synAbort p m) s = .next t ∧ (t.ctx k).epoch = m.epoch ∧
      ((s.ctx k).st = .running → (t.ctx k).st = .aborted ∧ (t.ctx k).gen = (s.ctx k).gen + 1) ∧
      ((s.ctx k).st = .aborted ∨ (s.ctx k).st = .teardown → t.ctx k = { s.ctx k with epoch := m.epoch }) ∧
      (∀ q, q ∈ g.ports → q ≠ p.val → (s.port q).st = .up → .syn q m ∈ t.out) ∧
      (∃ r ∈ t.fabric.repeats, r.group = m.group.toNat ∧ r.msg = m ∧ r.left = 32)) ∧
  (∀ (p : PortId) (m : SynMsg) (s : State) (k : Nat), m.kind = 1 → m.job ≠ 0 →
    s.jobCtx m.job = some k → (s.ctx k).epoch = m.epoch →
    (∃ r ∈ s.fabric.repeats, r.msg.job = m.job ∧ r.msg.epoch = m.epoch) →
    exec (.synAbort p m) s = .next (s.takeSyn p m)) ∧
  (∀ s : State, ∃ t, exec .abortRepeat s = .next t ∧
    t.fabric.repeats = (s.fabric.repeats.map fun r => { r with left := r.left - 1 }) ∧
    (∀ r ∈ s.fabric.repeats, r.left ≠ 0 → ∀ g, s.synGroup r.group = some g → ∀ q ∈ g.ports,
      (s.port q).st = .up → .syn q r.msg ∈ t.out) ∧ t.mem = s.mem ∧ t.cores = s.cores)) ∧
  (∀ (s : State) (g : SynGroup), s.synGroup 0 = some g →
    (∀ (p : PortId) (m : SynMsg) (due : Nat), m.kind = 2 → m.group = 0 →
      due = m.payload.toNat + (s.port p).delayNs.toNat → due < 2 ^ 64 →
      (m.payload.toNat ≤ s.fabric.lastTime.toNat → exec (.synTime p m) s = .next (s.takeSyn p m)) ∧
      (s.fabric.lastTime.toNat < m.payload.toNat → ∃ t, exec (.synTime p m) s = .next t ∧
        t.fabric.lastTime = m.payload ∧ t.fabric.lastTimeAt = some t.deviceTime ∧
        (s.deviceTime.toNat + 1000 < due →
          t.deviceTime.toNat = due ∧ t.slewAhead = 0 ∧ t.slewBack = 0) ∧
        (due ≤ s.deviceTime.toNat + 1000 → t.deviceTime = s.deviceTime ∧
          t.slewAhead = due - s.deviceTime.toNat ∧ t.slewBack = s.deviceTime.toNat - due) ∧
        (∀ q ∈ g.ports, q ≠ p.val → (s.port q).st = .up →
          .syn q { m with payload := t.deviceTime } ∈ t.out) ∧ t.mem = s.mem ∧ t.cores = s.cores)) ∧
    (∀ n, s.fabric.node = some n → (s.fabric.timeMaster = some n → ∃ t,
        exec .timeBeaconSend s = .next t ∧ (∀ q ∈ g.ports, (s.port q).st = .up →
          .syn q { kind := 2, group := 0, src := n, payload := s.deviceTime } ∈ t.out) ∧
        t.deviceTime = s.deviceTime ∧ t.mem = s.mem ∧ t.cores = s.cores) ∧
      (s.fabric.timeMaster ≠ some n → exec .timeBeaconSend s = .next s))) ∧
  ((∀ (p : PortId) (s : State),
    ((s.port p).downSince = none → exec (.synPortDown p) s = .next s) ∧
    (∀ t0, (s.port p).downSince = some t0 →
      ((s.synJobs p = [] ∨ s.deviceTime.toNat < t0.toNat + 100000) → exec (.synPortDown p) s = .next s) ∧
      (s.synJobs p ≠ [] → t0.toNat + 100000 ≤ s.deviceTime.toNat →
        ∃ t, exec (.synPortDown p) s = .next t ∧ (t.port p).downSince = none ∧
          (∀ j k, s.synJobs p = [j] → s.jobCtx j = some k → (s.ctx k).st = .running →
            (t.ctx k).st = .aborted ∧ (t.ctx k).gen = (s.ctx k).gen + 1)))) ∧
  (∀ s : State,
    ((s.synGroup 0 = none ∨ s.isMaster = true) → exec .timeLost s = .next s) ∧
    (∀ g, s.synGroup 0 = some g → s.isMaster = false →
      (∀ t0, s.fabric.lastTimeAt = some t0 → s.deviceTime.toNat < t0.toNat + 1000000 →
        exec .timeLost s = .next s) ∧
      ((s.fabric.lastTimeAt = none ∨ ∃ t0, s.fabric.lastTimeAt = some t0 ∧
        t0.toNat + 1000000 ≤ s.deviceTime.toNat) → s.gafferUp = true →
        ∃ t, exec .timeLost s = .next t ∧ t.fabric.lastTimeAt = some s.deviceTime ∧
          t.plumb.lastClass = 5 ∧ t.plumb.lastSectorValid = false ∧ t.ctxs = s.ctxs ∧ t.cores = s.cores ∧
          t.mem = s.mem))))

/-- SYN_BAR_ARRIVE and SYN_BAR_RELEASE complete: the barriers of a SYN group (08 R300, R304, R309). A
first arrival from a down port is recorded; the last one of all that the module waits for goes up,
in the module's own name, when the group has an up port. A BAR_RELEASE from the up port goes on to
every down port, is noted, and completes the module's waiting BARRIER with OK; a second copy of
either changes nothing.

PUT, GET and COLLECTIVE_BARRIER complete (08 R284, R309). A PUT or GET cuts its range into
requests of at most 512 bytes of the descriptor's job, XTAG and addresses. Those whose answers
have room in the 1 MiB reply store are issued and kept by the request flow to the peer, the others
follow as answers free it. The last answer completes the descriptor. BARRIER takes the SYN group's
next number (the number is the choice of log 40) and sends BAR_ARRIVE up, or, alone in its group
at the root, completes at once.

LINK_PACKET_RECEIVE of an accepted response of a GET or PUT completes (08 R284, R306, R309; 10
Table 10.5). The bytes of a READ_RSP of STATUS OK are written at the place of DST that its ADDR
stands for, and no other byte of memory changes; the transfer has one packet less to wait for, and
its LEN more bytes done. The last response completes the descriptor with the worst status that
came. -/
def Obligations.GroupBarriersAndTransfers : Prop :=
  (∀ (p : PortId) (m : SynMsg) (s : State) (y : SynGroup) (g : Nat), g = m.group.toNat →
    s.synGroup g = some y → y.job = m.job →
    (m.kind = 3 → y.down.getLsbD p = true → s.fabric.relSeen.contains (g, m.epoch) = false →
      ((s.barSeenOf g m.epoch).contains p.val = true →
        exec (.synBarArrive p m) s = .next (s.takeSyn p m)) ∧
      ((s.barSeenOf g m.epoch).contains p.val = false →
        (¬ (s.barNeeds g y).all (s.barSeenOf g m.epoch ++ [p.val]).contains →
          ∃ t, exec (.synBarArrive p m) s = .next t ∧
            t.barSeenOf g m.epoch = s.barSeenOf g m.epoch ++ [p.val] ∧ t.out = s.out ∧
            t = { s.takeSyn p m with fabric := { (s.takeSyn p m).fabric with barSeen := t.fabric.barSeen } }) ∧
        (∀ q, (s.barNeeds g y).all (s.barSeenOf g m.epoch ++ [p.val]).contains → y.up = some q →
          (s.port q).st = .up → ∃ t, exec (.synBarArrive p m) s = .next t ∧
            t.out = .syn q { m with src := s.nodeId } :: s.out ∧ t.cores = s.cores ∧ t.mem = s.mem))) ∧
    (m.kind = 4 → y.up = some p.val →
      (s.fabric.relSeen.contains (g, m.epoch) = true →
        exec (.synBarRelease p m) s = .next (s.takeSyn p m)) ∧
      (s.fabric.relSeen.contains (g, m.epoch) = false → ∃ t, exec (.synBarRelease p m) s = .next t ∧
        t.fabric.relSeen.contains (g, m.epoch) = true ∧
        (∀ q ∈ setBits y.down, (s.port q).st = .up → .syn q m ∈ t.out) ∧
        (∀ r d x, s.fabric.running = [r] → r.op = 7 → r.bar = m.epoch →
          s.colGroup r.group = some x → x.synGroup = g → s.desc r.f r.slot r.desc = some d →
          d.id = r.desc → t.fabric.running = [] ∧ t.desc r.f r.slot r.desc = none) ∧
        t.cores = s.cores ∧ t.mem = s.mem))) ∧
  ((∀ (f : FnId) (slot : SlotId) (id op node : Nat) (d : Desc) (s : State) (g : ColGroup),
    ColReady s f slot id d g → clOp d = op → (op = 5 ∨ op = 6) → g.ranks[clPeer d]? = some node →
    node < 16384 → clDst d + clBytes d ≤ 2 ^ 48 → s.fabric.held = none → s.flowRoom = true →
    (s.ctx (s.queue f slot).ctx).st ≠ .free →
    s.keptBytes (s.dieFor (BitVec.ofNat 14 node)) + clBytes d
      + 28 * (cutAt 512 (clDst d) (clBytes d)).length ≤ 33554432 →
    ∃ t r fl, exec (colInstr f slot id op) s = .next t ∧ r ∈ t.fabric.running ∧ r.desc = id ∧
      r.op = op ∧ r.left = (cutAt 512 (clDst d) (clBytes d)).length ∧
      r.issued ++ r.todo = cutAt 512 (clDst d) (clBytes d) ∧
      (r.issued.map fun p => 28 + if op = 6 then p.2 else 0).sum ≤ 1048576 ∧
      (∀ p rest, r.todo = p :: rest →
        1048576 < (r.issued.map fun p => 28 + if op = 6 then p.2 else 0).sum + 28 + if op = 6 then p.2 else 0) ∧
      t.flow 0 (BitVec.ofNat 14 node) = some fl ∧
      (fl.kept.map fun x => (x.pkt.kind, x.pkt.addr.toNat, x.pkt.len.toNat))
        = ((((s.flow 0 (BitVec.ofNat 14 node)).map (·.kept)).getD []).map
              fun x => (x.pkt.kind, x.pkt.addr.toNat, x.pkt.len.toNat))
          ++ (r.issued.map fun p => (if op = 5 then kWrite else kReadReq, p.1, p.2)) ∧
      t.mem = s.mem ∧ t.cores = s.cores) ∧
  (∀ (p : PortId) (k : LinkPacket) (s : State) (n : Nat) (r : Collective) (d : Desc) (c : Nat × Nat),
    k.trailer = lpCheck k → rtLocal (s.route k.dest) = true → k.kind = kWriteAck → k.cls = 1 →
    ((s.rxFlow k).isSome = true ∨ s.flowRoom = true) → (s.acceptSeq k).1 = true → s.linkCtx k = some n →
    s.fabric.running = [r] → r.op = 5 → r.desc % 65536 = k.xtag.toNat → (s.queue r.f r.slot).ctx = n →
    s.desc r.f r.slot r.desc = some d → d.id = r.desc → c ∈ r.issued → c.1 % 2 ^ 48 = k.addr.toNat →
    (r.left = 1 → ∃ t, exec (.linkPacketReceive p k) s = .next t ∧ t.fabric.running = [] ∧
      t.desc r.f r.slot r.desc = none) ∧
    (1 < r.left → r.todo = [] → ∃ t r', exec (.linkPacketReceive p k) s = .next t ∧
      t.fabric.running = [r'] ∧ r'.left = r.left - 1 ∧ r'.issued.length + 1 = r.issued.length ∧
      t.desc r.f r.slot r.desc = some d)) ∧
  (∀ (f : FnId) (slot : SlotId) (id : Nat) (d : Desc) (s : State) (g : ColGroup) (y : SynGroup),
    s.desc f slot id = some d → d.id = id → d.type = 4 → d.dispatched = false →
    (s.queue f slot).reaches id = true → s.fabric.running = [] → s.fabric.early = [] → clOp d = 7 →
    s.colGroup (clGroup d) = some g → g.ctx = (s.queue f slot).ctx → s.synGroup g.synGroup = some y →
    y.down = 0 → s.barSeenOf g.synGroup y.barSeq = [] →
    s.fabric.relSeen.contains (g.synGroup, y.barSeq) = false →
    (∀ q, y.up = some q → (s.port q).st = .up → ∃ t r, exec (.collectiveBarrier f slot id) s = .next t ∧
      r ∈ t.fabric.running ∧ r.desc = id ∧ r.op = 7 ∧ r.bar = y.barSeq ∧ t.desc f slot id ≠ none ∧
      t.synGroup g.synGroup = some { y with barSeq := y.barSeq + 1 } ∧
      t.out = .syn q { kind := 3, group := BitVec.ofNat 6 g.synGroup, src := s.nodeId
                       job := (s.ctx (s.queue f slot).ctx).job, epoch := y.barSeq } :: s.out ∧
      t.mem = s.mem ∧ t.cores = s.cores) ∧
    (y.up = none → ∃ t, exec (.collectiveBarrier f slot id) s = .next t ∧ t.fabric.running = [] ∧
      t.desc f slot id = none ∧ t.mem = s.mem ∧ t.cores = s.cores))) ∧
  (∀ (p : PortId) (k : LinkPacket) (s : State) (n dst : Nat) (f : FnId) (slot : SlotId) (r : Collective) (d : Desc)
    (a : Nat × Nat), r.f = f.val → r.slot = slot.val →
    k.trailer = lpCheck k → rtLocal (s.route k.dest) = true → k.cls = 1 →
    (k.kind = kReadRsp ∨ k.kind = kWriteAck) → k.status = 0 →
    ((s.rxFlow k).isSome = true ∨ s.flowRoom = true) → (s.acceptSeq k).1 = true → s.linkCtx k = some n →
    0 < k.len.toNat → k.len.toNat ≤ 512 → Cells.wf s.mem = true →
    (s.fabric.running.find? fun r => r.desc % 65536 == k.xtag.toNat && (s.queue r.f r.slot).ctx == n
      && r.left != 0) = some r →
    s.desc r.f r.slot r.desc = some d → (Tab.get none s.fabric.col r.group).isSome = true →
    (r.issued.find? fun q => q.1 % 2 ^ 48 == k.addr.toNat) = some a →
    dst = field d.bytes 0x10 8 + (a.1 - field d.bytes 0x18 8) →
    s.homedTier n dst k.len.toNat = true → s.homeFenced dst = false →
    ∃ t, exec (.linkPacketReceive p k) s = .next t ∧ t.cores = s.cores ∧ t.priv = s.priv ∧
      (k.kind = kReadRsp → t.readTier dst k.len.toNat = fit k.len.toNat k.payload ∧
        ∀ l, (∀ x, dst ≤ x → x < dst + k.len.toNat → s.loc x ≠ l) → t.readByte l = s.readByte l) ∧
      (k.kind = kWriteAck → t.mem = s.mem) ∧
      (1 < r.left → ∃ q ∈ t.fabric.running, q.desc = r.desc ∧ q.left = r.left - 1 ∧
        q.written = r.written + k.len.toNat ∧ q.status = worse r.status stOk) ∧
      (r.left = 1 → (∀ q ∈ t.fabric.running, q.desc ≠ r.desc) ∧
        Completed s t f slot d (worse r.status stOk)))

/-- ALLREDUCE, REDUCE_SCATTER, ALLGATHER, BROADCAST and COL_DATA complete (08 R279, R293, R302, R306,
R307). In a group of two ranks or more a descriptor is dispatched, takes the group's next sequence
number, sends its contribution with the digest of its fields to every other rank in packets of
class COL of its job, and waits; nothing is written. Of an accepted packet of class COL: one that
no context of its job, epoch and period holds is discarded; a piece of a collective not begun here
waits (the model's choice, log 40); one with another digest, whose form log 39 leaves open, aborts
the context; the one that completes all contributions writes the result of R308 at DST and
completes the descriptor. -/
def Obligations.CollectivesWaitForEveryRank : Prop :=
  (∀ (f : FnId) (slot : SlotId) (id op : Nat) (d : Desc) (s : State) (g : ColGroup) (data : List Byte),
    ColReady s f slot id d g → clOp d = op → 1 ≤ op → op ≤ 4 → 2 ≤ g.ranks.length →
    g.rank < g.ranks.length → s.fabric.early = [] → (s.ctx (s.queue f slot).ctx).st ≠ .free →
    (∀ r ∈ s.fabric.running, ¬ (r.group = clGroup d ∧ r.seq = g.seq)) →
    data = (if op = 4 ∧ clPeer d ≠ g.rank then [] else s.readTier (clSrc d) (clBytes d)) →
    ∃ t r, exec (colInstr f slot id op) s = .next t ∧ t.colGroup (clGroup d) = some { g with seq := g.seq + 1 } ∧
      r ∈ t.fabric.running ∧ r.desc = id ∧ r.op = op ∧ r.seq = g.seq ∧ contributed r d g.rank = true ∧
      .colData (clGroup d) g.seq (Config.colDigest op (clDtype d) (clRedop d) (clCount d) (clPeer d)) data ∈ t.out ∧
      (∀ i, i < g.ranks.length → i ≠ g.rank →
        ∀ c ∈ (if data = [] then [(0, 0)] else cutAt 512 0 data.length), ∃ k : LinkPacket,
          (k ∈ t.fabric.waiting.map (·.pkt) ∨ k ∈ (t.fabric.flows.flatMap (·.kept)).map (·.pkt)) ∧
          k.dest = BitVec.ofNat 14 (g.ranks.getD i 0) ∧ k.cls = 2 ∧ k.kind = kColData ∧
          k.job = (s.ctx (s.queue f slot).ctx).job ∧ k.epoch = (s.ctx (s.queue f slot).ctx).epoch ∧
          k.addr.toNat = c.1 ∧ k.payload = bytesAt data c.1 c.2) ∧
      t.desc f slot id = some { d with dispatched := true, tStart := s.deviceTime } ∧
      t.mem = s.mem ∧ t.cores = s.cores) ∧
  (∀ (p : PortId) (k : LinkPacket) (tag : ColTag) (s : State), ColArrives s k → s.linkCtx k = none →
    exec (.colData p k tag) s = .next (tookIn s p k)) ∧
  (∀ (p : PortId) (k : LinkPacket) (tag : ColTag) (s : State) (g : ColGroup),
    ColArrives s k → s.linkCtx k = some g.ctx → s.colGroup tag.group = some g → tag.rank < g.ranks.length →
    (s.runningOf tag.group tag.seq = none →
      exec (.colData p k tag) s = .next (if g.seq ≤ tag.seq then (tookIn s p k).modFabric fun x =>
        { x with early := x.early ++ [⟨tag.group, tag.rank, tag.seq, tag.digest, k.addr.toNat, k.payload⟩] }
        else tookIn s p k)) ∧
    (∀ (r : Collective) (d : Desc), s.runningOf tag.group tag.seq = some r →
      s.desc r.f r.slot r.desc = some d → d.id = r.desc →
      (tag.digest ≠ r.digest → (s.ctx (s.queue r.f r.slot).ctx).st = .running →
        ∃ t, exec (.colData p k tag) s = .next t ∧ (t.ctx (s.queue r.f r.slot).ctx).st = .aborted) ∧
      (tag.digest = r.digest → r.op = 7 → exec (.colData p k tag) s = .next (tookIn s p k)) ∧
      (tag.digest = r.digest → r.op ≤ 4 → r.group = tag.group.val →
        (¬ (List.range g.ranks.length).all (contributed (addPiece r tag.rank k.addr.toNat k.payload) d) →
          ∃ t, exec (.colData p k tag) s = .next t ∧
            t.fabric = { (tookIn s p k).fabric with running := t.fabric.running } ∧
            t.fabric.running = (s.fabric.running.map fun y =>
              if y.desc = r.desc then addPiece r tag.rank k.addr.toNat k.payload else y) ∧
            (k.payload ≠ [] → (t.ctx (s.queue r.f r.slot).ctx).progressed = true) ∧
            t.mem = s.mem ∧ t.cores = s.cores) ∧
        ((List.range g.ranks.length).all (contributed (addPiece r tag.rank k.addr.toNat k.payload) d) →
          ∃ t bs, exec (.colData p k tag) s = .next t ∧
            bs = s.colResult (addPiece r tag.rank k.addr.toNat k.payload) d g ∧
            t.desc r.f r.slot r.desc = none ∧ (∀ y ∈ t.fabric.running, y.desc ≠ r.desc) ∧
            (0 < bs.length → s.homedTier g.ctx (clDst d) bs.length = true →
              (∀ a, s.homeFenced a = false) → Cells.wf s.mem = true →
              t.readTier (clDst d) bs.length = bs)))))

/-- RING with an integer SUM (08 R308): the combined element of all ranks is their sum, wrapping at
the element's width, whatever the chunk. -/
def Obligations.IntegerRingSumsWrap : Prop :=
  ∀ (dtype count e : Nat) (vals : List Nat), (dtype = 3 ∨ dtype = 4) → vals ≠ [] →
    (∀ v ∈ vals, v < 2 ^ (8 * elemBytes dtype)) →
    (reduceElem false dtype 0 count vals e).1 = vals.sum % 2 ^ (8 * elemBytes dtype)

/-- CTX_CREATE completes (10 R348 to R350; 09 R339). With sectors that fit the request and no GLOBAL
flag it makes the lowest free context READY on them: epoch 0, aperiodic, nothing homed, its
JOB_ID, SEED and WATCHDOG_MS; the sectors are its own, their regions disabled and their cores
halted; the generation is the one the ID's last use left. No sector asked for makes nothing and
answers CTX 0xFF; too few free sectors or sixteen contexts answer NO_RESOURCE, a job that another
context holds INVALID_ARG.

CTX_DESTROY, CTX_TXN_ZERO and TEARDOWN_TIMEOUT complete (10 R376, Table 10.10; 09 R331, R332).
CTX_DESTROY answers PENDING with an OP_ID, starts the teardown with a new generation and takes the
context's queues away. With nothing in flight in the networks CTX_TXN_ZERO frees the context and
its sectors, every scratchpad byte of which reads zero from then on; the ID keeps its generation,
and the EPOCH, DUMP_CONSENT, PERIOD_SEQ and counters that CTX_STATUS shows are kept too (the
model's choice, log 51). TEARDOWN_TIMEOUT drops the context's packets and resets its sectors. -/
def Obligations.ContextsAreMadeAndFreed : Prop :=
  (∀ (src : Src) (req : List Byte) (s : State) (mask : BitVec 16), Fronts s src 0x0201 req →
    mask = BitVec.ofNat 16 (rq req 2 2) → bits (rq req 1 1) 2 1 = 0 →
    (s.jobHeld (BitVec.ofNat 32 (rq req 4 4)) = true →
      exec (.ctxCreate src) s = .next (answered s src stInvalidArg [])) ∧
    (s.jobHeld (BitVec.ofNat 32 (rq req 4 4)) = false → (mask = 0 ∨ popCount mask = rq req 0 1) →
      (rq req 0 1 = 0 → (∃ k : Fin 16, (s.ctx k).st = .free) →
        ∃ gen, exec (.ctxCreate src) s
          = .next (({ popped s with freeCtr := s.freeCtr + 1 }).answer src stOk (createReply 0xFF gen 0))) ∧
      ((∀ k : Fin 16, (s.ctx k).st ≠ .free) →
        exec (.ctxCreate src) s = .next (answered s src stNoResource [])) ∧
      (s.pickSectors (rq req 0 1) mask = .error stNoResource →
        exec (.ctxCreate src) s = .next (answered s src stNoResource [])) ∧
      (∀ k secs, rq req 0 1 ≠ 0 → s.pickSectors (rq req 0 1) mask = .ok secs →
        (List.range 16).find? (fun k => (s.ctx k).st == .free) = some k →
        ∃ t, exec (.ctxCreate src) s = .next t ∧ (t.ctx k).st = .ready ∧ (t.ctx k).epoch = 0 ∧
          (t.ctx k).gen = (s.ctx k).gen ∧ (t.ctx k).periodUs = 0 ∧ (t.ctx k).homed = [] ∧
          (t.ctx k).fn = srcFn src ∧ (t.ctx k).job = BitVec.ofNat 32 (rq req 4 4) ∧
          (t.ctx k).seed = BitVec.ofNat 64 (rq req 8 8) ∧ (t.ctx k).watchdogMs = rq req 16 4 ∧
          (∀ n ∈ secs, (t.sector n).owner = some k) ∧
          (∀ c, sectorOfCore c ∈ secs → (t.core c).run = .halted) ∧
          (∀ tl i, sectorOfTile tl ∈ secs → t.region tl i = {}) ∧ t.mem = s.mem ∧
          Replied t src req stOk
            (createReply k (s.ctx k).gen.toNat (BitVec.ofNat 16 ((secs.map fun n => 2 ^ n).sum)))))) ∧
  ((∀ (src : Src) (req : List Byte) (s : State) (k : Nat), Fronts s src 0x0202 req → k = rq req 0 1 →
    (s.ctx k).st ≠ .free → (s.ctx k).st ≠ .teardown → s.teardownOp k = none →
    (s.opsOf (srcFn src)).length < 8 →
    ∃ t o, exec (.ctxDestroy src) s = .next t ∧ (t.ctx k).st = .teardown ∧
      (t.ctx k).gen = (s.ctx k).gen + 1 ∧ (∀ q ∈ t.queues, ¬ (q.2.present = true ∧ q.2.ctx = k)) ∧
      o ∈ t.delash.ops ∧ o.work = .teardown k ((s.ctx k).gen + 1).toNat ∧ o.fn = srcFn src ∧
      Replied t src req stPending (leBytes 2 o.id.toNat)) ∧
  (∀ (k : CtxId) (s : State), (s.ctx k).st = .teardown → (s.ctx k).tdStep = 4 →
    (s.txn k ≠ 0 → exec (.ctxTxnZero k) s = .next s) ∧
    (s.txn k = 0 → ∃ t, exec (.ctxTxnZero k) s = .next t ∧
      t.ctx k = { gen := (s.ctx k).gen, epoch := (s.ctx k).epoch, dumpConsent := (s.ctx k).dumpConsent,
                  periodSeq := (s.ctx k).periodSeq, dropped := (s.ctx k).dropped, aborts := (s.ctx k).aborts } ∧
      (∀ n ∈ s.sectorsOf k, (t.sector n).owner = none ∧ ∀ tl off, sectorOfTile tl = n → off < 0x300000 →
        t.readByte (spadAddr tl off) = 0) ∧ t.cores = s.cores) ∧
    (s.sectorsOf k = [] → ∃ t, exec (.teardownTimeout k) s = .next t ∧ (t.ctx k).st = .free ∧
      (t.ctx k).gen = (s.ctx k).gen ∧ (∀ y ∈ t.net.slots ++ t.net.sources, (routeOf y.pkt).ctx ≠ k.val) ∧
      t.mem = s.mem) ∧
    (∀ n, s.sectorsOf k = [n] → (s.sector n).st = .up → (s.sector n).reset = none →
      s.plumb.outOfService = false → ∃ t p, exec (.teardownTimeout k) s = .next t ∧
        (t.sector n).st = .resetting ∧ (t.sector n).reset = some p ∧ p.attempts = 1 ∧
        p.cause = 0x0305 ∧ (t.ctx k).tdStep = 5 ∧
        ∀ y ∈ t.net.slots ++ t.net.sources, (routeOf y.pkt).ctx ≠ k.val)))

/-- Q_CREATE, Q_DESTROY, MBX_SQ_TAIL and MBX_CQ_HEAD complete: rings (10 R353 to R355; 09 R335, R337).
Q_CREATE makes the queue of a free slot for a context that is READY, RUNNING or DRAINED, answers
where its doorbells stand, makes none for a ring of no entries, and refuses misaligned rings;
Q_DESTROY of a queue without descriptors takes it away. A write of MBX_SQ_TAIL below SQ_ENTRIES
moves the tail and a larger one is ignored; a write of MBX_CQ_HEAD returns slots up to the
engine's tail alone, and with every slot unreturned the head itself returns the whole ring (log
51).

DESCRIPTOR_FETCH completes (10 R354, R356, R359, R363, R364). The queue whose turn it is, with a
descriptor to fetch, a free completion slot and room in the limits, takes the 64 bytes at its
head; a descriptor that passes the checks of R359 is in flight with the generation of now, one
that fails completes at once with the first status that applies. After it every other context with
a ready queue is served before this one again. That a KERNEL of no cores completes with OK at its
fetch is the model's choice (log 34).

BARRIER, SIGNAL, WAIT and PERIOD_MARK complete (10 R361). Each completes with OK once its
condition holds, a SIGNAL having added VALUE to its event counter; before, it holds its place,
dispatched. A BARRIER whose mask names no queue of its context completes with INVALID_ARG. -/
def Obligations.QueuesAndDescriptors : Prop :=
  ((∀ (src : Src) (req : List Byte) (s : State) (k j : Nat), Fronts s src 0x0301 req →
    k = rq req 0 1 → j = rq req 1 1 → ((s.ctx k).st = .ready ∨ (s.ctx k).st = .running ∨ (s.ctx k).st = .drained) →
    ((s.queue (srcFn src) j).present = true →
      exec (.qCreate src) s = .next (answered s src stNoResource [])) ∧
    ((s.queue (srcFn src) j).present = false → (rq req 2 2 = 0 ∨ rq req 4 2 = 0) →
      ∃ p, p.length = 4 ∧ exec (.qCreate src) s
        = .next (({ popped s with freeCtr := s.freeCtr + 1 }).answer src stOk p)) ∧
    ((s.queue (srcFn src) j).present = false → rq req 2 2 ≠ 0 → rq req 4 2 ≠ 0 → exec (.qCreate src) s
      = .next (((popped s).setQueue (srcFn src) j
        { present := true, ctx := k, sqEntries := rq req 2 2, cqEntries := rq req 4 2, vector := rq req 6 2
          sqAddr := BitVec.ofNat 64 (rq req 8 8), cqAddr := BitVec.ofNat 64 (rq req 16 8) }).answer
            src stOk (leBytes 4 (0x20000 + srcFn src * 0x1000 + j * 8))))) ∧
  (∀ (src : Src) (req : List Byte) (s : State), s.delash.order = [src] → s.request src = some req →
    rqOpcode req = 0x0301 → rqPoll req = false → s.gafferUp = true →
    (rq req 8 8 % 64 ≠ 0 ∨ rq req 16 8 % 32 ≠ 0) →
    ∃ st, s.checkRequest src req = some st ∧ exec (.qCreate src) s = .next (answered s src st [])) ∧
  (∀ (src : Src) (req : List Byte) (s : State), Fronts s src 0x0302 req →
    (∀ o ∈ s.delash.ops, o.work ≠ .qDestroy (srcFn src) (rq req 0 1)) →
    ((s.queue (srcFn src) (rq req 0 1)).present = false →
      exec (.qDestroy src) s = .next (answered s src stInvalidArg [])) ∧
    ((s.queue (srcFn src) (rq req 0 1)).present = true →
      (s.queue (srcFn src) (rq req 0 1)).descs = [] → exec (.qDestroy src) s
        = .next (((popped s).setQueue (srcFn src) (rq req 0 1) {}).answer src stOk []))) ∧
  (∀ (f : FnId) (slot : SlotId) (v : Word) (s : State) (q : HostQueue) (h : Nat), s.queue f slot = q →
    h = v.toNat % 65536 →
    ((q.present = false ∨ q.sqEntries ≤ h) → exec (.mbxSqTail f slot v) s = .next s) ∧
    (q.present = true → h < q.sqEntries → ∃ t, exec (.mbxSqTail f slot v) s = .next t ∧
      t.queue f slot = { q with sqTail := h } ∧ t.ctxs = s.ctxs ∧ t.mem = s.mem) ∧
    (∀ n, n = (if h = q.cqHead ∧ q.unreturned = q.cqEntries then q.cqEntries
        else (h + q.cqEntries - q.cqHead) % q.cqEntries) →
      ((q.present = false ∨ q.cqEntries ≤ h ∨ q.unreturned < n) → exec (.mbxCqHead f slot v) s = .next s) ∧
      (q.present = true → h < q.cqEntries → n ≤ q.unreturned →
        ∃ t, exec (.mbxCqHead f slot v) s = .next t ∧
          t.queue f slot = { q with cqHead := h, unreturned := q.unreturned - n } ∧
          t.ctxs = s.ctxs ∧ t.mem = s.mem)))) ∧
  (∀ (f : FnId) (slot : SlotId) (bytes : List Byte) (s : State) (q : HostQueue) (x : Ctx),
    s.queue f slot = q → s.ctx q.ctx = x → bytes.length = 64 →
    (s.canFetch f slot = false → exec (.descriptorFetch f slot bytes) s = .next s) ∧
    (s.canFetch f slot = true → ∃ t, exec (.descriptorFetch f slot bytes) s = .next t ∧
      ∀ (f' : FnId) (slot' : SlotId), (t.queue f' slot').ctx = q.ctx →
        (∃ k, k < 16 ∧ k ≠ q.ctx ∧ t.ctxReady k = true) → t.canFetch f' slot' = false) ∧
    (s.canFetch f slot = true → (∀ d ∈ q.descs, d.id < s.fetchCtr) → ∀ d : Desc, d.bytes = bytes → d.id = s.fetchCtr →
      d.gen = x.gen → d.dispatched = false →
      ((x.st = .aborted ∨ x.st = .teardown) → ∃ t, exec (.descriptorFetch f slot bytes) s = .next t ∧
        Completed s t f slot d stAborted) ∧
      (x.st = .running → bits d.flags 1 1 = 1 → field bytes 4 2 % 2 ^ 12 ≠ x.gen.toNat →
        ∃ t, exec (.descriptorFetch f slot bytes) s = .next t ∧ Completed s t f slot d stStale) ∧
      (x.st = .running → bits d.flags 1 1 = 0 → descFieldsOk d = false →
        ∃ t, exec (.descriptorFetch f slot bytes) s = .next t ∧ Completed s t f slot d stInvalidArg) ∧
      (x.st = .running → bits d.flags 1 1 = 0 → descFieldsOk d = true → d.type = 1 →
        s.kernelOk q.ctx d = true → knCount d = 0 →
        ∃ t, exec (.descriptorFetch f slot bytes) s = .next t ∧ Completed s t f slot d stOk) ∧
      (x.st = .running → bits d.flags 1 1 = 0 → descFieldsOk d = true →
        (d.type ≠ 1 ∨ (s.kernelOk q.ctx d = true ∧ knCount d ≠ 0)) →
        ∃ t e, exec (.descriptorFetch f slot bytes) s = .next t ∧ t.desc f slot s.fetchCtr = some e ∧
          e.bytes = bytes ∧ e.gen = x.gen ∧ e.dispatched = false ∧
          (t.queue f slot).sqHead = (if q.sqHead + 1 = q.sqEntries then 0 else q.sqHead + 1) ∧
          t.fetchCtr = s.fetchCtr + 1 ∧ t.out = s.out ∧ t.cores = s.cores ∧ t.mem = s.mem))) ∧
  (∀ (f : FnId) (slot : SlotId) (id k : Nat) (d e : Desc) (s : State), (s.queue f slot).ctx = k →
    e = { d with dispatched := true, tStart := s.deviceTime } →
    (Undispatched s f slot id 5 d →
      (s.barrierQueues f slot k d = none →
        ∃ t, exec (.barrierQueue f slot id) s = .next t ∧ Completed s t f slot d stInvalidArg) ∧
      (∀ js, s.barrierQueues f slot k d = some js →
        ((∀ j ∈ js, ∀ x ∈ (s.queue f j).descs, id ≤ x.id) →
          ∃ t, exec (.barrierQueue f slot id) s = .next t ∧ Completed s t f slot d stOk ∧ t.ctxs = s.ctxs) ∧
        ((∃ j ∈ js, ∃ x ∈ (s.queue f j).descs, x.id < id) →
          ∃ t, exec (.barrierQueue f slot id) s = .next t ∧ t.desc f slot id = some e ∧ t.out = s.out))) ∧
    (Undispatched s f slot id 6 d →
      ((evValue d = 0 ∨ ∀ x ∈ (s.queue f slot).descs, id ≤ x.id) →
        ∃ t, exec (.signalEvent f slot id) s = .next t ∧ Completed s t f slot d stOk ∧
          Tab.get 0 (t.ctx k).events (evEvent d)
            = Tab.get 0 (s.ctx k).events (evEvent d) + BitVec.ofNat 32 (evValue d)) ∧
      (evValue d ≠ 0 → (∃ x ∈ (s.queue f slot).descs, x.id < id) →
        ∃ t, exec (.signalEvent f slot id) s = .next t ∧ t.desc f slot id = some e ∧ t.ctxs = s.ctxs)) ∧
    (Undispatched s f slot id 7 d →
      (evValue d ≤ (Tab.get (0 : Word) (s.ctx k).events (evEvent d)).toNat →
        ∃ t, exec (.waitEvent f slot id) s = .next t ∧ Completed s t f slot d stOk ∧ t.ctxs = s.ctxs) ∧
      ((Tab.get (0 : Word) (s.ctx k).events (evEvent d)).toNat < evValue d →
        ∃ t, exec (.waitEvent f slot id) s = .next t ∧ t.desc f slot id = some e ∧ t.out = s.out)) ∧
    (Undispatched s f slot id 8 d →
      ((s.ctx k).periodUs = 0 → ∃ t, exec (.periodMark f slot id) s = .next t ∧ Completed s t f slot d stOk) ∧
      ((s.ctx k).periodUs ≠ 0 → ∃ t, exec (.periodMark f slot id) s = .next t ∧
        t.desc f slot id = some e ∧ t.out = s.out)))

/-- CTX_SET_PERIOD and PERIOD_BOUNDARY complete (10 R368 to R372, Table 10.8). CTX_SET_PERIOD makes an
aperiodic context periodic with its first boundary at START, or a period from now, and refuses a
START that has passed. A boundary that is due raises the generation and the period index by one
and schedules the next boundary; every core of the context restarts with empty queues and srseq 0,
at its START_PC when it has an image, and keeps its bindings; byte counters, claims and events are
gone; no descriptor is left in flight.

CTX_ABORT (12 R428, R430, Table 12.7; 09 R332) and KERNEL_WATCHDOG (12 R425) complete. A context
that is not dead is aborted: ABORTED, its generation one higher, its epoch too when it has a job;
every core of its sectors outside a reset halts with nothing in flight; no descriptor is left and
a CONTAINED record is written. A dead one is left as it is. A KERNEL that has run for WATCHDOG_MS
aborts its context; sooner nothing happens. -/
def Obligations.PeriodsAndAborts : Prop :=
  ((∀ (src : Src) (req : List Byte) (s : State) (k p : Nat), Fronts s src 0x0204 req → k = rq req 0 1 →
    p = rq req 4 4 → p ≠ 0 → (s.ctx k).st = .running → (s.ctx k).periodUs = 0 →
    (rq req 8 8 ≠ 0 → rq req 8 8 < s.deviceTime.toNat →
      exec (.ctxSetPeriod src) s = .next (answered s src stInvalidArg [])) ∧
    (rq req 8 8 = 0 → exec (.ctxSetPeriod src) s = .next (State.answer ((popped s).setCtx k { s.ctx k with
      periodUs := p, nextPeriodUs := p, nextBoundary := s.deviceTime + BitVec.ofNat 64 (p * 1000) }) src stOk [])) ∧
    (rq req 8 8 ≠ 0 → s.deviceTime.toNat ≤ rq req 8 8 → exec (.ctxSetPeriod src) s
      = .next (State.answer ((popped s).setCtx k { s.ctx k with
        periodUs := p, nextPeriodUs := p, nextBoundary := BitVec.ofNat 64 (rq req 8 8) }) src stOk []))) ∧
  (∀ (k : CtxId) (s : State) (x : Ctx), s.ctx k = x → x.periodUs ≠ 0 → x.st = .running →
    (s.deviceTime.toNat < x.nextBoundary.toNat → exec (.periodBoundary k) s = .next s) ∧
    (x.nextBoundary.toNat ≤ s.deviceTime.toNat →
      (∀ n ∈ s.sectorsOf k, s.swapIsDue n = false ∨ (s.sector n).deferred ≠ 9) → ∃ t, exec (.periodBoundary k) s = .next t ∧
      (t.ctx k).gen = x.gen + 1 ∧ (t.ctx k).periodSeq = x.periodSeq + 1 ∧ (t.ctx k).st = .running ∧
      (t.ctx k).periodUs = x.nextPeriodUs ∧
      (t.ctx k).nextBoundary = x.nextBoundary + BitVec.ofNat 64 (x.nextPeriodUs * 1000) ∧
      (t.ctx k).events = [] ∧ t.deviceTime = s.deviceTime ∧
      (∀ c, s.coreIn k c = true → (t.core c).pc = (s.core c).kept.startPc ∧ (t.core c).srseq = 0 ∧
        (t.core c).btx = [] ∧ (t.core c).wait = none ∧ (t.core c).krn = {} ∧ (t.core c).df.ms = [] ∧
        (t.core c).run = (if (s.core c).kept.hasImage then .running else .halted) ∧
        (∀ q ∈ (t.core c).queues, q.2.vis = [] ∧ q.2.early = [])) ∧
      (∀ c i, s.coreIn k c = true → ((t.core c).binding i).word = ((s.core c).binding i).word) ∧
      (∀ tl, s.tileIn k tl = true → (t.tile tl).bcnt = [] ∧ (t.tile tl).barArrived = [] ∧
        ∀ i, (t.region tl i).pClaims = [] ∧ (t.region tl i).cClaims = [] ∧ (t.region tl i).pWait = [] ∧
          (t.region tl i).cWait = []) ∧
      (∀ (f : FnId) (slot : SlotId), (s.queue f slot).present = true → (s.queue f slot).ctx = k →
        (t.queue f slot).descs = [])))) ∧
  ((∀ (src : Src) (req : List Byte) (s : State) (k : Nat), Fronts s src 0x0203 req → k = rq req 0 1 →
    ((s.ctx k).dead = true → exec (.ctxAbort src) s
      = .next (answered s src stOk (leBytes 2 (s.ctx k).epoch.toNat))) ∧
    ((s.ctx k).dead = false → ∃ t, exec (.ctxAbort src) s = .next t ∧ (t.ctx k).st = .aborted ∧
      (t.ctx k).gen = (s.ctx k).gen + 1 ∧
      (t.ctx k).epoch = (if (s.ctx k).job = 0 then (s.ctx k).epoch else (s.ctx k).epoch + 1) ∧
      (t.ctx k).sectors = (s.ctx k).sectors ∧ (t.ctx k).homed = (s.ctx k).homed ∧
      (∀ c, s.owner (sectorOfCore c) = some k → (s.sector (sectorOfCore c)).reset = none →
        (t.core c).run = .halted ∧ (t.core c).btx = [] ∧ (t.core c).wait = none) ∧
      (∀ (f : FnId) (slot : SlotId), (s.queue f slot).present = true → (s.queue f slot).ctx = k →
        (t.queue f slot).descs = []) ∧
      (t.plumb.lastClass.toNat = 2 ∧ t.plumb.faultSeq = s.faults.nextSeq.setWidth 16) ∧
      Replied t src req stOk (leBytes 2 (t.ctx k).epoch.toNat))) ∧
  (∀ (f : FnId) (slot : SlotId) (id : Nat) (d : Desc) (s : State) (x : Ctx), s.desc f slot id = some d →
    s.ctx (s.queue f slot).ctx = x → s.gafferUp = true → d.type = 1 → d.dispatched = true →
    x.watchdogMs ≠ 0 → x.st = .running →
    (s.deviceTime.toNat < d.tStart.toNat + (x.watchdogMs * 1000000 + d.drainedNs) →
      exec (.kernelWatchdog f slot id) s = .next s) ∧
    (d.tStart.toNat + (x.watchdogMs * 1000000 + d.drainedNs) ≤ s.deviceTime.toNat →
      ∃ t, exec (.kernelWatchdog f slot id) s = .next t ∧ (t.ctx (s.queue f slot).ctx).st = .aborted ∧
        (t.ctx (s.queue f slot).ctx).gen = x.gen + 1)))

/-- MBX_GO and MCTP_MESSAGE complete (09 R327 to R329, R333, R337). A GO while PENDING sets OVERRUN;
otherwise the request is copied. While firmware is not up the answer is BUSY; a reissue gets the
saved response; a failed check is answered at once; any other request waits for its turn. The MCTP
endpoint NACKs while firmware is not up.

The order of the request checks (09 Table 9.8, R337): each failure has its status, and an earlier
check's comes before a later one's.

POLL, LONG_OP_COMPLETE and HEARTBEAT complete (09 R331, R322). A poll of an operation that runs
answers PENDING with its OP_ID; after its end it answers the final response and releases the
operation. An operation whose work has ended keeps its final response; flash work ends after the
flash work before it (13 R454), and a self-test run not while its tile is at thermal level 2 or 3
(14 R487). That a command's effect comes before the end of its long work is the model's choice
(log 44). The heartbeat counts while firmware serves commands. -/
def Obligations.DelashRequests : Prop :=
  ((∀ (f : FnId) (v : Word) (s : State) (req : List Byte), req = fit 256 (s.mailbox f).req →
    (v.getLsbD 0 = false → exec (.mbxGo f v) s = .next s) ∧
    (v.getLsbD 0 = true → (s.mailbox f).state = 1 → ∃ t, exec (.mbxGo f v) s = .next t ∧
      t.mailbox f = { s.mailbox f with overrun := true } ∧ t = { s with delash := t.delash } ∧
      t.delash.order = s.delash.order) ∧
    (v.getLsbD 0 = true → (s.mailbox f).state ≠ 1 → s.gafferUp = false →
      ∃ t, exec (.mbxGo f v) s = .next t ∧ Replied t (.mailbox f) req stBusy [] ∧
        t.delash.order = s.delash.order ∧ t.delash.saved = s.delash.saved) ∧
    (v.getLsbD 0 = true → (s.mailbox f).state ≠ 1 → s.gafferUp = true → s.delash.order = [] →
      ∃ t, exec (.mbxGo f v) s = .next t ∧ (t.mailbox f).req = (s.mailbox f).req ∧
        t.mem = s.mem ∧ t.cores = s.cores ∧ t.ctxs = s.ctxs ∧
        (∀ rsp, s.reissue (.mailbox f) req = some rsp → (t.mailbox f).state = 2 ∧
          (t.mailbox f).rsp = fit 256 rsp ∧ t.delash.order = []) ∧
        (s.reissue (.mailbox f) req = none →
          (∀ e, s.checkRequest (.mailbox f) req = some e → Replied t (.mailbox f) req e [] ∧
            t.delash.order = []) ∧
          (s.checkRequest (.mailbox f) req = none → (t.mailbox f).state = 1 ∧
            (t.mailbox f).buf = some req ∧ (t.mailbox f).rsp = (s.mailbox f).rsp ∧
            t.delash.order = [.mailbox f])))) ∧
  (∀ (bytes : List Byte) (s : State), 
    (s.gafferUp = false → exec (.mctpMessage bytes) s = .next { s with out := .mctpNack :: s.out }) ∧
    (s.gafferUp = true → s.delash.bmcBuf = none → s.delash.order = [] →
      (∀ e, s.checkRequest .bmc (fit 256 bytes) = some e →
        ∃ t, exec (.mctpMessage bytes) s = .next t ∧ t.delash.order = [] ∧
          Replied t .bmc (fit 256 bytes) e []) ∧
      (s.checkRequest .bmc (fit 256 bytes) = none →
        exec (.mctpMessage bytes) s = .next { s with delash := { s.delash with
          bmcBuf := some (fit 256 bytes), order := [.bmc] } })))) ∧
  (∀ (s : State) (src : Src) (r : List Byte),
    (s.gafferUp = false → s.checkRequest src r = some stBusy) ∧
    (s.gafferUp = true → s.plumb.gaffer = .running → s.plumb.outOfService = false →
      (240 < rqLen r → s.checkRequest src r = some stInvalidArg) ∧
      (rqLen r ≤ 240 → rqFlags r &&& 0xFFFD = 0 → zeroBytes r 10 2 = true →
        (crc32c ((r.drop 16).take (rqLen r)) ≠ rqCheck r → s.checkRequest src r = some stCheckFailed) ∧
        (crc32c ((r.drop 16).take (rqLen r)) = rqCheck r →
          (permitted src r = false → s.checkRequest src r = some stUnsupported) ∧
          (permitted src r = true →
            (lifecycleOk s.lifecycle.toNat r = false → s.checkRequest src r = some stLifecycle) ∧
            (lifecycleOk s.lifecycle.toNat r = true →
              (licenceOk s.boot.licence r = false → s.checkRequest src r = some stNotLicensed) ∧
              (licenceOk s.boot.licence r = true → rqPoll r = false → rqLen r ≠ payloadSize r →
                s.checkRequest src r = some stInvalidArg))))))) ∧
  ((∀ (src : Src) (req : List Byte) (s : State) (op : LongOp), s.delash.order = [src] →
    s.request src = some req → rqPoll req = true → s.gafferUp = true → s.checkRequest src req = none →
    s.pollOp src req = some op →
    (op.final = none → exec (.poll src) s = .next (answered s src stPending (leBytes 2 op.id.toNat))) ∧
    (∀ x, op.final = some x → ∃ t, exec (.poll src) s = .next t ∧ Replied t src req x.1.toNat x.2 ∧
      t.delash.ops = s.delash.ops.filter (fun o => !(o.fn == op.fn && o.id == op.id)))) ∧
  (∀ (f : FnId) (id : Nat) (s : State) (op : LongOp),
    s.delash.ops.find? (fun o => o.fn == f.val && o.id.toNat == id) = some op →
    (op.final.isSome = true → exec (.longOpComplete f id) s = .next s) ∧
    (op.final = none →
      (∀ k g, op.work = .teardown k g →
        ((s.ctx k).st = .teardown → (s.ctx k).gen.toNat = g → exec (.longOpComplete f id) s = .next s) ∧
        ((s.ctx k).st ≠ .teardown → ∃ t, exec (.longOpComplete f id) s = .next t ∧
          { op with final := some (0, []) } ∈ t.delash.ops ∧ t = { s with delash := t.delash })) ∧
      (∀ m, op.work = .sectorReset m → (∀ n ∈ setBits m, (s.sector n).reset = none) →
        ∃ t, exec (.longOpComplete f id) s = .next t ∧
          { op with final := some (0, []) } ∈ t.delash.ops ∧ t = { s with delash := t.delash }) ∧
      (∀ m, op.work = .linkRetrain m → (∀ p ∈ setBits m, (s.port p).st = .down) →
        ∃ t, exec (.longOpComplete f id) s = .next t ∧
          { op with final := some (0, leBytes 2 0) } ∈ t.delash.ops ∧ t = { s with delash := t.delash }) ∧
      (∀ st x, op.work = .timed st x → ∃ t, exec (.longOpComplete f id) s = .next t ∧
        { op with final := some (BitVec.ofNat 8 st, x) } ∈ t.delash.ops ∧ t = { s with delash := t.delash }) ∧
      (∀ st x, op.work = .flash st x → (s.flashBefore op = true → exec (.longOpComplete f id) s = .next s) ∧
        (s.flashBefore op = false → ∃ t, exec (.longOpComplete f id) s = .next t ∧
          { op with final := some (BitVec.ofNat 8 st, x) } ∈ t.delash.ops ∧ t = { s with delash := t.delash })) ∧
      (op.work = .activate →
        (s.flashBefore op = true ∨ s.gafferUp = false → exec (.longOpComplete f id) s = .next s) ∧
        (∀ y, s.flashBefore op = false → s.gafferUp = true → s.flash.session = some y → y.activating = true →
          (∀ o ∈ s.delash.ops, o.work = .activate → o.final = none → o.fn = op.fn ∧ o.id = op.id) → ∃ t, exec (.longOpComplete f id) s = .next t ∧
          { op with final := some (0, [1]) } ∈ t.delash.ops ∧ t.plumb.gaffer = .restarting)) ∧
      (∀ p n spare powered b, op.work = .bist p n spare powered b →
        (2 ≤ (s.phy p).thermLevel → exec (.longOpComplete f id) s = .next s) ∧
        ((s.phy p).thermLevel ≤ 1 → ∃ t, exec (.longOpComplete f id) s = .next t ∧
          { op with final := some (0, b) } ∈ t.delash.ops ∧
          (t.phy p).lbistFail = min 0xFFFF ((s.phy p).lbistFail + n) ∧ (t.phy p).diag = none ∧
          ((s.phy p).cad = .lehr → (s.phy p).visit = none → spare = true → (t.phy p).cad = .spare))) ∧
      (∀ g j, op.work = .qDestroy g j → (s.queue g j).descs ≠ [] → exec (.longOpComplete f id) s = .next s) ∧
      (∀ g j, op.work = .qDestroy g j → (s.queue g j).descs = [] →
        ∃ t, exec (.longOpComplete f id) s = .next t ∧
          { op with final := some (0, []) } ∈ t.delash.ops ∧ t.queue g j = {}))) ∧
  (∀ s : State, (s.gafferUp = true → exec .heartbeat s
      = .next { s with plumb := { s.plumb with heartbeat := s.plumb.heartbeat + 1 } }) ∧
    (s.gafferUp = false → exec .heartbeat s = .next s)))

/-- PLB_ALERT_WRITE and PLB_ALERT_EN_WRITE complete (09 R323, Table 9.4; 00 R10). The PF and the BMC
clear the alert bits that they write as 1, but those that an event sets in the same cycle, and set
the enables; a newly enabled set bit raises PF vector 1 once. A write of any other agent clears
and enables nothing.

SMBUS_BLOCK_READ, SMBUS_BLOCK_WRITE and ALERT_RESPONSE_ADDRESS complete: the SMBus Plumb port (09
R325, Table 9.4; 00 R10). A Block Read returns byte count 4 and the register, least significant
byte first; codes from 0x80 are NACKed. A Block Write of PLB_ALERT or PLB_ALERT_EN is performed;
any other code or count, or a wrong packet error code, is NACKed and writes no register. Alerts
that events raise in the same cycle are set in every case. ALERT# is answered while an enabled
alert is set. The polynomial of the error code is PRESUMED (log 48). -/
def Obligations.AlertsAndSmbus : Prop :=
  (∀ (g : Agent) (v : Word) (events : BitVec 7) (s : State),
    ((g = .host 0 ∨ g = .bmc) →
      (∃ t, exec (.plbAlertWrite g v events) s = .next t ∧
        t.plumb = { s.plumb with alert := (s.plumb.alert &&& ~~~(v.setWidth 7)) ||| events } ∧
        t.out = (if t.plumb.alert &&& s.plumb.alertEn &&& ~~~s.plumb.alert = 0 then s.out
          else .msix 0 1 :: s.out) ∧ t = { s with plumb := t.plumb, out := t.out }) ∧
      (∃ t, exec (.plbAlertEnWrite g v) s = .next t ∧
        t.plumb = { s.plumb with alertEn := v.setWidth 7 } ∧
        t.out = (if s.plumb.alert &&& v.setWidth 7 &&& ~~~s.plumb.alertEn = 0 then s.out
          else .msix 0 1 :: s.out) ∧ t = { s with plumb := t.plumb, out := t.out })) ∧
    (g ≠ .host 0 → g ≠ .bmc → exec (.plbAlertWrite g v 0) s = .next s ∧
      exec (.plbAlertEnWrite g v) s = .next s)) ∧
  ((∀ (code : Byte) (s : State), s.boot.auxOn = true →
    (0x80 ≤ code.toNat → exec (.smbusBlockRead code false) s = .next { s with out := .smbusNack :: s.out }) ∧
    (code.toNat < 0x80 → ∃ t, exec (.smbusBlockRead code false) s = .next t ∧
      t.out = .smbusData (4 :: leBytes 4 (s.plumbRead 16 (4 * code.toNat))) :: s.out ∧
      (code.toNat ≠ 0x0A → t.plumb = s.plumb) ∧ t.mem = s.mem ∧ t.cores = s.cores) ∧
    (∃ t, exec (.smbusBlockRead 0 false) s = .next t ∧
      t.out = .smbusData [4, 0xE1, 0xB9, 0xB2, 0] :: s.out) ∧
    (∃ t, exec (.smbusBlockRead 0x0A false) s = .next t ∧
      Tab.get 0 t.plumb.timeHi 16 = (s.deviceTime >>> 32).setWidth 32)) ∧
  (∀ (code count b0 b1 b2 b3 : Byte) (pec : Option Byte) (ev : BitVec 7) (s : State) (good : Bool),
    s.boot.auxOn = true →
    good = (pec = none ∨ pec = some (crc8 [s.boot.parison.smbusAddr <<< 1, code, count, b0, b1, b2, b3]) : Bool) →
    ((code ≠ 7 ∧ code ≠ 8) ∨ count ≠ 4 ∨ good = false →
      ∃ t, exec (.smbusBlockWrite code count [b0, b1, b2, b3] pec ev) s = .next t ∧
        t.plumb = { s.plumb with alert := s.plumb.alert ||| ev } ∧ t.out.head? = some .smbusNack ∧
        (ev = 0 → t = { s with out := .smbusNack :: s.out })) ∧
    (code = 7 → count = 4 → good = true →
      ∃ t, exec (.smbusBlockWrite code count [b0, b1, b2, b3] pec ev) s = .next t ∧
        t.plumb = { s.plumb with alert := (s.plumb.alert &&& ~~~(b0.setWidth 7)) ||| ev } ∧
        t.out.head? = some .smbusAck ∧ (ev = 0 → t.out = .smbusAck :: s.out)) ∧
    (code = 8 → count = 4 → good = true →
      ∃ t, exec (.smbusBlockWrite code count [b0, b1, b2, b3] pec ev) s = .next t ∧
        t.plumb = { s.plumb with alertEn := b0.setWidth 7, alert := s.plumb.alert ||| ev } ∧
        t.out.head? = some .smbusAck)) ∧
  (∀ s : State, s.boot.auxOn = true → exec .alertResponseAddress s = .next (s.emit
    (if s.plumb.alert &&& s.plumb.alertEn = 0 then .smbusNack else .smbusData [s.boot.parison.smbusAddr]))))

/-- MBX_APT_CTX_WRITE, BAR2_READ and BAR2_WRITE complete: the aperture (09 R317, R318). A write of
MBX_APT_CTX that sets VALID is granted when the function owns the context, which is neither FREE
nor in TEARDOWN; a refused one changes VALID only. A BAR2 read of memory homed to the context
returns its data, poisoned data the EP bit, and any other an Unsupported Request; a write is done
or discarded.

DEBUG_WINDOW_READ, DEBUG_WINDOW_WRITE and DEBUG_LATE complete: the debug window (09 R319, R320).
Outside MANUFACTURE and RMA reads return zero and writes are ignored; in them an unpopulated
address does the same without LATE, memory is read and written, and an access of a late unit, or
one not answered in time, sets LATE and reads all-ones.

FLR completes: a function level reset (09 R315, R333). The function's mailbox, aperture and queues
are at their reset values, its saved response stays, and every context that it owns is in
teardown. A reset of the PF does so for every function, and the sequencer registers go back too;
while firmware boots, those of the work that the boot has done stay (the model's choice, log 49). -/
def Obligations.HostWindows : Prop :=
  ((∀ (f : FnId) (v : Word) (s : State) (k : Nat), k = v.toNat % 16 →
    ∃ t, exec (.mbxAptCtxWrite f v) s = .next t ∧ t = { s with delash := { s.delash with apt := t.delash.apt } } ∧
      (∀ g, g ≠ f.val → t.aperture g = s.aperture g) ∧
      (v.getLsbD 4 = false → t.aperture f = { s.aperture f with ctx := k, valid := false }) ∧
      (v.getLsbD 4 = true → (s.ctx k).st ≠ .free → (s.ctx k).st ≠ .teardown →
        (f = 0 ∨ (s.ctx k).fn = f.val) → t.aperture f = { s.aperture f with ctx := k, valid := true }) ∧
      (v.getLsbD 4 = true → ((s.ctx k).st = .free ∨ (s.ctx k).st = .teardown ∨ (f ≠ 0 ∧ (s.ctx k).fn ≠ f.val)) →
        t.aperture f = { s.aperture f with valid := false })) ∧
  (∀ (f : FnId) (off len : Nat) (s : State) (x : Aperture) (a : Nat), s.aperture f = x → a = x.base + off →
    (x.valid = false → exec (.bar2Read f off len) s = .next { s with out := .pcieUnsupported f :: s.out }) ∧
    (x.valid = true → a + len ≤ tier1Size → 0 < len → s.homeFenced a = false →
      (s.allHomed x.ctx a len = false →
        exec (.bar2Read f off len) s = .next { s with out := .pcieUnsupported f :: s.out }) ∧
      (s.allHomed x.ctx a len = true →
        (s.isPoisoned a len = true → ∃ t, exec (.bar2Read f off len) s = .next t ∧
          t = { s with out := .pciePoisoned f :: s.out, caches := t.caches }) ∧
        (s.isPoisoned a len = false → ∃ t, exec (.bar2Read f off len) s = .next t ∧
          t = { s with out := .pcieData f (s.readTier a len) :: s.out, caches := t.caches })))) ∧
  (∀ (f : FnId) (off : Nat) (data : List Byte) (s : State) (x : Aperture) (a : Nat), s.aperture f = x →
    a = x.base + off →
    (x.valid = false → exec (.bar2Write f off data) s = .next s) ∧
    (x.valid = true → a + data.length ≤ tier1Size → data ≠ [] → s.homeFenced a = false →
      (s.allHomed x.ctx a data.length = false → exec (.bar2Write f off data) s = .next s) ∧
      (s.allHomed x.ctx a data.length = true → Cells.wf s.mem = true →
        ∃ t, exec (.bar2Write f off data) s = .next t ∧ t.readTier a data.length = data ∧ t.out = s.out ∧
          t.cores = s.cores)))) ∧
  (∀ (off : Nat) (v : Word) (w : Bool) (s : State) (a : Nat), a = s.delash.dbgBase + off →
    (s.lifecycle ≠ 0 → s.lifecycle ≠ 4 →
      exec (.debugWindowRead off) s = .next { s with out := .debugData 0 :: s.out } ∧
      exec (.debugWindowWrite off v) s = .next s ∧ exec (.debugLate w) s = .next s) ∧
    ((s.lifecycle = 0 ∨ s.lifecycle = 4) →
      (s.addrKind a = .unpopulated →
        exec (.debugWindowRead off) s = .next { s with out := .debugData 0 :: s.out } ∧
        exec (.debugWindowWrite off v) s = .next s) ∧
      (∃ t, exec (.debugLate w) s = .next t ∧ t.delash = { s.delash with dbgLate := true } ∧
        t.out = (if w then s.out else .debugData 0xFFFFFFFF :: s.out)) ∧
      (∀ tl o, s.addrKind a = .spad tl o → a % 4 = 0 → Cells.wf s.mem = true →
        (((s.sector (sectorOfTile tl)).st = .up ∨ (s.sector (sectorOfTile tl)).st = .degraded) →
          exec (.debugWindowRead off) s = .next (s.emit
            (.debugData (BitVec.ofNat 32 (leVal (s.readBytes a 4))))) ∧
          ∃ t, exec (.debugWindowWrite off v) s = .next t ∧ t.readBytes a 4 = leBytes 4 v.toNat ∧
            (∀ x, populated x → x < a ∨ a + 4 ≤ x → t.readByte x = s.readByte x) ∧ t.out = s.out) ∧
        ((s.sector (sectorOfTile tl)).st = .fenced → ∃ t, exec (.debugWindowRead off) s = .next t ∧
          t.delash.dbgLate = true ∧ t.out = .debugData 0xFFFFFFFF :: s.out)))) ∧
  (∀ (f : FnId) (s : State), ∃ t, exec (.flr f) s = .next t ∧
    (∀ g : FnId, (g = f ∨ f = 0) → t.mailbox g = {} ∧ t.aperture g = {} ∧
      (∀ j, j < 16 → t.queue g j = {}) ∧
      (∀ k, k < 16 → (s.ctx k).st ≠ .free → (s.ctx k).fn = g.val → (t.ctx k).st = .teardown)) ∧
    (f = 0 → t.boot.seqSectors = 0 ∧ t.boot.seqPorts = 0 ∧ t.boot.seqResult = 0 ∧ t.boot.seqLast = 0 ∧
      t.boot.seqRefused = false ∧ (s.plumb.gaffer ≠ .boot → t.boot.trained = 0 ∧ t.boot.released = 0 ∧
        t.boot.imageDone = 0 ∧ t.boot.failed = 0 ∧ t.boot.portsUp = 0 ∧ t.boot.seqBusy = false ∧
        t.boot.seqActive = false)) ∧
    (f ≠ 0 → ∀ g : FnId, g ≠ f → t.mailbox g = s.mailbox g) ∧ t.delash.saved = s.delash.saved)

/-- DEV_IDENTIFY, DEV_STATUS and DEV_SET_PROFILE complete (09 Table 9.10; 14 R473, R475). The first
two only read; the payload begins with part and stepping, with device time. A profile above the
pins' or the record's maximum is INVALID_ARG; another is requested, and the lowest of the three is
active.

HEALTH_READ and HEALTH_CLEAR complete (09 R341; 11 R415). A read by the PF returns the records of
the units from FIRST on that exist and changes nothing; a clear zeroes the counters of exactly
those units.

DIAG_DUMP_READ completes (09 Table 9.12, R343, R344). A dump that does not exist is INVALID_ARG,
and so is a DMA that the host answers with an error; the bytes that exist are delivered in the
response or to the host's memory; that the response is then the four bytes of LENGTH alone is the
model's choice (log 51). -/
def Obligations.DeviceCommands : Prop :=
  (∀ (src : Src) (req : List Byte) (s : State),
    (Fronts s src 0x0101 req → ∃ p, exec (.devIdentify src) s = .next (answered s src stOk p) ∧
      p.length = 29 ∧ field p 0 2 = 0xB9E1 ∧ field p 2 1 = 0xB2 ∧ field p 3 1 = s.lifecycle.toNat ∧
      field p 10 1 = (srcFn src) ∧ field p 12 8 = Config.serial.toNat ∧
      (s.fabric.node = none → field p 20 2 = 0xFFFF) ∧ field p 26 1 = s.plumb.profile.toNat) ∧
    (Fronts s src 0x0102 req → ∃ p, exec (.devStatus src) s = .next (answered s src stOk p) ∧
      p.length = 50 ∧ field p 0 8 = s.deviceTime.toNat ∧ field p 0x30 2 = s.plumb.faultSeq.toNat ∧
      (∀ n, n < 16 → field p (8 + n) 1 = (s.sector n).plumbWord % 32) ∧
      (∀ n, n < 16 → field p (0x18 + n) 1 = (s.port n).short % 256)) ∧
    (Fronts s src 0x0103 req → ∀ p top : BitVec 2, p = BitVec.ofNat 2 (rq req 0 1) →
      top = minProfile s.power.maxProfile (pinProfile s.plumb.pins) →
      (top.toNat < p.toNat → exec (.devSetProfile src) s = .next (answered s src stInvalidArg [])) ∧
      (p.toNat ≤ top.toNat → ∃ t, exec (.devSetProfile src) s = .next t ∧ t.power.requested = p ∧
        t.plumb.profile = p ∧ Replied t src req stOk (leBytes 1 p.toNat) ∧ t.mem = s.mem ∧
        t.cores = s.cores ∧ t.ctxs = s.ctxs))) ∧
  ((∀ (src : Src) (req : List Byte) (s : State) (n : Nat), Fronts s src 0x0701 req → srcFn src = 0 →
    n = min (rq req 4 2) (scopeUnits (rq req 0 1) - rq req 2 2) →
    exec (.healthRead src) s = .next (answered s src stOk (leBytes 1 (rq req 0 1) ++ leBytes 1 n ++ [0, 0]
      ++ (List.range n).flatMap fun i =>
        healthRecord (rq req 2 2 + i) (s.healthOf (rq req 0 1) (rq req 2 2 + i))))) ∧
  (∀ (src : Src) (req : List Byte) (s : State) (scope first n : Nat), Fronts s src 0x0702 req →
    scope = rq req 0 1 → scope ≤ 3 → first = rq req 2 2 → n = min (rq req 4 2) (scopeUnits scope - first) →
    ∃ t, exec (.healthClear src) s = .next t ∧ Replied t src req stOk [] ∧
      (∀ u, first ≤ u → u < first + n → ∀ c ∈ (t.healthOf scope u).2, c = 0) ∧
      (∀ u, u < first ∨ first + n ≤ u → t.healthOf scope u = s.healthOf scope u) ∧
      (∀ z u, z ≤ 3 → z ≠ scope → t.healthOf z u = s.healthOf z u) ∧ t.xchk = s.xchk ∧ t.mem = s.mem)) ∧
  (∀ (src : Src) (ok : Bool) (req : List Byte) (s : State), Fronts s src 0x0802 req →
    (s.dumpSource (rq req 0 2) = none →
      exec (.diagDumpRead src ok) s = .next (answered s src stInvalidArg [])) ∧
    (∀ d, rq req 0 2 ≠ 0 → s.faults.dumps.find? (·.num == rq req 0 2) = some d → rq req 16 8 = 0 →
      ∀ n, n = min (rq req 8 4) (d.sectors.length * 0x1000000 - rq req 4 4) →
        exec (.diagDumpRead src ok) s = .next (answered s src stOk
          (leBytes 8 n ++ (List.range n).map fun i => d.byte (rq req 4 4 + i)))) ∧
    (rq req 0 2 = 0 → ∀ n, n = min (rq req 8 4) (131072 - rq req 4 4) →
      (rq req 16 8 = 0 → exec (.diagDumpRead src ok) s = .next (answered s src stOk
        (leBytes 8 n ++ (List.range n).map fun i => s.logByte (rq req 4 4 + i)))) ∧
      (rq req 16 8 ≠ 0 → n ≠ 0 → ok = false →
        exec (.diagDumpRead src ok) s = .next (answered s src stInvalidArg [])) ∧
      (rq req 16 8 ≠ 0 → n ≠ 0 → ok = true → ∃ t, exec (.diagDumpRead src ok) s = .next t ∧
        .hostWrite (srcFn src) (BitVec.ofNat 64 (rq req 16 8))
          ((List.range n).map fun i => s.logByte (rq req 4 4 + i)) ∈ t.out ∧
        Replied t src req stOk (leBytes 4 n))))

/-- PLACE_LOAD completes (05 R175 to R178). A context that is neither READY nor DRAINED, or an image
that fails a check, is answered with that status and nothing changes but the sector stores' lines.
An image without preloads loads: the context runs; a core with a record gets its image, start
address, tensor descriptors and actors, and runs if it has an image; the cores of the context
without one are halted (that their pc is zero is the model's choice, logs 5 and 35); a tile with a
record gets its regions; memory changes in the drain areas of its sectors alone (log 67). An image
with preloads of any words answers PENDING (the model's choice of when, log 35), or BUSY with 8
operations in progress (09 R331).

PLACE_DRAIN and PLACE_RESUME complete (05 R180 to R182; 10 R372). A drain of a periodic context is
INVALID_ARG, and so is one of a placement that an abort ended (the model's choice, log 35); one
without a placement that runs is OK; a running one with no packet under way is DRAINED, its
running cores stop where they stand, their instructions in flight with a progress record, its
waiting claims are withdrawn, and no byte changes but in the drain areas of its sectors and what
an instruction stopped half way has written (03 R115). A resume lets a drained context's cores go
on. -/
def Obligations.Placements : Prop :=
  (∀ (src : Src) (req : List Byte) (s : State) (k : Nat) (m : List Byte), Fronts s src 0x0401 req →
    k = rq req 0 1 → m = s.readTier (rq req 8 8) (rq req 4 4) →
    ((s.ctx k).st ≠ .ready → (s.ctx k).st ≠ .drained →
      exec (.placeLoad src) s = .next (answered s src stInvalidArg [])) ∧
    (((s.ctx k).st = .ready ∨ (s.ctx k).st = .drained) →
      (∀ e, s.imageStatus k (rq req 8 8) (rq req 4 4) = some e →
        ∃ t, exec (.placeLoad src) s = .next t ∧ Replied t src req e [] ∧
          t = { answered s src e [] with caches := t.caches }) ∧
      (s.imageStatus k (rq req 8 8) (rq req 4 4) = none → (∃ r ∈ imPreloads m, prWords r ≠ 0) →
        (8 ≤ (s.opsOf (srcFn src)).length → exec (.placeLoad src) s = .next (answered s src stBusy [])) ∧
        ((s.opsOf (srcFn src)).length < 8 → ∃ t o, exec (.placeLoad src) s = .next t ∧ o ∈ t.delash.ops ∧
          Replied t src req stPending (leBytes 2 o.id.toNat) ∧ o.fn = srcFn src ∧ o.ctx = some k ∧ o.final = none ∧
          (o.work = .timed stPoisoned [] ∨
            (o.work = .timed stOk [] ∧ (t.ctx k).st = .running ∧ (t.ctx k).placed = true)))) ∧
      (s.imageStatus k (rq req 8 8) (rq req 4 4) = none → imPreloads m = [] → Cells.wf s.priv = true →
        ∃ t, exec (.placeLoad src) s = .next t ∧ Replied t src req stOk [] ∧
          (t.ctx k).st = .running ∧ (t.ctx k).placed = true ∧ (t.ctx k).gen = (s.ctx k).gen ∧
          (∀ r ∈ imCores m, ∀ c, s.relCore k (crCore r) = some c → s.coreIn k c = true →
            (t.core c).pc = crStart r ∧ (t.core c).srseq = 0 ∧ (t.core c).btx = [] ∧
            (t.core c).run = (if crImageLen r = 0 then .halted else .running) ∧
            (∀ n, n < 16 → Tab.get 0 (t.core c).td n = crTd r n ∧
              Tab.get 0 (t.core c).df.act n = crAct r n) ∧
            (∀ off, off < crImageLen r → t.readPriv c off = m.getD (crImageOff r + off) 0)) ∧
          (∀ c, s.coreIn k c = true → (∀ r ∈ imCores m, s.relCore k (crCore r) ≠ some c) →
            (t.core c).run = .halted ∧ (t.core c).pc = 0) ∧
          (∀ r ∈ imTiles m, ∀ tl, s.relTile k (trTile r) = some tl → ∀ n, n < 32 →
            t.region tl n = trRegion k r n) ∧
          (∀ x, populated x → (∀ n ∈ s.sectorsOf k,
            x < (n + 1) * 0x480000000 - 162 * 0x100000 ∨ (n + 1) * 0x480000000 ≤ x) →
            t.readByte x = s.readByte x) ∧ (∀ c, s.coreIn k c = false → (∀ r ∈ imCores m, s.relCore k (crCore r) ≠ some c) →
            t.core c = s.core c)))) ∧
  ((∀ (src : Src) (req : List Byte) (s : State) (k : Nat), Fronts s src 0x0402 req → k = rq req 0 1 →
    (((s.ctx k).periodUs ≠ 0 ∨ ((s.ctx k).placed = true ∧ (s.ctx k).dead = true)) →
      exec (.placeDrain src) s = .next (answered s src stInvalidArg [])) ∧
    ((s.ctx k).periodUs = 0 → (s.ctx k).st ≠ .running → ((s.ctx k).placed = false ∨ (s.ctx k).dead = false) →
      exec (.placeDrain src) s = .next (answered s src stOk [])) ∧
    ((s.ctx k).periodUs = 0 → (s.ctx k).st = .running → NetworkQuiet s k →
      ∃ t, exec (.placeDrain src) s = .next t ∧ Replied t src req stOk [] ∧ (t.ctx k).st = .drained ∧
        (t.ctx k).drainedAt = some s.deviceTime ∧ (t.ctx k).gen = (s.ctx k).gen ∧
        (∀ x, populated x → (∀ n ∈ s.sectorsOf k,
          x < (n + 1) * 0x480000000 - 162 * 0x100000 ∨ (n + 1) * 0x480000000 ≤ x) →
          (x < spadBase ∨ ∀ c, s.coreIn k c = true → (s.core c).run = .running →
            ∀ i ∈ (s.core c).btx, i.executed = false) →
          t.readByte x = s.readByte x) ∧
        (∀ c, s.coreIn k c = true → (t.core c).pc = (s.core c).pc ∧ (t.core c).x = (s.core c).x ∧
          (t.core c).btx.map (fun i => { i with position := none, samples := [] })
            = (s.core c).btx.map (fun i => { i with position := none, samples := [] }) ∧
          ((s.core c).run = .running → ∀ i ∈ (t.core c).btx, i.position.isSome = true) ∧
          (t.core c).queues = (s.core c).queues ∧
          (t.core c).run = (if (s.core c).run = .running then .drained else (s.core c).run)) ∧
        (∀ c, s.coreIn k c = false → t.core c = s.core c) ∧
        (∀ tl n, s.tileIn k tl = true → (t.region tl n).pWait = [] ∧ (t.region tl n).cWait = [] ∧
          (t.region tl n).pClaims = (s.region tl n).pClaims ∧ (t.region tl n).head = (s.region tl n).head))) ∧
  (∀ (src : Src) (req : List Byte) (s : State) (k : Nat), Fronts s src 0x0403 req → k = rq req 0 1 →
    ((s.ctx k).st ≠ .drained → exec (.placeResume src) s = .next (answered s src stInvalidArg [])) ∧
    ((s.ctx k).st = .drained → (∀ c, s.coreIn k c = true → (s.core c).btx = []) →
      ∃ t, exec (.placeResume src) s = .next t ∧ Replied t src req stOk [] ∧ (t.ctx k).st = .running ∧
        (∀ c, s.coreIn k c = true → (t.core c).pc = (s.core c).pc ∧ (t.core c).x = (s.core c).x ∧
          (t.core c).run = (if (s.core c).run = .drained then .running else (s.core c).run)) ∧
        (∀ c, s.coreIn k c = false → t.core c = s.core c) ∧ t.mem = s.mem ∧ t.tiles = s.tiles)))

/-- TRAVERSE_CTL_STATUS, TRAVERSE_CTL_PAUSE, TRAVERSE_CTL_RESUME and TRAVERSE_CTL_INTERVAL,
XCHK_CTL_STATUS, XCHK_CTL_ENABLE, XCHK_CTL_DISABLE and XCHK_CTL_RATE complete (11 R385, R387,
R390, R406, R407, R417; 09 Table 9.11). STATUS reads; PAUSE, RESUME and INTERVAL change the
sectors of the mask; ENABLE lets every UP sector with a SPARE choose a checker and DISABLE leaves
the checkers where they are (the model's choices, log 57); DISABLE and RATE set their field. Each
answers the state that it leaves.

DIAG_BIST_RUN completes (11 R394, R418; 09 R331, R343). A GOOD tile is NO_RESOURCE. With SEED 0
the slices are compared with the benchmark and each failure counts; with another seed PASS is zero
and nothing counts. A run that lasts answers PENDING, and its failures count at its end (statement
LongOperationsArePolled).

LBIST_RUN, LEHR_VISIT_END and SCAN_NO_ANSWER complete (11 R394 to R399, R414). A run of a visit is
noted, a failing one counts, and on a hot tile the run is abandoned; a visit that began on a hot
tile waits (14 R487; log 57); after the eighth run a failure starts the retest, whose runs are at
nominal voltage. At its end a tile that failed its retest or its memory test, or had two
mismatches within a day, is CULLET for good, and any other is SPARE, or the checker. -/
def Obligations.SelfTest : Prop :=
  ((∀ (src : Src) (req : List Byte) (s : State) (mask : BitVec 16), Fronts s src 0x0703 req →
    mask = BitVec.ofNat 16 (rq req 2 2) →
    (rq req 0 1 = 0 → exec (.traverseCtlStatus src) s = .next (answered s src stOk s.traverseReply)) ∧
    (rq req 0 1 = 1 → ∃ t, exec (.traverseCtlPause src) s = .next t ∧ Replied t src req stOk t.traverseReply ∧
      t.mem = s.mem ∧ t.cores = s.cores ∧ t.phys = s.phys ∧ ∀ n, n < 16 → t.sector n =
        (if mask.getLsbD n then { s.sector n with paused := true } else s.sector n)) ∧
    (rq req 0 1 = 2 → ∃ t, exec (.traverseCtlResume src) s = .next t ∧ Replied t src req stOk t.traverseReply ∧
      t.mem = s.mem ∧ t.cores = s.cores ∧ t.phys = s.phys ∧ ∀ n, n < 16 → t.sector n =
        (if mask.getLsbD n then { s.sector n with paused := false } else s.sector n)) ∧
    (rq req 0 1 = 3 → ∃ t, exec (.traverseCtlInterval src) s = .next t ∧ Replied t src req stOk t.traverseReply ∧
      t.mem = s.mem ∧ t.cores = s.cores ∧ t.phys = s.phys ∧ ∀ n, n < 16 → t.sector n =
        (if mask.getLsbD n then { s.sector n with intervalMs := rq req 4 4 } else s.sector n))) ∧
  (∀ (src : Src) (req : List Byte) (s : State), Fronts s src 0x0704 req →
    (rq req 0 1 = 0 → exec (.xchkCtlStatus src) s = .next (answered s src stOk s.xchkReply)) ∧
    (rq req 0 1 = 1 → ∃ t, exec (.xchkCtlEnable src) s = .next t ∧ Replied t src req stOk t.xchkReply ∧
      t.xchk = { s.xchk with enabled := true } ∧ t.mem = s.mem ∧ t.cores = s.cores ∧ t.sectors = s.sectors ∧
      ∀ n p, n < 16 → (s.sector n).st = .up → 32 < (s.sector n).usable → s.checkerOf n = none →
        (s.lifecycle = 2 ∨ s.lifecycle = 3) → s.coolest (s.spares n) = some p → (t.phy p).checker = true ∧ (t.phy p).cad = .lehr) ∧
    (rq req 0 1 = 2 → ∃ t, exec (.xchkCtlDisable src) s = .next t ∧ Replied t src req stOk t.xchkReply ∧
      t.xchk = { s.xchk with enabled := false } ∧ t.phys = s.phys ∧ t.mem = s.mem ∧ t.sectors = s.sectors) ∧
    (rq req 0 1 = 3 → ∃ t, exec (.xchkCtlRate src) s = .next t ∧ Replied t src req stOk t.xchkReply ∧
      t.xchk = { s.xchk with rateLog2 := rq req 1 1 } ∧ t.phys = s.phys ∧ t.mem = s.mem ∧
      t.sectors = s.sectors))) ∧
  (∀ (src : Src) (misr : List DWord) (req : List Byte) (s : State) (p : Nat) (m : BitVec 4), Fronts s src 0x0801 req →
    p = rq req 0 2 → m = BitVec.ofNat 4 (rq req 2 1) → (s.opsOf (srcFn src)).length < 8 →
    ((s.phy p).cad = .good → exec (.diagBistRun src misr) s = .next (answered s src stNoResource [])) ∧
    ((s.phy p).cad ≠ .good → rq req 8 8 ≠ 0 → ∃ t, exec (.diagBistRun src misr) s = .next t ∧
      BistAnswers s t src req p 0 (leBytes 8 0 ++ (List.range 4).flatMap fun i => leBytes 8
        (if m.getLsbD i then (misr.getD i 0).toNat else 0)) ∧
      (∀ q, q ≠ p → t.phy q = s.phy q) ∧ t.mem = s.mem) ∧
    ((s.phy p).cad ≠ .good → rq req 8 8 = 0 → ∃ t pass, exec (.diagBistRun src misr) s = .next t ∧
      BistAnswers s t src req p
        ((List.range 4).filter fun i => m.getLsbD i && (misr.getD i 0 != Config.benchmark i)).length
        (leBytes 8 pass ++ (List.range 4).flatMap fun i => leBytes 8
          (if m.getLsbD i then (misr.getD i 0).toNat else 0)) ∧
      (∀ i, i < 4 → pass.testBit i = (m.getLsbD i && (misr.getD i 0 == Config.benchmark i))) ∧ pass < 16 ∧
      (∀ q, q ≠ p → t.phy q = s.phy q) ∧ t.mem = s.mem)) ∧
  ((∀ (p : PhysId) (slice : Fin 4) (margin : Bool) (misr : DWord) (s : State),
    ((s.phy p).visit = none → exec (.lbistRun p slice margin misr) s = .next s) ∧
    (∀ v, (s.phy p).visit = some v → v.waits = true → exec (.lbistRun p slice margin misr) s = .next s ∧
      (v.runs = [] → exec (.scanNoAnswer p) s = .next s)) ∧
    (∀ v, (s.phy p).visit = some v → v.retest = false → v.waits = false →
      (v.runs.length = 2 * slice.val + bit margin →
        (2 ≤ (s.phy p).thermLevel → exec (.lbistRun p slice margin misr) s = .next
          (s.modPhy p fun x => { x with visit := some { v with abandoned := true } })) ∧
        ((s.phy p).thermLevel < 2 → ∃ t w, exec (.lbistRun p slice margin misr) s = .next t ∧
          (t.phy p).visit = some w ∧
          (t.phy p).lbistFail = (if misr = Config.benchmark slice then (s.phy p).lbistFail
            else satAdd 0xFFFF (s.phy p).lbistFail 1) ∧
          (misr = Config.benchmark slice → v.anyFail = false → w.retest = false ∧
            w.runs = v.runs ++ [(slice.val, margin)] ∧ w.anyFail = false) ∧
          (misr ≠ Config.benchmark slice → w.anyFail = true ∧ w.nominalFail = (v.nominalFail || !margin)) ∧
          (slice = 3 → margin = true → w.retest = (v.anyFail || misr != Config.benchmark slice)) ∧
          (∀ q, q ≠ p.val → t.phy q = s.phy q) ∧ t.mem = s.mem ∧ t.cores = s.cores)) ∧
      (v.runs.length ≠ 2 * slice.val + bit margin → exec (.lbistRun p slice margin misr) s = .next s)) ∧
    (∀ v, (s.phy p).visit = some v → v.retest = true → v.waits = false → (s.phy p).thermLevel < 2 → v.runs.length < 8 →
      v.runs.length / 2 = slice.val →
      (margin = true → exec (.lbistRun p slice margin misr) s = .next s) ∧
      (margin = false → ∃ t w, exec (.lbistRun p slice margin misr) s = .next t ∧ (t.phy p).visit = some w ∧
        w.runs = v.runs ++ [(slice.val, false)] ∧ w.retest = true ∧
        w.retestFail = (v.retestFail || misr != Config.benchmark slice) ∧
        (t.phy p).lbistFail = (if misr = Config.benchmark slice then (s.phy p).lbistFail
          else satAdd 0xFFFF (s.phy p).lbistFail 1) ∧ t.mem = s.mem ∧ t.cores = s.cores))) ∧
  (∀ (p : PhysId) (memFails : Nat) (s : State) (n : Nat), n = sectorOfPhys p →
    ((s.phy p).visit = none → exec (.lehrVisitEnd p memFails) s = .next s ∧ exec (.scanNoAnswer p) s = .next s) ∧
    (∀ v, (s.phy p).visit = some v →
      (v.finished = false → exec (.lehrVisitEnd p memFails) s = .next s) ∧
      (v.finished = true → v.retestFail = false → memFails = 0 → twoWithinDay (s.phy p).mismatchAt = false →
        ∃ t, exec (.lehrVisitEnd p memFails) s = .next t ∧ (t.phy p).visit = none ∧ (t.phy p).visited = true ∧
          ((t.phy p).cad = .spare ∨ ((t.phy p).cad = .lehr ∧ (t.phy p).checker = true)) ∧
          (v.anyFail = false → (t.phy p).marginOnly = false) ∧
          (v.anyFail = true → v.nominalFail = false → (t.phy p).marginOnly = true) ∧
          t.mem = s.mem ∧ t.cores = s.cores) ∧
      (v.finished = true → s.lifecycle ≠ 5 →
        (v.retestFail = true ∨ memFails ≠ 0 ∨ twoWithinDay (s.phy p).mismatchAt = true) →
        ∃ t, exec (.lehrVisitEnd p memFails) s = .next t ∧ (t.phy p).cad = .cullet ∧
          (t.phy p).fuseCullet = true ∧ (t.phy p).powered = false ∧ (t.phy p).visit = none ∧
          (t.phy p).eccUe = satAdd 0xFFFF (s.phy p).eccUe memFails) ∧
      (v.runs = [] → v.retest = false → v.waits = false → (s.phy p).cad = .lehr → s.lifecycle ≠ 5 → ((s.sector n).st = .up ∨ (s.sector n).st = .degraded) →
        ∃ t, exec (.scanNoAnswer p) s = .next t ∧ (t.phy p).cad = .cullet ∧ (t.phy p).fuseCullet = true ∧
          (t.sector n).usable = s.usableCount n - 1 ∧
          (t.sector n).st = (if s.usableCount n - 1 < 24 then .out
            else if s.usableCount n - 1 < 32 then .degraded else .up)))))

/-- The takeover tile (11 R401): of the tiles of a pool without MARGIN_ONLY, or of all when each has
it, one whose score is the lowest. -/
def Obligations.TakeoverTileIsTheCoolest : Prop :=
  ∀ (s : State) (pool : List Nat) (p : Nat), s.coolest pool = some p →
    p ∈ pool ∧ ((s.phy p).marginOnly = false ∨ ∀ q ∈ pool, (s.phy q).marginOnly = true) ∧
    (∀ q ∈ pool, (s.phy q).marginOnly = (s.phy p).marginOnly → (s.phy p).score ≤ (s.phy q).score)

/-- MIGRATION_TRIGGER completes (05 R192; 11 R400 to R405). Below its threshold a trigger only counts.
At it, with no packet for the tile under way, a tile that carries a logical tile moves it to the
takeover tile of its sector and begins a Lehr visit; the contents move with it, and the quiescence
probe of the context starts anew. A source that is lost in the copy leaves the logical tile
zeroed, the pc of its cores too (the model's choice, log 5), and its context aborted. Without a
takeover tile the trigger waits.

TRAVERSE_STEP completes (11 R390 to R393; 10 R373). A step that is blocked or not due does
nothing; one that a periodic context holds back falls due; otherwise the hottest unvisited GOOD
tile is migrated, or the hottest unvisited SPARE is visited.

CROSS_CHECK_COMPARE completes (11 R408, R412, R413). The oldest sampled block is recomputed from
what the producer sent: its MODE, ANCHOR, descriptors, operand rows and columns with their scales;
the elements, but for the bits that a fault turns over, are compared with the producer's. Equal
elements only count; a mismatch counts for producer, checker and the bin of the producer's
temperature (11 R412, Table 11.9), the checker begins a visit, and the context that owns the core
is aborted.

TILE_HARD_FAILURE and CADASTRE_FLASH_WRITE complete (11 R383, R388, R389; 12 R431). A GOOD tile
that cannot be isolated is CULLET (one whose compute domain is off does nothing, 01 R35): its
index goes, zeroed, to the takeover tile and the sector is reset; without one the logical tile is
withdrawn, its entry names the local tile (2, 2), and its cores halt. Both copies of the record
take the present state (log 57), and the trouble counters of the device go with it (log 43); the
write waits for the flash work of commands (13 R454). -/
def Obligations.Healing : Prop :=
  (∀ (p : PhysId) (why : Trigger) (s : State) (n : Nat), n = sectorOfPhys p →
    (∀ how, (s.logicalOf p = none ∨ s.mayMigrate n = false ∨
        ¬ (Threshold s p why ∨ (s.sector n).migrWait.any (·.1 == p.val) = true)) →
      exec (.migrationTrigger p why how) s = .next (s.countTrigger p why)) ∧
    (∀ tl, s.logicalOf p = some tl → s.mayMigrate n = true → s.gafferUp = true → Threshold s p why →
      (∀ x ∈ s.net.slots, isFor tl x.pkt = false) → Drawn s tl →
      (∀ b, s.takeover n = some b → b ≠ p.val →
        (∃ t, exec (.migrationTrigger p why .done) s = .next t ∧
          (t.phy b).cad = .good ∧ (t.phy b).index = some (tl % 32) ∧ (t.phy b).checker = false ∧
          (t.phy p).cad = .lehr ∧ (t.phy p).index = none ∧ (t.phy p).visit = some (visitOf s p) ∧
          (t.transOf tl).phys = b ∧ t.mem = s.mem ∧ t.priv = s.priv ∧ (∀ c, t.core c = s.core c) ∧
          (∀ k, (t.ctx k).st = (s.ctx k).st ∧ (t.ctx k).gen = (s.ctx k).gen) ∧
          (∀ k, s.owner n = some k → (t.ctx k).probeSince = none) ∧
          (why ≠ .mismatch → (s.sector n).migrWait = [] →
            t.plumb.faultSeq = s.faults.nextSeq.setWidth 16 ∧ t.plumb.lastClass = 1)) ∧
        (∀ k, s.owner n = some k → (s.ctx k).st = .running → sectorOfTile tl = n → s.fabric.running = [] →
          Cells.wf s.mem = true →
          ∃ t, exec (.migrationTrigger p why .sourceLost) s = .next t ∧ (t.ctx k).st = .aborted ∧
            (t.phy b).index = some (tl % 32) ∧ (t.phy p).visit = some (visitOf s p) ∧
            (∀ off, off < 0x300000 → t.readByte (spadAddr tl off) = 0) ∧
            (∀ c, c / 16 = tl → (t.core c).pc = 0 ∧ (t.core c).run = .halted))) ∧
      (s.takeover n = none → (s.sector n).migrWait = [] → ∃ t,
        exec (.migrationTrigger p why .done) s = .next t ∧
        (t.sector n).migrWait = [(p.val, why)] ∧ t.phys = (s.countTrigger p why).phys ∧ t.mem = s.mem ∧ t.cores = s.cores))) ∧
  (∀ (n : SectorId) (s : State),
    (∀ how, (s.stepBlocked n = true ∨ s.stepDue n = false) → exec (.traverseStep n how) s = .next s) ∧
    (∀ how, s.stepBlocked n = false → s.stepDue n = true → s.swapPermitted n = false →
      exec (.traverseStep n how) s = .next (s.modSector n fun x => { x with swapDue := true })) ∧
    (s.stepBlocked n = false → s.stepDue n = true → s.swapPermitted n = true → s.waitingMove n = none →
      (∀ r i b, s.highest ((physOfSector n).filter fun p => (s.phy p).cad == .good && !(s.phy p).visited) = some r →
        (s.phy r).index = some i → i < 32 → s.takeover n = some b → b ≠ r →
        (∀ x ∈ s.net.slots, isFor (32 * n.val + i) x.pkt = false) → Drawn s (32 * n.val + i) →
        ∃ t, exec (.traverseStep n .done) s = .next t ∧ (t.phy b).cad = .good ∧ (t.phy b).index = some i ∧
          (t.phy r).cad = .lehr ∧ (t.phy r).visit = some (visitOf s r) ∧ (t.sector n).lastStep = s.deviceTime ∧
          (t.sector n).swapDue = false ∧ t.mem = s.mem ∧ ∀ c, t.core c = s.core c) ∧
      (∀ q how, (∀ p ∈ physOfSector n, (s.phy p).cad = .good → (s.phy p).visited = true) →
        s.highest ((physOfSector n).filter fun p => (s.phy p).cad == .spare && !(s.phy p).visited) = some q →
        ∃ t, exec (.traverseStep n how) s = .next t ∧ (t.phy q).cad = .lehr ∧ (t.phy q).visit = some (visitOf s q) ∧
          (t.sector n).phase = 5 ∧ (t.sector n).lastStep = s.deviceTime ∧
          (∀ p, p ≠ q → t.phy p = s.phy p) ∧ t.mem = s.mem ∧ t.cores = s.cores))) ∧
  (∀ (n : SectorId) (flips : List (Nat × BitVec 128)) (how : MigrationOutcome) (s : State),
    ((s.checkerOf n = none ∨ (s.sector n).drawn = []) →
      exec (.crossCheckCompare n flips how) s = .next s) ∧
    (∀ p d rest es, s.checkerOf n = some p → (s.sector n).drawn = d :: rest →
      es = (accumulateBlock { anchor := d.anchor } d.mode (TD.ofBits d.tda) (TD.ofBits d.tdb) d.rows d.cols).elems →
      (flipElems flips es = d.elems →
        exec (.crossCheckCompare n flips how) s = .next (s.modSector n fun x =>
          { x with xSampled := satAdd 0xFFFFFFFF x.xSampled 1, drawn := rest })) ∧
      (flipElems flips es ≠ d.elems → d.producer ≠ p → ∃ t, exec (.crossCheckCompare n flips how) s = .next t ∧
        (t.phy p).xchkMismatch = satAdd 0xFFFF (s.phy p).xchkMismatch 1 ∧
        (t.phy d.producer).xchkMismatch = satAdd 0xFFFF (s.phy d.producer).xchkMismatch 1 ∧
        (∀ b, Tab.get 0 t.xchk.bins b = if b = min 7 ((d.temp - 35) / 10)
          then satAdd 0xFFFF (Tab.get 0 s.xchk.bins b) 1 else Tab.get 0 s.xchk.bins b) ∧
        (t.phy p).visit = some (visitOf s p) ∧ (t.phy p).checker = false ∧
        (t.sector n).xMismatch = satAdd 0xFFFFFFFF (s.sector n).xMismatch 1 ∧ (t.sector n).drawn = [] ∧
        (∀ k, s.ownerOfCore d.core = some k → (s.ctx k).st = .running → (t.ctx k).st = .aborted)))) ∧
  ((∀ (p : PhysId) (s : State) (n : Nat), n = sectorOfPhys p →
    (s.logicalOf p = none ∨ (s.phy p).powered = false → exec (.tileHardFailure p) s = .next s) ∧
    (∀ tl, s.logicalOf p = some tl → (s.sector n).st = .up → (s.sector n).reset = none →
      s.plumb.outOfService = false → 32 < s.usableCount n → (s.phy p).powered = true →
      (∀ b, s.takeover n = some b → b ≠ p.val → ∃ t, exec (.tileHardFailure p) s = .next t ∧
        (t.phy p).cad = .cullet ∧ (t.phy b).cad = .good ∧ (t.phy b).index = some (tl % 32) ∧
        (t.transOf tl).phys = b ∧ (t.sector n).st = .resetting ∧ (t.sector n).usable = s.usableCount n - 1)) ∧
    (∀ tl, s.logicalOf p = some tl → (s.sector n).st = .degraded → 24 < s.usableCount n → s.takeover n = none →
      sectorOfTile tl = n → (s.phy p).powered = true →
      ∃ t, exec (.tileHardFailure p) s = .next t ∧ (t.phy p).cad = .cullet ∧
        (t.transOf tl).withdrawn = true ∧ (t.transOf tl).phys = physOfLocal n 14 ∧ (t.sector n).withdrawn.getLsbD (tl % 32) = true ∧
        (∀ c, c / 16 = tl → (t.core c).run = .halted) ∧
        (∀ k, s.owner n = some k → (s.ctx k).placed = true → (s.ctx k).tileRecs.contains tl = true →
          (s.ctx k).st = .running → (t.ctx k).st = .aborted))) ∧
  (∀ (n : SectorId) (s : State), (s.gafferUp = false ∨ s.flashBusy = true → exec (.cadastreFlashWrite n) s = .next s) ∧
    (s.gafferUp = true → s.flashBusy = false → ∃ t, exec (.cadastreFlashWrite n) s = .next t ∧ t.phys = s.phys ∧
      t.flash.counters = s.counters ∧ (t.sector n).rec0 = (t.sector n).rec1 ∧ (t.sector n).cadDirty = false ∧
      (∀ p ∈ physOfSector n, ((t.sector n).rec0.tile p).cad = (s.phy p).cad ∧
        ((t.sector n).rec0.tile p).index = (s.phy p).index ∧
        ((t.sector n).rec0.tile p).lbistFail = (s.phy p).lbistFail))))

/-- SECTOR_HW, SECTOR_RESET, SECTOR_RESET_COMPLETE, SECTOR_TRAINING_FAIL and SECCTL_WATCHDOG complete:
SECTOR faults and resets (12 R426, R431 to R435, R448). A fault of a sector in service fences it,
aborts its owner, resets its tiles and leaves it RESETTING; the fourth attempt, or a second
failure of full training, makes it OUT; a channel without power fails no training (01 R35).
SECTOR_RESET does so for the sectors of its mask and answers PENDING. The end of a reset returns
the sector to the state of its usable tiles and counts it. A watchdog expiry restarts the
controller; one during a reset, a visit, a migration or a spill, with a bad image, or within 60 s
of the last one resets the sector.

ESCALATION_CFG completes (12 R448): ENABLE 0 turns escalation off and forgets its resets;
otherwise N and the window are set, and the mode counts from now unless it was on. -/
def Obligations.SectorResets : Prop :=
  ((∀ (n : SectorId) (s : State), s.gafferUp = true →
    ((s.sector n).st.inService = false → ∃ t, exec (.sectorHw n) s = .next t ∧
      (t.sector n).st = (s.sector n).st ∧ t.plumb.lastClass = 3 ∧ t.plumb.lastSector.toNat = n.val) ∧
    ((s.sector n).st.inService = true → s.plumb.outOfService = false →
      ((s.sector n).reset = none → ∃ t p, exec (.sectorHw n) s = .next t ∧ (t.sector n).st = .resetting ∧
        (t.sector n).reset = some p ∧ p.attempts = 1 ∧ p.cause = 0x0301 ∧ t.plumb.lastClass = 3 ∧
        t.plumb.lastSector.toNat = n.val ∧ (∀ c, c / 512 = n.val → t.core c = {}) ∧
        (∀ u, u / 32 = n.val → t.tile u = {}) ∧
        (∀ k, s.owner n = some k → (s.ctx k).st = .running → (s.ctx k).tdStep ≠ 5 →
          (t.ctx k).st = .aborted)) ∧
      (∀ q, (s.sector n).reset = some q → q.attempts = 3 → ∃ t, exec (.sectorHw n) s = .next t ∧
        (t.sector n).st = .out ∧ (t.sector n).reset = none))) ∧
  (∀ (src : Src) (req : List Byte) (s : State) (mask : BitVec 16), Fronts s src 0x0901 req →
    mask = BitVec.ofNat 16 (rq req 0 2) →
    ((∃ n ∈ setBits mask, (s.sector n).st.inService = false) →
      exec (.sectorReset src) s = .next (answered s src stInvalidArg [])) ∧
    (mask = 0 → exec (.sectorReset src) s = .next (answered s src stOk [])) ∧
    (mask ≠ 0 → (∀ n ∈ setBits mask, (s.sector n).st.inService = true ∧ (s.sector n).reset = none) →
      (s.opsOf (srcFn src)).length < 8 → s.plumb.outOfService = false →
      ∃ t o, exec (.sectorReset src) s = .next t ∧ o ∈ t.delash.ops ∧ o.work = .sectorReset mask ∧
        Replied t src req stPending (leBytes 2 o.id.toNat) ∧
        ∀ n ∈ setBits mask, (t.sector n).st = .resetting)) ∧
  (∀ (n : SectorId) (s : State), ((s.sector n).reset = none → exec (.sectorResetComplete n) s = .next s) ∧
    (∀ q, (s.sector n).reset = some q → ∃ t, exec (.sectorResetComplete n) s = .next t ∧
      (s.faults.escOn = false → (t.sector n).reset = none ∧
        (t.sector n).resets = satAdd 0xFFFF (s.sector n).resets 1 ∧ (t.sector n).usable = s.usableCount n ∧
        (t.sector n).st = (if s.usableCount n < 24 then .out else if s.usableCount n < 32 then .degraded else .up) ∧
        t.plumb.alert.getLsbD 3 = true) ∧
      (s.escalates = true → t.plumb.outOfService = true))) ∧
  (∀ (n : SectorId) (ch : ChannelId) (s : State),
    (((s.sector n).reset = none ∨ channelSector ch ≠ n.val ∨ (128 ≤ ch.val ∧ s.hasTier2 = false)) →
      exec (.sectorTrainingFail n ch) s = .next s) ∧
    (∀ q, (s.sector n).reset = some q → channelSector ch = n.val → (s.sector n).st.inService = true →
      (ch.val < 128 ∨ s.hasTier2 = true) →
      s.plumb.outOfService = false → ∃ t, exec (.sectorTrainingFail n ch) s = .next t ∧
        (q.trainFails = 0 → q.attempts < 3 → (t.sector n).st = .resetting ∧
          ∃ p, (t.sector n).reset = some p ∧ p.attempts = q.attempts + 1 ∧ p.trainFails = 1) ∧
        (q.trainFails = 1 → (t.sector n).st = .out))) ∧
  (∀ (n : SectorId) (s : State), s.gafferUp = true →
    (∀ ok busy, (s.sector n).st.inService = false → exec (.secctlWatchdog n ok busy) s = .next s) ∧
    (∀ ok busy, (s.sector n).st.inService = true → (s.sector n).reset = none → s.plumb.outOfService = false →
      (ok = false ∨ busy = true ∨ (∃ p ∈ physOfSector n, (s.phy p).visit.isSome = true)) →
      ∃ t p, exec (.secctlWatchdog n ok busy) s = .next t ∧ (t.sector n).st = .resetting ∧
        (t.sector n).reset = some p ∧ p.cause = 0x0303 ∧ t.plumb.lastClass = 3) ∧
    ((s.sector n).st.inService = true → (s.sector n).reset = none →
      (∀ p ∈ physOfSector n, (s.phy p).visit = none) →
      ((∀ t0, (s.sector n).lastWatchdog = some t0 → t0.toNat + 60000000000 < s.deviceTime.toNat) →
        ∃ t, exec (.secctlWatchdog n true false) s = .next t ∧
        (t.sector n).st = (s.sector n).st ∧ (t.sector n).lastWatchdog = some s.deviceTime ∧
        t.plumb.lastClass = 1 ∧ t.cores = s.cores ∧ t.mem = s.mem ∧ t.ctxs = s.ctxs) ∧
      (∀ t0, (s.sector n).lastWatchdog = some t0 → s.deviceTime.toNat ≤ t0.toNat + 60000000000 →
        s.plumb.outOfService = false → ∃ t, exec (.secctlWatchdog n true false) s = .next t ∧
          (t.sector n).st = .resetting)))) ∧
  (∀ (src : Src) (req : List Byte) (s : State), Fronts s src 0x0902 req →
    (rq req 0 1 = 0 → ∃ t, exec (.escalationCfg src) s = .next t ∧ Replied t src req stOk [] ∧
      t.faults = { s.faults with escOn := false, escStarts := [] } ∧ t.mem = s.mem ∧ t.cores = s.cores) ∧
    (rq req 0 1 ≠ 0 → ∃ t, exec (.escalationCfg src) s = .next t ∧ Replied t src req stOk [] ∧
      t.faults.escOn = true ∧ t.faults.escN = rq req 2 2 ∧ t.faults.escWindow = rq req 4 4 ∧
      (s.faults.escOn = true → t.faults.escStarts = s.faults.escStarts) ∧
      (s.faults.escOn = false → t.faults.escStarts = [] ∧ t.plumb.alert.getLsbD 6 = true) ∧
      t.mem = s.mem ∧ t.cores = s.cores))

/-- GAFFER_WATCHDOG, LOCKSTEP_MISMATCH, GAFFER_RESTART_END and GAFFER_RESTART_TIMEOUT complete (12
R427, Table 12.6; 09 R346; 01 R41). A watchdog expiry or a lockstep mismatch restarts the Gaffer:
it reads RESTARTING, every waiting request is answered BUSY, and the sectors run on; the fourth
within 60 s halts it. Slot B runs after ACTIVATE, and again when it ran and no session has erased
it (13 R468). The end of a restart counts it and sets its cause; a restart that has not reached
RUNNING within 1 s halts the Gaffer, and a halt takes the device out of service.

FABRIC_DOMAIN, IO_DIE, ABORT_IN and ABORT_IN_RELEASE complete: DEVICE faults and ABORT_IN# (12
R436, R437, R439). A fault of a fabric domain or an I/O die takes the device out of service:
MOD_FAULT#, every context aborted, every port stopped, every sector in service fenced; each port
that goes down and that no job names then records LINK_DOWN (R441); a later one is only recorded.
ABORT_IN# aborts every context with a job and no other. -/
def Obligations.GafferAndDeviceFaults : Prop :=
  ((∀ (pair : Fin 2) (lock : Bool) (s : State) (i : Instr), 
    i = (if lock then .lockstepMismatch pair else .gafferWatchdog) →
    (s.gafferUp = false → exec i s = .next s) ∧
    (s.gafferUp = true →
      (∀ t0, s.faults.gafferRestarts[2]? = some t0 → t0.toNat + 60000000000 < s.deviceTime.toNat) →
      ∃ t, exec i s = .next t ∧
      t.plumb.gaffer = .restarting ∧ t.faults.restartCause = (if lock then 2 else 1) ∧
      t.delash.order = [] ∧ t.delash.bmcBuf = none ∧ t.delash.saved = s.delash.saved ∧
      (∀ (f : FnId) (req : List Byte), s.request (.mailbox f) = some req → Replied t (.mailbox f) req stBusy []) ∧
      t.cores = s.cores ∧ t.tiles = s.tiles ∧ t.ctxs = s.ctxs ∧ t.queues = s.queues ∧ t.mem = s.mem ∧
      t.delash.ops = s.delash.ops ∧ t.plumb.heartbeat = s.plumb.heartbeat) ∧
    (∀ t0, s.gafferUp = true → s.faults.gafferRestarts[2]? = some t0 →
      s.deviceTime.toNat ≤ t0.toNat + 60000000000 → ∃ t, exec i s = .next t ∧ t.plumb.gaffer = .halted ∧
        t.plumb.outOfService = true)) ∧
  (∀ s : State,
    (s.plumb.gaffer ≠ .restarting → exec .gafferRestartEnd s = .next s ∧
      exec .gafferRestartTimeout s = .next s) ∧
    (s.plumb.gaffer = .restarting →
      (s.deviceTime.toNat < s.faults.restartAt.toNat + 1000000000 →
        exec .gafferRestartTimeout s = .next s) ∧
      (s.faults.restartAt.toNat + 1000000000 ≤ s.deviceTime.toNat →
        ∃ t, exec .gafferRestartTimeout s = .next t ∧ t.plumb.gaffer = .halted ∧ t.plumb.outOfService = true) ∧
      (s.faults.restartAt.toNat + 1000000000 < s.deviceTime.toNat →
        ∃ t, exec .gafferRestartEnd s = .next t ∧ t.plumb.gaffer = .halted ∧ t.plumb.outOfService = true) ∧
      (∀ b, b = ((s.faults.restartCause == 3 || (s.plumb.fwSlotB && s.flash.session.isNone))
          && s.flash.accepts s.flash.slotB) → s.deviceTime.toNat ≤ s.faults.restartAt.toNat + 1000000000 →
        (b = true ∨ s.flash.accepts s.flash.slotA = true) → ∃ t, exec .gafferRestartEnd s = .next t ∧
        t.plumb.gaffer = (if s.boot.hostSeq then .waitHost else .running) ∧
        t.plumb.restarts = satAdd 255 s.plumb.restarts 1 ∧ t.plumb.lastCause = s.faults.restartCause ∧
        t.plumb.alert.getLsbD 5 = true ∧ t.cores = s.cores ∧ t.ctxs = s.ctxs ∧
        (s.faults.dumpDue = none → t.mem = s.mem) ∧ t.plumb.fwSlotB = b ∧
        t.plumb.rev = (if b then s.flash.slotB.rev else s.flash.slotA.rev)) ∧
      (s.flash.accepts s.flash.slotA = false → s.flash.accepts s.flash.slotB = false →
        ∃ t, exec .gafferRestartEnd s = .next t ∧ t.plumb.gaffer = .halted)))) ∧
  ((∀ (n : SectorId) (d : Fin 2) (die : Bool) (s : State) (i : Instr),
    i = (if die then .ioDie d else .fabricDomain n) →
    (s.plumb.outOfService = false → ∃ t, exec i s = .next t ∧ t.plumb.outOfService = true ∧
      t.faults.modFault = true ∧ t.abortOut = true ∧
      (∃ e ∈ t.faults.log, e.2.seq = s.faults.nextSeq ∧ e.2.cls = 4 ∧
        e.2.cause = (if die then 0x0404 else 0x0403) ∧ e.2.sector.toNat = (if die then 0xFF else n.val)) ∧
      ((∀ p, p < 16 → ((s.port p).st ≠ .up ∧ (s.port p).st ≠ .training) ∨ s.synJobs p ≠ []) →
        t.plumb.lastClass = 4 ∧ t.plumb.lastSectorValid = (!die)) ∧
      (∀ k, k < 16 → (s.ctx k).dead = false → (t.ctx k).st = .aborted) ∧
      (∀ p, p < 16 → ((s.port p).st = .up ∨ (s.port p).st = .training) → (t.port p).st = .down) ∧
      (∀ m, m < 16 → (s.sector m).st.inService = true → (t.sector m).st = .fenced)) ∧
    (s.plumb.outOfService = true → ∃ t, exec i s = .next t ∧ t.plumb.lastClass = 4 ∧
      t.ctxs = s.ctxs ∧ t.sectors = s.sectors ∧ t.cores = s.cores ∧ t.mem = s.mem)) ∧
  (∀ s : State, (s.faults.abortIn = true → exec .abortIn s = .next s) ∧
    (s.faults.abortIn = false → ∃ t, exec .abortIn s = .next t ∧ t.abortOut = true ∧
      (∀ k, k < 16 → (s.ctx k).st = .running → (s.ctx k).job ≠ 0 → (t.ctx k).st = .aborted ∧
        (t.ctx k).epoch = (s.ctx k).epoch + 1) ∧
      (∀ k, (s.ctx k).job = 0 → t.ctx k = s.ctx k)) ∧
    (∃ t, exec .abortInRelease s = .next t ∧ t.abortOut = s.faults.modFault ∧
      t = { s with faults := { s.faults with abortIn := false } })))

/-- PERST_ASSERT, HOT_RESET, PERST_RELEASE, AUX_POWER_UP, AUX_POWER_LOSS and MAIN_RAILS_UP complete:
module resets and the supplies (12 R438; 11 R416; 13 R456, R458; 14 R494, R495; 09 R321; 01 R31).
PERST# or a hot reset resets every domain but the always-on one: no context, core or tile state is
left and the Gaffer boots (from the assertion of PERST# on, with the sectors as they stood: the
model's choice, log 46); the trouble counters are those that the last flash write saved.
PERST_RELEASE boots once the rails are up, from slot A if it is accepted and from B otherwise,
else the Gaffer halts; a module that a trip or a fault has halted does not boot (14 R489, R495).
PWRBRK# that is still asserted acts when the supply is back (R485). Without the auxiliary supply
only flash and fuses are left, and device time starts anew when it is back.

SECTOR_TRAINING_DONE and RELEASE_WAVE complete: bring-up (13 R459 to R461, Table 13.5; 11 R384,
R397). A sector trains once; the second failure of full training makes it OUT. When all enabled
sectors have trained, a release wave takes the four lowest that wait, which come to the state of
their usable tiles; a LEHR tile all of whose runs and memory test pass is SPARE or the checker. A
wave that lacks the test of a LEHR tile has not ended (R460). Firmware writes the image of R461 in
the drain area of each sector, whose bytes the spec does not give (log 67).

TRAIN_MEMORY, RELEASE_TILES, FETCH_IMAGES, TRAIN_PORTS, FINISH and SEQ_STEP_END complete: the
sequencer (13 R465 to R467, Tables 13.8, 13.9). A step that is busy, not active or lacks what it
needs is refused with result INVALID_ARG; one without units ends at once with OK; otherwise it
runs, and its end sets the result: training marks each sector or makes it OUT, a release ends when
its tests have (R460), FINISH ends bring-up, and with the Gaffer restarting RUNNING comes at the
restart's end (R465). -/
def Obligations.ResetsAndBringup : Prop :=
  ((∀ s : State, (s.boot.perst = true → exec .perstAssert s = .next s ∧ exec .hotReset s = .next s) ∧
    (s.boot.perst = false → s.boot.auxOn = true → ∃ t, exec .perstAssert s = .next t ∧ t.boot.perst = true ∧
      t.plumb.gaffer = .boot ∧ t.plumb.outOfService = false ∧ t.faults.modFault = false ∧
      t.queues = [] ∧ t.flash.slotA = s.flash.slotA ∧ t.flash.slotB = s.flash.slotB ∧
      t.flash.session = none ∧ t.channels = s.flash.counters.channels ∧
      (∀ p, (t.port p).crcErr = (Tab.get {} s.flash.counters.ports p : Port).crcErr) ∧
      t.deviceTime = s.deviceTime ∧ t.lifecycle = s.lifecycle ∧
      (∀ k, (t.ctx k).st = .free) ∧ (∀ c, t.core c = {}) ∧ (∀ tl, t.tile tl = {}) ∧
      (∀ n, (t.sector n).st = (s.sector n).st ∧ (t.sector n).resets = (s.sector n).resets ∧
        (t.sector n).owner = none)) ∧
    (s.boot.perst = false → s.boot.auxOn = false → exec .perstAssert s
      = .next { s with boot := { s.boot with perst := true, bootWaits := false } }) ∧
    (s.boot.perst = false → s.boot.auxOn = true → ∃ t, exec .hotReset s = .next t ∧ t.queues = [] ∧
      (∀ k, (t.ctx k).st = .free) ∧ (∀ c, t.core c = {}) ∧ (∀ tl, t.tile tl = {})) ∧
    (s.boot.perst = false → exec .perstRelease s = .next s) ∧
    (s.boot.perst = true → (s.boot.auxOn = false ∨ s.faults.thermTrip = true ∨ s.plumb.gaffer = .halted) →
      exec .perstRelease s = .next { s with boot := { s.boot with perst := false } }) ∧
    (s.boot.perst = true → s.boot.auxOn = true → s.faults.thermTrip = false → s.plumb.gaffer ≠ .halted →
      (s.boot.railsOk = false → exec .perstRelease s
        = .next { s with boot := { s.boot with perst := false, bootWaits := true } }) ∧
      (s.boot.railsOk = true → ∃ t, exec .perstRelease s = .next t ∧ t.boot.perst = false ∧
        t.plumb.fwFallback = !s.flash.accepts s.flash.slotA ∧
        (s.flash.accepts s.flash.slotA = true → t.plumb.rev = s.flash.slotA.rev ∧ t.plumb.fwSlotB = false) ∧
        (s.flash.accepts s.flash.slotA = false → s.flash.accepts s.flash.slotB = true →
          t.plumb.rev = s.flash.slotB.rev ∧ t.plumb.fwSlotB = true) ∧
        (s.flash.accepts s.flash.slotA = false → s.flash.accepts s.flash.slotB = false →
          t.plumb.gaffer = .halted)))) ∧
  (∀ s : State, (s.boot.auxOn = true → exec .auxPowerUp s = .next s) ∧
    (s.boot.auxOn = false → exec .auxPowerLoss s = .next s ∧ exec .mainRailsUp s = .next s ∧
      (s.power.pwrbrk = true → (s.boot.perst = true ∨ s.boot.railsOk = false) → ∃ t, exec .auxPowerUp s = .next t ∧
        t.power = { s.power with ceil := 400, gate := 4 } ∧ t.plumb.capActive = true ∧ t.boot.auxOn = true) ∧
      (s.boot.perst = true → s.power.pwrbrk = false → exec .auxPowerUp s = .next { s with
        boot := { s.boot with auxOn := true }, deviceTime := 0, slewAhead := 0, slewBack := 0, slewPhase := 0
        tileTime := 0, tileTimeAt := 0 }) ∧
      (s.boot.perst = false → s.faults.thermTrip = false → s.boot.railsOk = false → s.power.pwrbrk = false →
        s.plumb.gaffer ≠ .halted →
        ∃ t, exec .auxPowerUp s = .next t ∧ t.deviceTime = 0 ∧
          t.boot = { s.boot with auxOn := true, bootWaits := true } ∧ t.plumb = s.plumb)) ∧
    (s.boot.auxOn = true → ∃ t, exec .auxPowerLoss s = .next t ∧ t.boot.auxOn = false ∧ t.plumb = {} ∧
      t.deviceTime = 0 ∧ t.queues = [] ∧ t.flash.slotA = s.flash.slotA ∧ t.flash.lic0 = s.flash.lic0 ∧
      t.lifecycle = s.lifecycle ∧ (∀ k, (t.ctx k).st = .free) ∧ (∀ c, t.core c = {})) ∧
    (s.boot.auxOn = true → s.boot.railsOk = true → exec .mainRailsUp s = .next s) ∧
    (s.boot.auxOn = true → s.boot.railsOk = false → s.boot.bootWaits = false → exec .mainRailsUp s
      = .next { s with boot := { s.boot with
          railsOk := true, regulators := !s.faults.thermTrip && !s.plumb.outOfService } }))) ∧
  ((∀ (n : SectorId) (failures : Nat) (s : State),
    ((s.plumb.gaffer ≠ .boot ∨ s.boot.begun = false ∨ s.boot.perst = true ∨ (s.sector n).enabled = false ∨
      s.boot.trained.getLsbD n = true ∨ s.boot.failed.getLsbD n = true) →
      exec (.sectorTrainingDone n failures) s = .next s) ∧
    (s.plumb.gaffer = .boot → s.boot.begun = true → s.boot.perst = false → (s.sector n).enabled = true →
      s.boot.trained.getLsbD n = false → s.boot.failed.getLsbD n = false →
      ∃ t, exec (.sectorTrainingDone n failures) s = .next t ∧ t.ctxs = s.ctxs ∧
        (s.faults.dumpDue = none → t.mem = s.mem) ∧
        (failures < 2 → t.boot.trained.getLsbD n = true ∧ t.boot.failed = s.boot.failed ∧
          (t.sector n).st = (s.sector n).st) ∧
        (2 ≤ failures → t.boot.failed.getLsbD n = true ∧ t.boot.trained = s.boot.trained ∧
          (t.sector n).st = .out))) ∧
  (∀ (tests : List TileTest) (s : State) (wave : List Nat),
    wave = ((s.enabledSectors.filter fun n => s.boot.trained.getLsbD n && !s.boot.released.getLsbD n
      && !s.boot.failed.getLsbD n).take 4) →
    ((s.plumb.gaffer ≠ .boot ∨ s.boot.begun = false ∨ s.boot.perst = true ∨ s.waveOpen = false ∨
      (∃ n ∈ s.enabledSectors, (s.boot.trained ||| s.boot.failed).getLsbD n = false) ∨
      (∃ n ∈ wave, ∃ p ∈ physOfSector n, (s.phy p).cad = .lehr ∧
        (2 ≤ (s.phy p).thermLevel ∨ ∀ x ∈ tests, x.tile.val ≠ p))) →
      exec (.releaseWave tests) s = .next s) ∧
    (s.plumb.gaffer = .boot → s.boot.begun = true → s.boot.perst = false → s.waveOpen = true →
      (∀ n ∈ s.enabledSectors, (s.boot.trained ||| s.boot.failed).getLsbD n = true) →
      ((∀ n ∈ wave, ∀ p ∈ physOfSector n, (s.phy p).cad ≠ .lehr) → ∃ t, exec (.releaseWave []) s = .next t ∧
        (s.faults.dumpDue = none → ∀ x, populated x → (∀ n ∈ wave,
          x < (n + 1) * 0x480000000 - 162 * 0x100000 ∨ (n + 1) * 0x480000000 ≤ x) →
          t.readByte x = s.readByte x) ∧
        ∀ n ∈ wave, t.boot.released.getLsbD n = true ∧
          t.boot.imageDone.getLsbD n = true ∧ (t.sector n).usable = s.usableCount n ∧
          (t.sector n).st = (if s.usableCount n < 24 then .out else if s.usableCount n < 32 then .degraded
            else .up) ∧
          ∀ p ∈ physOfSector n, (t.phy p).powered = (t.phy p).cad.usable ∨ (s.phy p).powered = true) ∧
      (∀ (n : Nat) (p : PhysId) (b : List DWord), n ∈ wave → sectorOfPhys p = n → tests = [{ tile := p, misr := b }] →
        (∀ m ∈ wave, ∀ q ∈ physOfSector m, (s.phy q).cad = .lehr → q = p.val) →
        b = [0, 0, 1, 1, 2, 2, 3, 3].map Config.benchmark → (s.phy p).cad = .lehr → (s.phy p).thermLevel ≤ 1 →
        twoWithinDay (s.phy p).mismatchAt = false → s.boot.rebuild.getLsbD n = false →
        ∃ t, exec (.releaseWave tests) s = .next t ∧
          (∀ m ∈ wave, t.boot.released.getLsbD m = true ∧ t.boot.imageDone.getLsbD m = true) ∧
          (t.phy p).lbistFail = (s.phy p).lbistFail ∧ (t.phy p).visited = true ∧
          ((t.phy p).cad = .spare ∨ (t.phy p).checker = true))))) ∧
  ((∀ (step : Nat) (s : State), (step = 1 ∨ step = 2 ∨ step = 3 ∨ step = 4 ∨ step = 15) →
    ((s.boot.seqBusy = true ∨ s.boot.seqActive = false ∨ s.seqReady step = false) →
      exec (stepInstr step) s = .next { s with boot := { s.boot with seqRefused := true, seqResult := 7 } }) ∧
    (s.boot.seqBusy = false → s.boot.seqActive = true → s.seqReady step = true →
      (step ≠ 15 → (if step = 4 then s.boot.seqPorts else s.boot.seqSectors) = 0 →
        exec (stepInstr step) s = .next { s with boot := { s.boot with
          seqLast := BitVec.ofNat 4 step, seqMask := 0, seqResult := 0 } }) ∧
      ((step = 15 ∨ (if step = 4 then s.boot.seqPorts else s.boot.seqSectors) ≠ 0) →
        ∃ t, exec (stepInstr step) s = .next t ∧ t.boot.seqBusy = true ∧ t.boot.seqLast = BitVec.ofNat 4 step ∧
          (step = 4 → ∀ p ∈ setBits s.boot.seqPorts, (t.port p).st = .training) ∧ t.mem = s.mem ∧
          t.cores = s.cores ∧ t.ctxs = s.ctxs))) ∧
  (∀ (tests : List TileTest) (failed : BitVec 16) (s : State),
    ((s.boot.seqBusy = false ∨ s.plumb.gaffer = .halted ∨ (s.boot.seqLast = 2 ∧ ∃ n ∈ setBits s.boot.seqMask,
        ∃ p ∈ physOfSector n, (s.phy p).cad = .lehr ∧ ∀ x ∈ tests, x.tile.val ≠ p)) →
      exec (.seqStepEnd tests failed) s = .next s) ∧
    (s.boot.seqBusy = true → s.plumb.gaffer ≠ .halted →
      (s.boot.seqLast = 2 → ∀ n ∈ setBits s.boot.seqMask, s.testsEnded tests n = true) →
      ∃ t, exec (.seqStepEnd tests failed) s = .next t ∧ t.boot.seqBusy = false ∧
      t.boot.seqResult = 0 ∧ (s.boot.seqLast ≠ 3 → s.faults.dumpDue = none → t.mem = s.mem) ∧
      (s.boot.seqLast = 1 → ∀ n ∈ setBits s.boot.seqMask,
        (failed.getLsbD n = true → (t.sector n).st = .out ∧ t.boot.failed.getLsbD n = true) ∧
        (failed.getLsbD n = false → t.boot.trained.getLsbD n = true)) ∧
      (s.boot.seqLast = 2 → ∀ n ∈ setBits s.boot.seqMask, t.boot.released.getLsbD n = true) ∧
      (s.boot.seqLast = 3 → ∀ n ∈ setBits s.boot.seqMask, t.boot.imageDone.getLsbD n = true) ∧
      (s.boot.seqLast = 4 → ∀ p ∈ setBits s.boot.seqMask, (s.port p).st = .training → (t.port p).st = .down) ∧
      (s.boot.seqLast = 15 → t.boot.seqActive = false ∧ t.boot.hostSeq = false ∧
        t.plumb.gaffer = (if s.plumb.gaffer = .waitHost then .running else s.plumb.gaffer)))))

/-- FW_UPDATE_BEGIN, FW_UPDATE_WRITE, FW_UPDATE_COMMIT, FW_UPDATE_ACTIVATE, FW_UPDATE_CANCEL and
FW_PROMOTION complete (13 R454, R468 to R470, Table 13.12). A refusal is answered at once, what
needs flash work perhaps with PENDING (which work is slow, and the order of COMMIT's refusals, are
the choices of log 47). BEGIN opens a session on an erased slot B, WRITE appends at OFFSET (the
image is authentic when its digest and signature are, R458, and fails while bytes of it are
missing, R469), COMMIT checks length, floor and signature, ACTIVATE answers OK and restarts the
Gaffer, behind flash work once that has ended, CANCEL erases. After 60 s of RUNNING from slot B,
slot A becomes its copy.

LIC_INSTALL and CFG_WRITE complete (13 R454, R464, R471). Length 0 changes nothing (the tier it
answers is the choice of log 47), another wrong length or a failed DMA is INVALID_ARG, and so is a
GENERATION that the host did not write as zero (log 47 too); a bad check word is CHECK_FAILED. A
good licence with a higher sequence number, or a good block with GENERATION one higher, goes to
one copy in flash; what runs is unchanged until the boot. -/
def Obligations.FlashContents : Prop :=
  ((∀ (src : Src) (host : Option (List Byte)) (slow : Bool) (req : List Byte) (s : State) (n : Nat),
    Fronts s src 0x0A01 req → n = rq req 4 4 → (s.opsOf (srcFn src)).length < 8 →
    (rq req 0 1 = 0 →
      (n ≠ 0 → (n < 256 ∨ 16777216 < n) → exec (.fwUpdateBegin src slow) s = .next (answered s src stInvalidArg [])) ∧
      ((n = 0 ∨ (256 ≤ n ∧ n ≤ 16777216)) → (s.flash.session.isSome = true ∨ s.flash.copied = false) →
        exec (.fwUpdateBegin src slow) s = .next (answered s src stBusy [])) ∧
      (n = 0 → s.flash.session = none → s.flash.copied = true →
        ∃ t, exec (.fwUpdateBegin src slow) s = .next t ∧ FlashAnswers s t src req slow stOk [1] ∧
          t.flash = s.flash) ∧
      (256 ≤ n → n ≤ 16777216 → s.flash.session = none → s.flash.copied = true →
        ∃ t, exec (.fwUpdateBegin src slow) s = .next t ∧ FlashAnswers s t src req slow stOk [1] ∧
          t.flash = { s.flash with slotB := {}, session := some { length := n } } ∧ t.plumb.rev = s.plumb.rev ∧
          t.plumb.fwPatch = s.plumb.fwPatch)) ∧
    (rq req 0 1 = 1 →
      ((∀ x, s.flash.session = some x → x.activating = true) → exec (.fwUpdateWrite src host slow) s = .next (answered s src stInvalidArg [])) ∧
      (∀ x, s.flash.session = some x → x.activating = false →
        ((rq req 8 4 ≠ x.written ∨ x.length < x.written + n ∨ 0x100000 < n) →
          exec (.fwUpdateWrite src host slow) s = .next (answered s src stInvalidArg [])) ∧
        (rq req 8 4 = x.written → x.written ≤ x.length → n = 0 →
          ∃ t, exec (.fwUpdateWrite src host slow) s = .next t ∧ FlashAnswers s t src req slow stOk [1] ∧
            t.flash = s.flash) ∧
        (rq req 8 4 = x.written → x.written + n ≤ x.length → n ≤ 0x100000 → n ≠ 0 →
          (host = none → exec (.fwUpdateWrite src host slow) s = .next (answered s src stInvalidArg [])) ∧
          (∀ h, host = some h → h.length = n → ∃ t, exec (.fwUpdateWrite src host slow) s = .next t ∧
            FlashAnswers s t src req slow stOk [1] ∧ t.flash.slotB.bytes = s.flash.slotB.bytes ++ h ∧
            (∀ bs len, bs = s.flash.slotB.bytes ++ h → len = field bs 0x10 4 →
              (t.flash.slotB.authentic = true ↔ 256 ≤ len ∧ len ≤ bs.length ∧
                (bs.drop 0x40).take 48 = sha384 ((bs.take len).drop 0x100) ∧
                Config.firmwareSignature (bs.take 0xD0) = true) ∧ t.flash.slotB.svn = field bs 0x0C 4) ∧
            t.flash.session = some { x with written := x.written + n } ∧ t.flash.slotA = s.flash.slotA)))) ∧
    (rq req 0 1 = 2 →
      ((∀ x, s.flash.session = some x → x.activating = true) → exec (.fwUpdateCommit src slow) s = .next (answered s src stInvalidArg [])) ∧
      (∀ x, s.flash.session = some x → x.activating = false →
        ((x.written ≠ x.length ∨ s.flash.slotB.svn < s.flash.svnFloor) → ∃ t,
          exec (.fwUpdateCommit src slow) s = .next t ∧ FlashAnswers s t src req slow stInvalidArg [] ∧
          t.flash.session = none ∧ t.flash.slotB = {}) ∧
        (x.written = x.length → s.flash.svnFloor ≤ s.flash.slotB.svn →
          (s.flash.slotB.authentic = false → ∃ t, exec (.fwUpdateCommit src slow) s = .next t ∧
            FlashAnswers s t src req slow stCheckFailed [] ∧ t.flash.session = none) ∧
          (s.flash.slotB.authentic = true → ∃ t, exec (.fwUpdateCommit src slow) s = .next t ∧
            FlashAnswers s t src req slow stOk [1] ∧ t.flash.session = some { x with committed := true } ∧
            t.flash.slotB = s.flash.slotB)))) ∧
    (rq req 0 1 = 3 →
      ((∀ x, s.flash.session = some x → (x.committed = false ∧ x.activating = false) ∨
          (x.activating = true ∧ ∃ o ∈ s.delash.ops, o.work = .activate ∧ o.final = none)) →
        exec (.fwUpdateActivate src) s = .next (answered s src stInvalidArg [])) ∧
      (∀ x, s.flash.session = some x → x.committed = true → x.activating = false →
        (s.flashBusy = false → ∃ t, exec (.fwUpdateActivate src) s = .next t ∧
          Replied t src req stOk [1] ∧ t.plumb.gaffer = .restarting ∧ t.faults.restartCause = 3 ∧
          t.cores = s.cores ∧ t.ctxs = s.ctxs ∧ t.mem = s.mem) ∧
        (s.flashBusy = true → ∃ t o, exec (.fwUpdateActivate src) s = .next t ∧ o ∈ t.delash.ops ∧
          o.work = .activate ∧ o.final = none ∧ o.fn = srcFn src ∧
          Replied t src req stPending (leBytes 2 o.id.toNat) ∧
          t.flash.session = some { x with activating := true } ∧ t.plumb = s.plumb))) ∧
    (rq req 0 1 = 4 → ∃ t, exec (.fwUpdateCancel src slow) s = .next t ∧
      FlashAnswers s t src req slow stOk [1] ∧
      t.flash.slotA = s.flash.slotA ∧
      (∀ x, s.flash.session = some x → x.activating = false → t.flash.session = none ∧ t.flash.slotB = {}) ∧
      ((∀ x, s.flash.session = some x → x.activating = true) → t.flash = s.flash))) ∧
  (∀ s : State,
    ((s.plumb.gaffer ≠ .running ∨ s.plumb.fwSlotB = false ∨
      s.deviceTime.toNat < s.flash.runningSince.toNat + 60000000000 ∨ s.flashBusy = true ∨
      s.flash.session.isSome = true ∨ s.flash.accepts s.flash.slotB = false ∨
      (s.flash.activated = false ∧ s.flash.accepts s.flash.slotA = true)) → exec .fwPromotion s = .next s) ∧
    (s.plumb.gaffer = .running → s.plumb.fwSlotB = true → s.flashBusy = false → s.flash.session = none →
      s.flash.accepts s.flash.slotB = true →
      (s.flash.activated = true ∨ s.flash.accepts s.flash.slotA = false) →
      s.flash.runningSince.toNat + 60000000000 ≤ s.deviceTime.toNat → ∃ t, exec .fwPromotion s = .next t ∧
        t.flash.slotA = s.flash.slotB ∧ t.flash.copied = true ∧
        t.flash.svnFloor = (if s.flash.slotB.raiseFloor then max s.flash.svnFloor s.flash.slotB.svn
          else s.flash.svnFloor) ∧ t = { s with flash := t.flash }))) ∧
  ((∀ (src : Src) (host : Option (List Byte)) (slow : Bool) (req : List Byte) (s : State),
    Fronts s src 0x0A02 req → (s.opsOf (srcFn src)).length < 8 →
    (rq req 0 4 = 0 → ∃ t, exec (.licInstall src host slow) s = .next t ∧ t.flash = s.flash ∧
      FlashAnswers s t src req slow stOk (leBytes 1 s.boot.licence.tier)) ∧
    (rq req 0 4 ≠ 0 → (rq req 0 4 ≠ 256 ∨ host = none) →
      exec (.licInstall src host slow) s = .next (answered s src stInvalidArg [])) ∧
    (∀ b, rq req 0 4 = 256 → host = some b → b.length = 256 →
      (licenceSigned b = false → ∃ t, exec (.licInstall src host slow) s = .next t ∧ t.flash = s.flash ∧
        FlashAnswers s t src req slow stCheckFailed []) ∧
      (licenceSigned b = true → licenceFields b = false →
        exec (.licInstall src host slow) s = .next (answered s src stInvalidArg [])) ∧
      (licenceSigned b = true → licenceFields b = true →
        (∀ o, chooseLicence s.flash.lic0 s.flash.lic1 = some o → licSeq o < licSeq b) →
        ∃ t, exec (.licInstall src host slow) s = .next t ∧
          FlashAnswers s t src req slow stOk (leBytes 1 (field b 6 1)) ∧
          chooseLicence t.flash.lic0 t.flash.lic1 = some b ∧ t.boot = s.boot ∧
          (t.flash.lic0 = s.flash.lic0 ∨ t.flash.lic1 = s.flash.lic1)))) ∧
  (∀ (src : Src) (host : Option (List Byte)) (slow : Bool) (req : List Byte) (s : State) (k : Block),
    Fronts s src 0x0A03 req → (s.opsOf (srcFn src)).length < 8 → k = blockOf (rq req 0 1) →
    (rq req 4 4 = 0 → ∃ t, exec (.cfgWrite src host slow) s = .next t ∧ t.flash = s.flash ∧
      FlashAnswers s t src req slow stOk []) ∧
    (rq req 4 4 ≠ 0 → (rq req 4 4 ≠ k.size ∨ host = none) →
      exec (.cfgWrite src host slow) s = .next (answered s src stInvalidArg [])) ∧
    (∀ b, rq req 4 4 = k.size → host = some b → b.length = k.size →
      (crcOk b = false → ∃ t, exec (.cfgWrite src host slow) s = .next t ∧ t.flash = s.flash ∧
        FlashAnswers s t src req slow stCheckFailed []) ∧
      (crcOk b = true → (k.fields b = false ∨ genOf b ≠ 0) →
        exec (.cfgWrite src host slow) s = .next (answered s src stInvalidArg [])) ∧
      (crcOk b = true → k.fields b = true → genOf b = 0 → ∃ t, exec (.cfgWrite src host slow) s = .next t ∧
        FlashAnswers s t src req slow stOk [] ∧ t.boot = s.boot ∧ t.fabric.routes = s.fabric.routes ∧
        ((t.flash.copies k).1 = (s.flash.copies k).1 ∧ (t.flash.copies k).2 = stampBlock b (s.genInUse k + 1) ∨
          (t.flash.copies k).2 = (s.flash.copies k).2 ∧
            (t.flash.copies k).1 = stampBlock b (s.genInUse k + 1))))))

/-- PROFILE_PIN_SAMPLE, POWER_CAP_STEP, PWRBRK_ASSERT and PWRBRK_RELEASE complete: the profile pins,
the power cap and PWRBRK# (14 R473, R474, R482 to R485). That the comparisons with 105 and 97
percent of the limit are exact is the model's reading (log 45).

THERMAL_SAMPLE, DROOP_TRIP, DROOP_REVIEW and RAIL_FAULT complete: temperatures, droop and rails
(14 R480, R481, R486 to R489, R495, Table 14.3). A tile's level rises at 95, 100 and 105 °C and
falls below 92, 97 and 102 °C; 115 °C trips. A droop counts and marks; 100 marks in a review raise
the guard by 5 mV up to 40. A rail that leaves its range takes the module out of service, with the
regulators on or off (R495). -/
def Obligations.PowerAndThermal : Prop :=
  ((∀ (pins : BitVec 2) (s : State), (s.boot.auxOn = false → exec (.profilePinSample pins) s = .next s) ∧
    (s.boot.auxOn = true → ∃ t, exec (.profilePinSample pins) s = .next t ∧ t.plumb.pins = pins ∧
      ((pinProfile s.power.pinForce).toNat ≤ (pinProfile pins).toNat → t.power = s.power ∧
        t.plumb = { s.plumb with pins := pins }) ∧
      ((pinProfile pins).toNat < (pinProfile s.power.pinForce).toNat → t.power.pinForce = pins ∧
        t.plumb.profile.toNat ≤ (pinProfile pins).toNat) ∧ t.mem = s.mem ∧ t.cores = s.cores)) ∧
  (∀ (w : Nat) (s : State), (s.boot.auxOn = false → exec (.powerCapStep w) s = .next s) ∧
    (s.boot.auxOn = true → ∃ t, exec (.powerCapStep w) s = .next t ∧ t.plumb.powerW = min 0xFFFF w ∧
      t.plumb.capActive = (decide (t.power.ceil < s.pmax) || decide (t.power.gate < 16)) ∧
      (s.powerLimit < w → t.power.calm = 0 ∧
        (w * 100 ≤ s.powerLimit * 105 → 425 ≤ s.power.ceil → t.power.ceil = s.power.ceil - 25 ∧
          t.power.gate = s.power.gate) ∧
        (s.powerLimit * 105 < w * 100 → 500 ≤ s.power.ceil → t.power.ceil = s.power.ceil - 100 ∧
          t.power.gate = s.power.gate) ∧
        (s.power.ceil ≤ 400 → t.power.ceil = 400 ∧
          t.power.gate = (if 1 < s.power.gate then s.power.gate - 1 else s.power.gate))) ∧
      (w ≤ s.powerLimit → s.powerLimit * 97 ≤ w * 100 → t.power = { s.power with calm := 0 }) ∧
      (w * 100 < s.powerLimit * 97 → s.power.gate < 16 → t.power.gate = s.power.gate + 1 ∧
        t.power.ceil = s.power.ceil) ∧
      (w * 100 < s.powerLimit * 97 → s.power.gate = 16 → s.power.recovering = false →
        t.power.ceil = (if 9 ≤ s.power.calm then min (s.power.ceil + 25) s.pmax else s.power.ceil)) ∧
      (w * 100 < s.powerLimit * 97 → s.power.gate = 16 → s.power.recovering = true →
        t.power.ceil = min (s.power.ceil + 100) s.pmax ∧
        t.power.recovering = decide (min (s.power.ceil + 100) s.pmax ≠ s.pmax)) ∧
      t.mem = s.mem ∧ t.cores = s.cores)) ∧
  (∀ s : State, (s.power.pwrbrk = true → exec .pwrbrkAssert s = .next s) ∧
    (s.power.pwrbrk = false → s.boot.auxOn = true → ∃ t, exec .pwrbrkAssert s = .next t ∧
      t.power = { s.power with pwrbrk := true, ceil := 400, gate := 4 } ∧ t.plumb.capActive = true) ∧
    (s.power.pwrbrk = false → s.boot.auxOn = false →
      exec .pwrbrkAssert s = .next { s with power := { s.power with pwrbrk := true } }) ∧
    (s.power.pwrbrk = false → exec .pwrbrkRelease s = .next s) ∧
    (s.power.pwrbrk = true → exec .pwrbrkRelease s
      = .next { s with power := { s.power with pwrbrk := false, recovering := s.boot.auxOn } }))) ∧
  ((∀ (p : PhysId) (c : Nat) (s : State), s.boot.auxOn = true → c < 115 →
    ∃ t, exec (.thermalSample [(.tile p, c)]) s = .next t ∧ (t.phy p).temp = c ∧
      (t.phy p).peak = max (s.phy p).peak c ∧
      (105 ≤ c → (t.phy p).thermLevel = 3) ∧ (c < 92 → (t.phy p).thermLevel = 0) ∧
      (95 ≤ c → c < 97 → (t.phy p).thermLevel = 1) ∧
      (92 ≤ c → c < 95 → (t.phy p).thermLevel = min (s.phy p).thermLevel 1) ∧
      (97 ≤ c → c < 100 → (t.phy p).thermLevel = max 1 (min (s.phy p).thermLevel 2)) ∧
      (100 ≤ c → c < 102 → (t.phy p).thermLevel = 2) ∧
      (102 ≤ c → c < 105 → (t.phy p).thermLevel = max 2 (min (s.phy p).thermLevel 3)) ∧
      (∀ v, (s.phy p).visit = some v → v.waits = true → ∃ w, (t.phy p).visit = some w ∧
        w.waits = decide (2 ≤ (t.phy p).thermLevel)) ∧
      (∀ q, q < 576 → (t.phy q).temp ≤ t.plumb.tjMax) ∧ (∀ q, q ≠ p.val → t.phy q = s.phy q) ∧
      t.plumb.gaffer = s.plumb.gaffer ∧ t.mem = s.mem ∧ t.cores = s.cores) ∧
  (∀ (p : PhysId) (c : Nat) (s : State), s.boot.auxOn = true → 115 ≤ c → s.faults.thermTrip = false →
    ∃ t, exec (.thermalSample [(.tile p, c)]) s = .next t ∧ t.faults.thermTrip = true ∧
      t.plumb.outOfService = true ∧ t.plumb.gaffer = .halted ∧ t.boot.regulators = false) ∧
  (∀ (rs : List (Sensor × Nat)) (s : State), s.boot.auxOn = false → exec (.thermalSample rs) s = .next s) ∧
  (∀ (p : PhysId) (cycles : Nat) (s : State),
    ((s.phy p).powered = false → exec (.droopTrip p cycles) s = .next s) ∧
    ((s.phy p).powered = true → exec (.droopTrip p cycles) s = .next (s.modPhy p fun x =>
      { x with droopEvent := min 0xFFFF (x.droopEvent + 1), droopMark := x.droopMark + 1
               droopTimes := s.recentTimes x.droopTimes 1, lastDroop := s.deviceTime, stretched := min 8 cycles })) ∧
    (∃ t, exec (.droopReview p) s = .next t ∧ (t.phy p).droopMark = 0 ∧
      (100 ≤ (s.phy p).droopMark → (t.phy p).droopMv = min 40 ((s.phy p).droopMv + 5)) ∧
      ((s.phy p).droopMark < 100 → (s.phy p).lastDroop.toNat + 1000000000 ≤ s.deviceTime.toNat →
        (t.phy p).droopMv = (s.phy p).droopMv - 5) ∧
      ((s.phy p).droopMark < 100 → s.deviceTime.toNat < (s.phy p).lastDroop.toNat + 1000000000 →
        (t.phy p).droopMv = (s.phy p).droopMv) ∧
      (∀ q, q ≠ p.val → t.phy q = s.phy q) ∧ t = { s with phys := t.phys })) ∧
  (∀ (r : Rail) (s : State), (s.boot.railsOk = false → exec (.railFault r) s = .next s) ∧
    (s.boot.railsOk = true → ∃ t, exec (.railFault r) s = .next t ∧ t.boot.railsOk = false ∧
      t.plumb.outOfService = true ∧ t.plumb.gaffer = .halted ∧ t.boot.regulators = false ∧
      t.boot.seqActive = false)))
end

