-- ==== Sys2Proof/Laws/Cells.lean ====
section
/-! SUPPORT. Byte memory: every operation keeps the canonical form, a read after a write gives the
value written, and every other address reads as before. -/
namespace Sys2Proof.Machine

theorem Cells.wfFrom_mono (m : List Host.Cell) (lo lo' : Nat) (h : lo' ≤ lo)
    (hm : Cells.wfFrom lo m = true) : Cells.wfFrom lo' m = true := by
  cases m with
  | nil => rfl
  | cons c t =>
    obtain ⟨j, b⟩ := c
    simp only [Cells.wfFrom, Bool.and_eq_true, decide_eq_true_eq] at hm ⊢
    exact ⟨⟨by omega, hm.1.2⟩, hm.2⟩

theorem Cells.write_wfFrom (m : List Host.Cell) (lo a : Nat) (b : Byte) (ha : lo ≤ a)
    (hm : Cells.wfFrom lo m = true) : Cells.wfFrom lo (Cells.write m a b) = true := by
  induction m generalizing lo with
  | nil =>
    by_cases hb : b = 0
    · simp only [Cells.write, if_pos hb, Cells.wfFrom]
    · simp only [Cells.write, if_neg hb, Cells.wfFrom, Bool.and_eq_true, decide_eq_true_eq]
      exact ⟨⟨ha, by simpa using hb⟩, trivial⟩
  | cons c t ih =>
    obtain ⟨j, u⟩ := c
    have hm' := hm
    simp only [Cells.wfFrom, Bool.and_eq_true, decide_eq_true_eq] at hm
    obtain ⟨⟨h1, h2⟩, h3⟩ := hm
    by_cases hlt : a < j
    · by_cases hb : b = 0
      · simpa only [Cells.write, if_pos hlt, if_pos hb] using hm'
      · simp only [Cells.write, if_pos hlt, if_neg hb, Cells.wfFrom, Bool.and_eq_true,
          decide_eq_true_eq]
        exact ⟨⟨ha, by simpa using hb⟩, ⟨by omega, h2⟩, h3⟩
    · by_cases he : j = a
      · by_cases hb : b = 0
        · simpa only [Cells.write, if_neg hlt, if_pos he, if_pos hb]
            using Cells.wfFrom_mono t (j + 1) lo (by omega) h3
        · simp only [Cells.write, if_neg hlt, if_pos he, if_neg hb, Cells.wfFrom, Bool.and_eq_true,
            decide_eq_true_eq]
          exact ⟨⟨ha, by simpa using hb⟩, he ▸ h3⟩
      · simp only [Cells.write, if_neg hlt, if_neg he, Cells.wfFrom, Bool.and_eq_true,
          decide_eq_true_eq]
        exact ⟨⟨h1, h2⟩, ih (j + 1) (by omega) h3⟩

theorem Cells.write_wf (m : List Host.Cell) (a : Nat) (b : Byte) (h : Cells.wf m = true) :
    Cells.wf (Cells.write m a b) = true := Cells.write_wfFrom m 0 a b (Nat.zero_le a) h

theorem Cells.writeAll_wf (m : List Host.Cell) (a : Nat) (bs : List Byte) (h : Cells.wf m = true) :
    Cells.wf (Cells.writeAll m a bs) = true := by
  induction bs generalizing m a with
  | nil => exact h
  | cons b bs ih => exact ih _ _ (Cells.write_wf m a b h)

theorem Cells.filter_wfFrom (p : Host.Cell → Bool) (m : List Host.Cell) (lo : Nat)
    (h : Cells.wfFrom lo m = true) : Cells.wfFrom lo (m.filter p) = true := by
  induction m generalizing lo with
  | nil => rfl
  | cons c t ih =>
    obtain ⟨j, b⟩ := c
    simp only [Cells.wfFrom, Bool.and_eq_true, decide_eq_true_eq] at h
    by_cases hp : p (j, b) = true
    · simp only [List.filter_cons, hp, if_true, Cells.wfFrom, Bool.and_eq_true, decide_eq_true_eq]
      exact ⟨h.1, ih (j + 1) h.2⟩
    · simp only [List.filter_cons, hp, Bool.false_eq_true, if_false]
      exact ih lo (Cells.wfFrom_mono t (j + 1) lo (by omega) h.2)

theorem Cells.clear_wf (m : List Host.Cell) (lo hi : Nat) (h : Cells.wf m = true) :
    Cells.wf (Cells.clear m lo hi) = true := Cells.filter_wfFrom _ m 0 h

/-- In canonical form, an address below the first listed one reads 0. -/
theorem Cells.read_below (m : List Host.Cell) (lo a : Nat) (h : Cells.wfFrom lo m = true)
    (ha : a < lo) : Cells.read m a = 0 := by
  induction m generalizing lo with
  | nil => rfl
  | cons c t ih =>
    obtain ⟨j, b⟩ := c
    simp only [Cells.wfFrom, Bool.and_eq_true, decide_eq_true_eq] at h
    have hne : j ≠ a := by omega
    simp only [Cells.read, hne, if_false]
    exact ih (j + 1) h.2 (by omega)

theorem Cells.read_write_same (m : List Host.Cell) (lo a : Nat) (b : Byte)
    (h : Cells.wfFrom lo m = true) : Cells.read (Cells.write m a b) a = b := by
  induction m generalizing lo with
  | nil =>
    by_cases hb : b = 0
    · simpa only [Cells.write, if_pos hb, Cells.read] using hb.symm
    · simp only [Cells.write, if_neg hb, Cells.read, if_true]
  | cons c t ih =>
    obtain ⟨j, u⟩ := c
    simp only [Cells.wfFrom, Bool.and_eq_true, decide_eq_true_eq] at h
    by_cases hlt : a < j
    · by_cases hb : b = 0
      · have hne : ¬ j = a := by omega
        simp only [Cells.write, if_pos hlt, if_pos hb, Cells.read, if_neg hne]
        rw [Cells.read_below t (j + 1) a h.2 (by omega), hb]
      · simp only [Cells.write, if_pos hlt, if_neg hb, Cells.read, if_true]
    · by_cases he : j = a
      · by_cases hb : b = 0
        · simp only [Cells.write, if_neg hlt, if_pos he, if_pos hb]
          rw [Cells.read_below t (j + 1) a h.2 (by omega), hb]
        · simp only [Cells.write, if_neg hlt, if_pos he, if_neg hb, Cells.read, if_true]
      · simp only [Cells.write, if_neg hlt, if_neg he, Cells.read]
        exact ih (j + 1) h.2

theorem Cells.read_write_other (m : List Host.Cell) (a x : Nat) (b : Byte) (hx : x ≠ a) :
    Cells.read (Cells.write m a b) x = Cells.read m x := by
  have hx' : ¬ a = x := Ne.symm hx
  induction m with
  | nil =>
    by_cases hb : b = 0
    · simp only [Cells.write, if_pos hb]
    · simp only [Cells.write, if_neg hb, Cells.read, if_neg hx']
  | cons c t ih =>
    obtain ⟨j, u⟩ := c
    by_cases hlt : a < j
    · by_cases hb : b = 0
      · simp only [Cells.write, if_pos hlt, if_pos hb]
      · simp only [Cells.write, if_pos hlt, if_neg hb, Cells.read, if_neg hx']
    · by_cases he : j = a
      · subst he
        by_cases hb : b = 0
        · simp only [Cells.write, if_neg hlt, if_pos hb, if_true, Cells.read, if_neg hx']
        · simp only [Cells.write, if_neg hlt, if_neg hb, if_true, Cells.read, if_neg hx']
      · simp only [Cells.write, if_neg hlt, if_neg he, Cells.read, ih]

end Sys2Proof.Machine
end

