-- ==== Sys2Proof/Laws/Tables.lean ====
section
/-! SUPPORT. Tables: what a read of an entry gives after a write. -/
namespace Sys2Proof.Machine

@[simp] theorem Tab.get_nil {α : Type} (d : α) (k : Nat) : Tab.get d ([] : Tab α) k = d := rfl

@[simp] theorem Tab.get_set_same {α : Type} (d : α) (t : Tab α) (k : Nat) (v : α) :
    Tab.get d (Tab.set t k v) k = v := by
  induction t with
  | nil => simp [Tab.set, Tab.get]
  | cons e t ih =>
    obtain ⟨j, u⟩ := e
    by_cases h : k < j
    · simp [Tab.set, Tab.get, h]
    · by_cases h2 : j = k
      · simp [Tab.set, Tab.get, h2]
      · simp [Tab.set, Tab.get, h, h2, ih]

theorem Tab.get_set_other {α : Type} (d : α) (t : Tab α) (k j : Nat) (v : α) (h : j ≠ k) :
    Tab.get d (Tab.set t k v) j = Tab.get d t j := by
  induction t with
  | nil => simp [Tab.set, Tab.get, Ne.symm h]
  | cons e t ih =>
    obtain ⟨i, u⟩ := e
    by_cases h1 : k < i
    · simp [Tab.set, Tab.get, h1, Ne.symm h]
    · by_cases h2 : i = k
      · subst h2; simp [Tab.set, Tab.get, Ne.symm h]
      · simp [Tab.set, Tab.get, h1, h2, ih]

theorem Tab.get_set {α : Type} (d : α) (t : Tab α) (k j : Nat) (v : α) :
    Tab.get d (Tab.set t k v) j = if j = k then v else Tab.get d t j := by
  by_cases h : j = k
  · simp [h]
  · simp [h, Tab.get_set_other d t k j v h]

@[simp] theorem Tab.get_mod_same {α : Type} (d : α) (t : Tab α) (k : Nat) (f : α → α) :
    Tab.get d (Tab.mod d t k f) k = f (Tab.get d t k) := Tab.get_set_same d t k _

theorem Tab.get_mod_other {α : Type} (d : α) (t : Tab α) (k j : Nat) (f : α → α) (h : j ≠ k) :
    Tab.get d (Tab.mod d t k f) j = Tab.get d t j := Tab.get_set_other d t k j _ h

/-- Writing an entry twice keeps the second value. -/
@[simp] theorem Tab.set_set {α : Type} (t : Tab α) (k : Nat) (v w : α) :
    Tab.set (Tab.set t k v) k w = Tab.set t k w := by
  induction t with
  | nil => simp [Tab.set]
  | cons e t ih =>
    obtain ⟨j, u⟩ := e
    by_cases h : k < j
    · simp [Tab.set, h]
    · by_cases h2 : j = k
      · simp [Tab.set, h2]
      · simp [Tab.set, h, h2, ih]

end Sys2Proof.Machine
end

