-- ==== Sys2Proof/Laws/State.lean ====
section
/-! SUPPORT. What each update of the state leaves in each of its fields, and what each part reads as
after it. -/
namespace Sys2Proof.Machine

variable (s : State)

/-! ### setCore -/

@[simp] theorem State.setCore_pending (c : Nat) (x : Core) : (s.setCore c x).pending = s.pending := rfl
@[simp] theorem State.setCore_freeCtr (c : Nat) (x : Core) : (s.setCore c x).freeCtr = s.freeCtr := rfl
@[simp] theorem State.setCore_out (c : Nat) (x : Core) : (s.setCore c x).out = s.out := rfl
@[simp] theorem State.setCore_deviceTime (c : Nat) (x : Core) : (s.setCore c x).deviceTime
    = s.deviceTime := rfl
@[simp] theorem State.setCore_slewAhead (c : Nat) (x : Core) : (s.setCore c x).slewAhead
    = s.slewAhead := rfl
@[simp] theorem State.setCore_slewBack (c : Nat) (x : Core) : (s.setCore c x).slewBack = s.slewBack := rfl
@[simp] theorem State.setCore_slewPhase (c : Nat) (x : Core) : (s.setCore c x).slewPhase
    = s.slewPhase := rfl
@[simp] theorem State.setCore_tileTime (c : Nat) (x : Core) : (s.setCore c x).tileTime = s.tileTime := rfl
@[simp] theorem State.setCore_tileTimeAt (c : Nat) (x : Core) : (s.setCore c x).tileTimeAt
    = s.tileTimeAt := rfl
@[simp] theorem State.setCore_lifecycle (c : Nat) (x : Core) : (s.setCore c x).lifecycle
    = s.lifecycle := rfl
@[simp] theorem State.setCore_tiles (c : Nat) (x : Core) : (s.setCore c x).tiles = s.tiles := rfl
@[simp] theorem State.setCore_cores (c : Nat) (x : Core) : (s.setCore c x).cores
    = Tab.set s.cores c x := rfl
@[simp] theorem State.setCore_slots (c : Nat) (x : Core) : (s.setCore c x).slots = s.slots := rfl
@[simp] theorem State.setCore_mem (c : Nat) (x : Core) : (s.setCore c x).mem = s.mem := rfl
@[simp] theorem State.setCore_priv (c : Nat) (x : Core) : (s.setCore c x).priv = s.priv := rfl
@[simp] theorem State.setCore_tierPz (c : Nat) (x : Core) : (s.setCore c x).tierPz = s.tierPz := rfl
@[simp] theorem State.setCore_spadPz (c : Nat) (x : Core) : (s.setCore c x).spadPz = s.spadPz := rfl
@[simp] theorem State.setCore_acmPz (c : Nat) (x : Core) : (s.setCore c x).acmPz = s.acmPz := rfl
@[simp] theorem State.setCore_privPz (c : Nat) (x : Core) : (s.setCore c x).privPz = s.privPz := rfl
@[simp] theorem State.setCore_poison (c : Nat) (x : Core) : (s.setCore c x).poison = s.poison := rfl
@[simp] theorem State.setCore_scrambled (c : Nat) (x : Core) : (s.setCore c x).scrambled
    = s.scrambled := rfl
@[simp] theorem State.setCore_retired (c : Nat) (x : Core) : (s.setCore c x).retired = s.retired := rfl
@[simp] theorem State.setCore_retireMark (c : Nat) (x : Core) : (s.setCore c x).retireMark
    = s.retireMark := rfl
@[simp] theorem State.setCore_caches (c : Nat) (x : Core) : (s.setCore c x).caches = s.caches := rfl
@[simp] theorem State.setCore_channels (c : Nat) (x : Core) : (s.setCore c x).channels = s.channels := rfl
@[simp] theorem State.setCore_ctxs (c : Nat) (x : Core) : (s.setCore c x).ctxs = s.ctxs := rfl
@[simp] theorem State.setCore_queues (c : Nat) (x : Core) : (s.setCore c x).queues = s.queues := rfl
@[simp] theorem State.setCore_fetchCtr (c : Nat) (x : Core) : (s.setCore c x).fetchCtr = s.fetchCtr := rfl
@[simp] theorem State.setCore_delash (c : Nat) (x : Core) : (s.setCore c x).delash = s.delash := rfl
@[simp] theorem State.setCore_plumb (c : Nat) (x : Core) : (s.setCore c x).plumb = s.plumb := rfl
@[simp] theorem State.setCore_engines (c : Nat) (x : Core) : (s.setCore c x).engines = s.engines := rfl
@[simp] theorem State.setCore_replay (c : Nat) (x : Core) : (s.setCore c x).replay = s.replay := rfl
@[simp] theorem State.setCore_net (c : Nat) (x : Core) : (s.setCore c x).net = s.net := rfl
@[simp] theorem State.setCore_fabric (c : Nat) (x : Core) : (s.setCore c x).fabric = s.fabric := rfl
@[simp] theorem State.setCore_phys (c : Nat) (x : Core) : (s.setCore c x).phys = s.phys := rfl
@[simp] theorem State.setCore_sectors (c : Nat) (x : Core) : (s.setCore c x).sectors = s.sectors := rfl
@[simp] theorem State.setCore_xchk (c : Nat) (x : Core) : (s.setCore c x).xchk = s.xchk := rfl
@[simp] theorem State.setCore_faults (c : Nat) (x : Core) : (s.setCore c x).faults = s.faults := rfl
@[simp] theorem State.setCore_flash (c : Nat) (x : Core) : (s.setCore c x).flash = s.flash := rfl
@[simp] theorem State.setCore_boot (c : Nat) (x : Core) : (s.setCore c x).boot = s.boot := rfl
@[simp] theorem State.setCore_power (c : Nat) (x : Core) : (s.setCore c x).power = s.power := rfl
@[simp] theorem State.setCore_tile (c : Nat) (x : Core) (t₁ : Nat) : (s.setCore c x).tile t₁
    = s.tile t₁ := rfl
@[simp] theorem State.setCore_ctx (c : Nat) (x : Core) (k₁ : Nat) : (s.setCore c x).ctx k₁ = s.ctx k₁ := rfl
@[simp] theorem State.setCore_sector (c : Nat) (x : Core) (n₁ : Nat) : (s.setCore c x).sector n₁
    = s.sector n₁ := rfl
@[simp] theorem State.setCore_queue (c : Nat) (x : Core) (f₁ j₁ : Nat) : (s.setCore c x).queue f₁ j₁
    = s.queue f₁ j₁ := rfl
@[simp] theorem State.setCore_port (c : Nat) (x : Core) (p₁ : Nat) : (s.setCore c x).port p₁
    = s.port p₁ := rfl
@[simp] theorem State.setCore_engine (c : Nat) (x : Core) (e₁ : Nat) : (s.setCore c x).engine e₁
    = s.engine e₁ := rfl
@[simp] theorem State.setCore_mailbox (c : Nat) (x : Core) (f₁ : Nat) : (s.setCore c x).mailbox f₁
    = s.mailbox f₁ := rfl
@[simp] theorem State.setCore_channel (c : Nat) (x : Core) (n₁ : Nat) : (s.setCore c x).channel n₁
    = s.channel n₁ := rfl
@[simp] theorem State.setCore_phy (c : Nat) (x : Core) (p₁ : Nat) : (s.setCore c x).phy p₁ = s.phy p₁ := rfl

/-! ### setTile -/

@[simp] theorem State.setTile_pending (t : Nat) (x : Tile) : (s.setTile t x).pending = s.pending := rfl
@[simp] theorem State.setTile_freeCtr (t : Nat) (x : Tile) : (s.setTile t x).freeCtr = s.freeCtr := rfl
@[simp] theorem State.setTile_out (t : Nat) (x : Tile) : (s.setTile t x).out = s.out := rfl
@[simp] theorem State.setTile_deviceTime (t : Nat) (x : Tile) : (s.setTile t x).deviceTime
    = s.deviceTime := rfl
@[simp] theorem State.setTile_slewAhead (t : Nat) (x : Tile) : (s.setTile t x).slewAhead
    = s.slewAhead := rfl
@[simp] theorem State.setTile_slewBack (t : Nat) (x : Tile) : (s.setTile t x).slewBack = s.slewBack := rfl
@[simp] theorem State.setTile_slewPhase (t : Nat) (x : Tile) : (s.setTile t x).slewPhase
    = s.slewPhase := rfl
@[simp] theorem State.setTile_tileTime (t : Nat) (x : Tile) : (s.setTile t x).tileTime = s.tileTime := rfl
@[simp] theorem State.setTile_tileTimeAt (t : Nat) (x : Tile) : (s.setTile t x).tileTimeAt
    = s.tileTimeAt := rfl
@[simp] theorem State.setTile_lifecycle (t : Nat) (x : Tile) : (s.setTile t x).lifecycle
    = s.lifecycle := rfl
@[simp] theorem State.setTile_tiles (t : Nat) (x : Tile) : (s.setTile t x).tiles
    = Tab.set s.tiles t x := rfl
@[simp] theorem State.setTile_cores (t : Nat) (x : Tile) : (s.setTile t x).cores = s.cores := rfl
@[simp] theorem State.setTile_slots (t : Nat) (x : Tile) : (s.setTile t x).slots = s.slots := rfl
@[simp] theorem State.setTile_mem (t : Nat) (x : Tile) : (s.setTile t x).mem = s.mem := rfl
@[simp] theorem State.setTile_priv (t : Nat) (x : Tile) : (s.setTile t x).priv = s.priv := rfl
@[simp] theorem State.setTile_tierPz (t : Nat) (x : Tile) : (s.setTile t x).tierPz = s.tierPz := rfl
@[simp] theorem State.setTile_spadPz (t : Nat) (x : Tile) : (s.setTile t x).spadPz = s.spadPz := rfl
@[simp] theorem State.setTile_acmPz (t : Nat) (x : Tile) : (s.setTile t x).acmPz = s.acmPz := rfl
@[simp] theorem State.setTile_privPz (t : Nat) (x : Tile) : (s.setTile t x).privPz = s.privPz := rfl
@[simp] theorem State.setTile_poison (t : Nat) (x : Tile) : (s.setTile t x).poison = s.poison := rfl
@[simp] theorem State.setTile_scrambled (t : Nat) (x : Tile) : (s.setTile t x).scrambled
    = s.scrambled := rfl
@[simp] theorem State.setTile_retired (t : Nat) (x : Tile) : (s.setTile t x).retired = s.retired := rfl
@[simp] theorem State.setTile_retireMark (t : Nat) (x : Tile) : (s.setTile t x).retireMark
    = s.retireMark := rfl
@[simp] theorem State.setTile_caches (t : Nat) (x : Tile) : (s.setTile t x).caches = s.caches := rfl
@[simp] theorem State.setTile_channels (t : Nat) (x : Tile) : (s.setTile t x).channels = s.channels := rfl
@[simp] theorem State.setTile_ctxs (t : Nat) (x : Tile) : (s.setTile t x).ctxs = s.ctxs := rfl
@[simp] theorem State.setTile_queues (t : Nat) (x : Tile) : (s.setTile t x).queues = s.queues := rfl
@[simp] theorem State.setTile_fetchCtr (t : Nat) (x : Tile) : (s.setTile t x).fetchCtr = s.fetchCtr := rfl
@[simp] theorem State.setTile_delash (t : Nat) (x : Tile) : (s.setTile t x).delash = s.delash := rfl
@[simp] theorem State.setTile_plumb (t : Nat) (x : Tile) : (s.setTile t x).plumb = s.plumb := rfl
@[simp] theorem State.setTile_engines (t : Nat) (x : Tile) : (s.setTile t x).engines = s.engines := rfl
@[simp] theorem State.setTile_replay (t : Nat) (x : Tile) : (s.setTile t x).replay = s.replay := rfl
@[simp] theorem State.setTile_net (t : Nat) (x : Tile) : (s.setTile t x).net = s.net := rfl
@[simp] theorem State.setTile_fabric (t : Nat) (x : Tile) : (s.setTile t x).fabric = s.fabric := rfl
@[simp] theorem State.setTile_phys (t : Nat) (x : Tile) : (s.setTile t x).phys = s.phys := rfl
@[simp] theorem State.setTile_sectors (t : Nat) (x : Tile) : (s.setTile t x).sectors = s.sectors := rfl
@[simp] theorem State.setTile_xchk (t : Nat) (x : Tile) : (s.setTile t x).xchk = s.xchk := rfl
@[simp] theorem State.setTile_faults (t : Nat) (x : Tile) : (s.setTile t x).faults = s.faults := rfl
@[simp] theorem State.setTile_flash (t : Nat) (x : Tile) : (s.setTile t x).flash = s.flash := rfl
@[simp] theorem State.setTile_boot (t : Nat) (x : Tile) : (s.setTile t x).boot = s.boot := rfl
@[simp] theorem State.setTile_power (t : Nat) (x : Tile) : (s.setTile t x).power = s.power := rfl
@[simp] theorem State.setTile_core (t : Nat) (x : Tile) (c₁ : Nat) : (s.setTile t x).core c₁
    = s.core c₁ := rfl
@[simp] theorem State.setTile_ctx (t : Nat) (x : Tile) (k₁ : Nat) : (s.setTile t x).ctx k₁ = s.ctx k₁ := rfl
@[simp] theorem State.setTile_sector (t : Nat) (x : Tile) (n₁ : Nat) : (s.setTile t x).sector n₁
    = s.sector n₁ := rfl
@[simp] theorem State.setTile_queue (t : Nat) (x : Tile) (f₁ j₁ : Nat) : (s.setTile t x).queue f₁ j₁
    = s.queue f₁ j₁ := rfl
@[simp] theorem State.setTile_port (t : Nat) (x : Tile) (p₁ : Nat) : (s.setTile t x).port p₁
    = s.port p₁ := rfl
@[simp] theorem State.setTile_engine (t : Nat) (x : Tile) (e₁ : Nat) : (s.setTile t x).engine e₁
    = s.engine e₁ := rfl
@[simp] theorem State.setTile_mailbox (t : Nat) (x : Tile) (f₁ : Nat) : (s.setTile t x).mailbox f₁
    = s.mailbox f₁ := rfl
@[simp] theorem State.setTile_channel (t : Nat) (x : Tile) (n₁ : Nat) : (s.setTile t x).channel n₁
    = s.channel n₁ := rfl
@[simp] theorem State.setTile_phy (t : Nat) (x : Tile) (p₁ : Nat) : (s.setTile t x).phy p₁ = s.phy p₁ := rfl

/-! ### setCtx -/

@[simp] theorem State.setCtx_pending (k : Nat) (x : Ctx) : (s.setCtx k x).pending = s.pending := rfl
@[simp] theorem State.setCtx_freeCtr (k : Nat) (x : Ctx) : (s.setCtx k x).freeCtr = s.freeCtr := rfl
@[simp] theorem State.setCtx_out (k : Nat) (x : Ctx) : (s.setCtx k x).out = s.out := rfl
@[simp] theorem State.setCtx_deviceTime (k : Nat) (x : Ctx) : (s.setCtx k x).deviceTime
    = s.deviceTime := rfl
@[simp] theorem State.setCtx_slewAhead (k : Nat) (x : Ctx) : (s.setCtx k x).slewAhead = s.slewAhead := rfl
@[simp] theorem State.setCtx_slewBack (k : Nat) (x : Ctx) : (s.setCtx k x).slewBack = s.slewBack := rfl
@[simp] theorem State.setCtx_slewPhase (k : Nat) (x : Ctx) : (s.setCtx k x).slewPhase = s.slewPhase := rfl
@[simp] theorem State.setCtx_tileTime (k : Nat) (x : Ctx) : (s.setCtx k x).tileTime = s.tileTime := rfl
@[simp] theorem State.setCtx_tileTimeAt (k : Nat) (x : Ctx) : (s.setCtx k x).tileTimeAt
    = s.tileTimeAt := rfl
@[simp] theorem State.setCtx_lifecycle (k : Nat) (x : Ctx) : (s.setCtx k x).lifecycle = s.lifecycle := rfl
@[simp] theorem State.setCtx_tiles (k : Nat) (x : Ctx) : (s.setCtx k x).tiles = s.tiles := rfl
@[simp] theorem State.setCtx_cores (k : Nat) (x : Ctx) : (s.setCtx k x).cores = s.cores := rfl
@[simp] theorem State.setCtx_slots (k : Nat) (x : Ctx) : (s.setCtx k x).slots = s.slots := rfl
@[simp] theorem State.setCtx_mem (k : Nat) (x : Ctx) : (s.setCtx k x).mem = s.mem := rfl
@[simp] theorem State.setCtx_priv (k : Nat) (x : Ctx) : (s.setCtx k x).priv = s.priv := rfl
@[simp] theorem State.setCtx_tierPz (k : Nat) (x : Ctx) : (s.setCtx k x).tierPz = s.tierPz := rfl
@[simp] theorem State.setCtx_spadPz (k : Nat) (x : Ctx) : (s.setCtx k x).spadPz = s.spadPz := rfl
@[simp] theorem State.setCtx_acmPz (k : Nat) (x : Ctx) : (s.setCtx k x).acmPz = s.acmPz := rfl
@[simp] theorem State.setCtx_privPz (k : Nat) (x : Ctx) : (s.setCtx k x).privPz = s.privPz := rfl
@[simp] theorem State.setCtx_poison (k : Nat) (x : Ctx) : (s.setCtx k x).poison = s.poison := rfl
@[simp] theorem State.setCtx_scrambled (k : Nat) (x : Ctx) : (s.setCtx k x).scrambled = s.scrambled := rfl
@[simp] theorem State.setCtx_retired (k : Nat) (x : Ctx) : (s.setCtx k x).retired = s.retired := rfl
@[simp] theorem State.setCtx_retireMark (k : Nat) (x : Ctx) : (s.setCtx k x).retireMark
    = s.retireMark := rfl
@[simp] theorem State.setCtx_caches (k : Nat) (x : Ctx) : (s.setCtx k x).caches = s.caches := rfl
@[simp] theorem State.setCtx_channels (k : Nat) (x : Ctx) : (s.setCtx k x).channels = s.channels := rfl
@[simp] theorem State.setCtx_ctxs (k : Nat) (x : Ctx) : (s.setCtx k x).ctxs = Tab.set s.ctxs k x := rfl
@[simp] theorem State.setCtx_queues (k : Nat) (x : Ctx) : (s.setCtx k x).queues = s.queues := rfl
@[simp] theorem State.setCtx_fetchCtr (k : Nat) (x : Ctx) : (s.setCtx k x).fetchCtr = s.fetchCtr := rfl
@[simp] theorem State.setCtx_delash (k : Nat) (x : Ctx) : (s.setCtx k x).delash = s.delash := rfl
@[simp] theorem State.setCtx_plumb (k : Nat) (x : Ctx) : (s.setCtx k x).plumb = s.plumb := rfl
@[simp] theorem State.setCtx_engines (k : Nat) (x : Ctx) : (s.setCtx k x).engines = s.engines := rfl
@[simp] theorem State.setCtx_replay (k : Nat) (x : Ctx) : (s.setCtx k x).replay = s.replay := rfl
@[simp] theorem State.setCtx_net (k : Nat) (x : Ctx) : (s.setCtx k x).net = s.net := rfl
@[simp] theorem State.setCtx_fabric (k : Nat) (x : Ctx) : (s.setCtx k x).fabric = s.fabric := rfl
@[simp] theorem State.setCtx_phys (k : Nat) (x : Ctx) : (s.setCtx k x).phys = s.phys := rfl
@[simp] theorem State.setCtx_sectors (k : Nat) (x : Ctx) : (s.setCtx k x).sectors = s.sectors := rfl
@[simp] theorem State.setCtx_xchk (k : Nat) (x : Ctx) : (s.setCtx k x).xchk = s.xchk := rfl
@[simp] theorem State.setCtx_faults (k : Nat) (x : Ctx) : (s.setCtx k x).faults = s.faults := rfl
@[simp] theorem State.setCtx_flash (k : Nat) (x : Ctx) : (s.setCtx k x).flash = s.flash := rfl
@[simp] theorem State.setCtx_boot (k : Nat) (x : Ctx) : (s.setCtx k x).boot = s.boot := rfl
@[simp] theorem State.setCtx_power (k : Nat) (x : Ctx) : (s.setCtx k x).power = s.power := rfl
@[simp] theorem State.setCtx_core (k : Nat) (x : Ctx) (c₁ : Nat) : (s.setCtx k x).core c₁ = s.core c₁ := rfl
@[simp] theorem State.setCtx_tile (k : Nat) (x : Ctx) (t₁ : Nat) : (s.setCtx k x).tile t₁ = s.tile t₁ := rfl
@[simp] theorem State.setCtx_sector (k : Nat) (x : Ctx) (n₁ : Nat) : (s.setCtx k x).sector n₁
    = s.sector n₁ := rfl
@[simp] theorem State.setCtx_queue (k : Nat) (x : Ctx) (f₁ j₁ : Nat) : (s.setCtx k x).queue f₁ j₁
    = s.queue f₁ j₁ := rfl
@[simp] theorem State.setCtx_port (k : Nat) (x : Ctx) (p₁ : Nat) : (s.setCtx k x).port p₁ = s.port p₁ := rfl
@[simp] theorem State.setCtx_engine (k : Nat) (x : Ctx) (e₁ : Nat) : (s.setCtx k x).engine e₁
    = s.engine e₁ := rfl
@[simp] theorem State.setCtx_mailbox (k : Nat) (x : Ctx) (f₁ : Nat) : (s.setCtx k x).mailbox f₁
    = s.mailbox f₁ := rfl
@[simp] theorem State.setCtx_channel (k : Nat) (x : Ctx) (n₁ : Nat) : (s.setCtx k x).channel n₁
    = s.channel n₁ := rfl
@[simp] theorem State.setCtx_phy (k : Nat) (x : Ctx) (p₁ : Nat) : (s.setCtx k x).phy p₁ = s.phy p₁ := rfl

/-! ### setSector -/

@[simp] theorem State.setSector_pending (n : Nat) (x : Sector) : (s.setSector n x).pending
    = s.pending := rfl
@[simp] theorem State.setSector_freeCtr (n : Nat) (x : Sector) : (s.setSector n x).freeCtr
    = s.freeCtr := rfl
@[simp] theorem State.setSector_out (n : Nat) (x : Sector) : (s.setSector n x).out = s.out := rfl
@[simp] theorem State.setSector_deviceTime (n : Nat) (x : Sector) : (s.setSector n x).deviceTime
    = s.deviceTime := rfl
@[simp] theorem State.setSector_slewAhead (n : Nat) (x : Sector) : (s.setSector n x).slewAhead
    = s.slewAhead := rfl
@[simp] theorem State.setSector_slewBack (n : Nat) (x : Sector) : (s.setSector n x).slewBack
    = s.slewBack := rfl
@[simp] theorem State.setSector_slewPhase (n : Nat) (x : Sector) : (s.setSector n x).slewPhase
    = s.slewPhase := rfl
@[simp] theorem State.setSector_tileTime (n : Nat) (x : Sector) : (s.setSector n x).tileTime
    = s.tileTime := rfl
@[simp] theorem State.setSector_tileTimeAt (n : Nat) (x : Sector) : (s.setSector n x).tileTimeAt
    = s.tileTimeAt := rfl
@[simp] theorem State.setSector_lifecycle (n : Nat) (x : Sector) : (s.setSector n x).lifecycle
    = s.lifecycle := rfl
@[simp] theorem State.setSector_tiles (n : Nat) (x : Sector) : (s.setSector n x).tiles = s.tiles := rfl
@[simp] theorem State.setSector_cores (n : Nat) (x : Sector) : (s.setSector n x).cores = s.cores := rfl
@[simp] theorem State.setSector_slots (n : Nat) (x : Sector) : (s.setSector n x).slots = s.slots := rfl
@[simp] theorem State.setSector_mem (n : Nat) (x : Sector) : (s.setSector n x).mem = s.mem := rfl
@[simp] theorem State.setSector_priv (n : Nat) (x : Sector) : (s.setSector n x).priv = s.priv := rfl
@[simp] theorem State.setSector_tierPz (n : Nat) (x : Sector) : (s.setSector n x).tierPz = s.tierPz := rfl
@[simp] theorem State.setSector_spadPz (n : Nat) (x : Sector) : (s.setSector n x).spadPz = s.spadPz := rfl
@[simp] theorem State.setSector_acmPz (n : Nat) (x : Sector) : (s.setSector n x).acmPz = s.acmPz := rfl
@[simp] theorem State.setSector_privPz (n : Nat) (x : Sector) : (s.setSector n x).privPz = s.privPz := rfl
@[simp] theorem State.setSector_poison (n : Nat) (x : Sector) : (s.setSector n x).poison = s.poison := rfl
@[simp] theorem State.setSector_scrambled (n : Nat) (x : Sector) : (s.setSector n x).scrambled
    = s.scrambled := rfl
@[simp] theorem State.setSector_retired (n : Nat) (x : Sector) : (s.setSector n x).retired
    = s.retired := rfl
@[simp] theorem State.setSector_retireMark (n : Nat) (x : Sector) : (s.setSector n x).retireMark
    = s.retireMark := rfl
@[simp] theorem State.setSector_caches (n : Nat) (x : Sector) : (s.setSector n x).caches = s.caches := rfl
@[simp] theorem State.setSector_channels (n : Nat) (x : Sector) : (s.setSector n x).channels
    = s.channels := rfl
@[simp] theorem State.setSector_ctxs (n : Nat) (x : Sector) : (s.setSector n x).ctxs = s.ctxs := rfl
@[simp] theorem State.setSector_queues (n : Nat) (x : Sector) : (s.setSector n x).queues = s.queues := rfl
@[simp] theorem State.setSector_fetchCtr (n : Nat) (x : Sector) : (s.setSector n x).fetchCtr
    = s.fetchCtr := rfl
@[simp] theorem State.setSector_delash (n : Nat) (x : Sector) : (s.setSector n x).delash = s.delash := rfl
@[simp] theorem State.setSector_plumb (n : Nat) (x : Sector) : (s.setSector n x).plumb = s.plumb := rfl
@[simp] theorem State.setSector_engines (n : Nat) (x : Sector) : (s.setSector n x).engines
    = s.engines := rfl
@[simp] theorem State.setSector_replay (n : Nat) (x : Sector) : (s.setSector n x).replay = s.replay := rfl
@[simp] theorem State.setSector_net (n : Nat) (x : Sector) : (s.setSector n x).net = s.net := rfl
@[simp] theorem State.setSector_fabric (n : Nat) (x : Sector) : (s.setSector n x).fabric = s.fabric := rfl
@[simp] theorem State.setSector_phys (n : Nat) (x : Sector) : (s.setSector n x).phys = s.phys := rfl
@[simp] theorem State.setSector_sectors (n : Nat) (x : Sector) : (s.setSector n x).sectors
    = Tab.set s.sectors n x := rfl
@[simp] theorem State.setSector_xchk (n : Nat) (x : Sector) : (s.setSector n x).xchk = s.xchk := rfl
@[simp] theorem State.setSector_faults (n : Nat) (x : Sector) : (s.setSector n x).faults = s.faults := rfl
@[simp] theorem State.setSector_flash (n : Nat) (x : Sector) : (s.setSector n x).flash = s.flash := rfl
@[simp] theorem State.setSector_boot (n : Nat) (x : Sector) : (s.setSector n x).boot = s.boot := rfl
@[simp] theorem State.setSector_power (n : Nat) (x : Sector) : (s.setSector n x).power = s.power := rfl
@[simp] theorem State.setSector_core (n : Nat) (x : Sector) (c₁ : Nat) : (s.setSector n x).core c₁
    = s.core c₁ := rfl
@[simp] theorem State.setSector_tile (n : Nat) (x : Sector) (t₁ : Nat) : (s.setSector n x).tile t₁
    = s.tile t₁ := rfl
@[simp] theorem State.setSector_ctx (n : Nat) (x : Sector) (k₁ : Nat) : (s.setSector n x).ctx k₁
    = s.ctx k₁ := rfl
@[simp] theorem State.setSector_queue (n : Nat) (x : Sector) (f₁ j₁ : Nat) : (s.setSector n x).queue f₁ j₁
    = s.queue f₁ j₁ := rfl
@[simp] theorem State.setSector_port (n : Nat) (x : Sector) (p₁ : Nat) : (s.setSector n x).port p₁
    = s.port p₁ := rfl
@[simp] theorem State.setSector_engine (n : Nat) (x : Sector) (e₁ : Nat) : (s.setSector n x).engine e₁
    = s.engine e₁ := rfl
@[simp] theorem State.setSector_mailbox (n : Nat) (x : Sector) (f₁ : Nat) : (s.setSector n x).mailbox f₁
    = s.mailbox f₁ := rfl
@[simp] theorem State.setSector_channel (n : Nat) (x : Sector) (n₁ : Nat) : (s.setSector n x).channel n₁
    = s.channel n₁ := rfl
@[simp] theorem State.setSector_phy (n : Nat) (x : Sector) (p₁ : Nat) : (s.setSector n x).phy p₁
    = s.phy p₁ := rfl

/-! ### setQueue -/

@[simp] theorem State.setQueue_pending (f j : Nat) (x : HostQueue) : (s.setQueue f j x).pending
    = s.pending := rfl
@[simp] theorem State.setQueue_freeCtr (f j : Nat) (x : HostQueue) : (s.setQueue f j x).freeCtr
    = s.freeCtr := rfl
@[simp] theorem State.setQueue_out (f j : Nat) (x : HostQueue) : (s.setQueue f j x).out = s.out := rfl
@[simp] theorem State.setQueue_deviceTime (f j : Nat) (x : HostQueue) : (s.setQueue f j x).deviceTime
    = s.deviceTime := rfl
@[simp] theorem State.setQueue_slewAhead (f j : Nat) (x : HostQueue) : (s.setQueue f j x).slewAhead
    = s.slewAhead := rfl
@[simp] theorem State.setQueue_slewBack (f j : Nat) (x : HostQueue) : (s.setQueue f j x).slewBack
    = s.slewBack := rfl
@[simp] theorem State.setQueue_slewPhase (f j : Nat) (x : HostQueue) : (s.setQueue f j x).slewPhase
    = s.slewPhase := rfl
@[simp] theorem State.setQueue_tileTime (f j : Nat) (x : HostQueue) : (s.setQueue f j x).tileTime
    = s.tileTime := rfl
@[simp] theorem State.setQueue_tileTimeAt (f j : Nat) (x : HostQueue) : (s.setQueue f j x).tileTimeAt
    = s.tileTimeAt := rfl
@[simp] theorem State.setQueue_lifecycle (f j : Nat) (x : HostQueue) : (s.setQueue f j x).lifecycle
    = s.lifecycle := rfl
@[simp] theorem State.setQueue_tiles (f j : Nat) (x : HostQueue) : (s.setQueue f j x).tiles = s.tiles := rfl
@[simp] theorem State.setQueue_cores (f j : Nat) (x : HostQueue) : (s.setQueue f j x).cores = s.cores := rfl
@[simp] theorem State.setQueue_slots (f j : Nat) (x : HostQueue) : (s.setQueue f j x).slots = s.slots := rfl
@[simp] theorem State.setQueue_mem (f j : Nat) (x : HostQueue) : (s.setQueue f j x).mem = s.mem := rfl
@[simp] theorem State.setQueue_priv (f j : Nat) (x : HostQueue) : (s.setQueue f j x).priv = s.priv := rfl
@[simp] theorem State.setQueue_tierPz (f j : Nat) (x : HostQueue) : (s.setQueue f j x).tierPz
    = s.tierPz := rfl
@[simp] theorem State.setQueue_spadPz (f j : Nat) (x : HostQueue) : (s.setQueue f j x).spadPz
    = s.spadPz := rfl
@[simp] theorem State.setQueue_acmPz (f j : Nat) (x : HostQueue) : (s.setQueue f j x).acmPz = s.acmPz := rfl
@[simp] theorem State.setQueue_privPz (f j : Nat) (x : HostQueue) : (s.setQueue f j x).privPz
    = s.privPz := rfl
@[simp] theorem State.setQueue_poison (f j : Nat) (x : HostQueue) : (s.setQueue f j x).poison
    = s.poison := rfl
@[simp] theorem State.setQueue_scrambled (f j : Nat) (x : HostQueue) : (s.setQueue f j x).scrambled
    = s.scrambled := rfl
@[simp] theorem State.setQueue_retired (f j : Nat) (x : HostQueue) : (s.setQueue f j x).retired
    = s.retired := rfl
@[simp] theorem State.setQueue_retireMark (f j : Nat) (x : HostQueue) : (s.setQueue f j x).retireMark
    = s.retireMark := rfl
@[simp] theorem State.setQueue_caches (f j : Nat) (x : HostQueue) : (s.setQueue f j x).caches
    = s.caches := rfl
@[simp] theorem State.setQueue_channels (f j : Nat) (x : HostQueue) : (s.setQueue f j x).channels
    = s.channels := rfl
@[simp] theorem State.setQueue_ctxs (f j : Nat) (x : HostQueue) : (s.setQueue f j x).ctxs = s.ctxs := rfl
@[simp] theorem State.setQueue_queues (f j : Nat) (x : HostQueue) : (s.setQueue f j x).queues
    = Tab.set s.queues (f * 16 + j) x := rfl
@[simp] theorem State.setQueue_fetchCtr (f j : Nat) (x : HostQueue) : (s.setQueue f j x).fetchCtr
    = s.fetchCtr := rfl
@[simp] theorem State.setQueue_delash (f j : Nat) (x : HostQueue) : (s.setQueue f j x).delash
    = s.delash := rfl
@[simp] theorem State.setQueue_plumb (f j : Nat) (x : HostQueue) : (s.setQueue f j x).plumb = s.plumb := rfl
@[simp] theorem State.setQueue_engines (f j : Nat) (x : HostQueue) : (s.setQueue f j x).engines
    = s.engines := rfl
@[simp] theorem State.setQueue_replay (f j : Nat) (x : HostQueue) : (s.setQueue f j x).replay
    = s.replay := rfl
@[simp] theorem State.setQueue_net (f j : Nat) (x : HostQueue) : (s.setQueue f j x).net = s.net := rfl
@[simp] theorem State.setQueue_fabric (f j : Nat) (x : HostQueue) : (s.setQueue f j x).fabric
    = s.fabric := rfl
@[simp] theorem State.setQueue_phys (f j : Nat) (x : HostQueue) : (s.setQueue f j x).phys = s.phys := rfl
@[simp] theorem State.setQueue_sectors (f j : Nat) (x : HostQueue) : (s.setQueue f j x).sectors
    = s.sectors := rfl
@[simp] theorem State.setQueue_xchk (f j : Nat) (x : HostQueue) : (s.setQueue f j x).xchk = s.xchk := rfl
@[simp] theorem State.setQueue_faults (f j : Nat) (x : HostQueue) : (s.setQueue f j x).faults
    = s.faults := rfl
@[simp] theorem State.setQueue_flash (f j : Nat) (x : HostQueue) : (s.setQueue f j x).flash = s.flash := rfl
@[simp] theorem State.setQueue_boot (f j : Nat) (x : HostQueue) : (s.setQueue f j x).boot = s.boot := rfl
@[simp] theorem State.setQueue_power (f j : Nat) (x : HostQueue) : (s.setQueue f j x).power = s.power := rfl
@[simp] theorem State.setQueue_core (f j : Nat) (x : HostQueue) (c₁ : Nat) : (s.setQueue f j x).core c₁
    = s.core c₁ := rfl
@[simp] theorem State.setQueue_tile (f j : Nat) (x : HostQueue) (t₁ : Nat) : (s.setQueue f j x).tile t₁
    = s.tile t₁ := rfl
@[simp] theorem State.setQueue_ctx (f j : Nat) (x : HostQueue) (k₁ : Nat) : (s.setQueue f j x).ctx k₁
    = s.ctx k₁ := rfl
@[simp] theorem State.setQueue_sector (f j : Nat) (x : HostQueue) (n₁ : Nat) : (s.setQueue f j x).sector n₁
    = s.sector n₁ := rfl
@[simp] theorem State.setQueue_port (f j : Nat) (x : HostQueue) (p₁ : Nat) : (s.setQueue f j x).port p₁
    = s.port p₁ := rfl
@[simp] theorem State.setQueue_engine (f j : Nat) (x : HostQueue) (e₁ : Nat) : (s.setQueue f j x).engine e₁
    = s.engine e₁ := rfl
@[simp] theorem State.setQueue_mailbox (f j : Nat) (x : HostQueue) (f₁ : Nat) : (s.setQueue f j x).mailbox f₁
    = s.mailbox f₁ := rfl
@[simp] theorem State.setQueue_channel (f j : Nat) (x : HostQueue) (n₁ : Nat) : (s.setQueue f j x).channel n₁
    = s.channel n₁ := rfl
@[simp] theorem State.setQueue_phy (f j : Nat) (x : HostQueue) (p₁ : Nat) : (s.setQueue f j x).phy p₁
    = s.phy p₁ := rfl

/-! ### setPort -/

@[simp] theorem State.setPort_pending (p : Nat) (x : Port) : (s.setPort p x).pending = s.pending := rfl
@[simp] theorem State.setPort_freeCtr (p : Nat) (x : Port) : (s.setPort p x).freeCtr = s.freeCtr := rfl
@[simp] theorem State.setPort_out (p : Nat) (x : Port) : (s.setPort p x).out = s.out := rfl
@[simp] theorem State.setPort_deviceTime (p : Nat) (x : Port) : (s.setPort p x).deviceTime
    = s.deviceTime := rfl
@[simp] theorem State.setPort_slewAhead (p : Nat) (x : Port) : (s.setPort p x).slewAhead
    = s.slewAhead := rfl
@[simp] theorem State.setPort_slewBack (p : Nat) (x : Port) : (s.setPort p x).slewBack = s.slewBack := rfl
@[simp] theorem State.setPort_slewPhase (p : Nat) (x : Port) : (s.setPort p x).slewPhase
    = s.slewPhase := rfl
@[simp] theorem State.setPort_tileTime (p : Nat) (x : Port) : (s.setPort p x).tileTime = s.tileTime := rfl
@[simp] theorem State.setPort_tileTimeAt (p : Nat) (x : Port) : (s.setPort p x).tileTimeAt
    = s.tileTimeAt := rfl
@[simp] theorem State.setPort_lifecycle (p : Nat) (x : Port) : (s.setPort p x).lifecycle
    = s.lifecycle := rfl
@[simp] theorem State.setPort_tiles (p : Nat) (x : Port) : (s.setPort p x).tiles = s.tiles := rfl
@[simp] theorem State.setPort_cores (p : Nat) (x : Port) : (s.setPort p x).cores = s.cores := rfl
@[simp] theorem State.setPort_slots (p : Nat) (x : Port) : (s.setPort p x).slots = s.slots := rfl
@[simp] theorem State.setPort_mem (p : Nat) (x : Port) : (s.setPort p x).mem = s.mem := rfl
@[simp] theorem State.setPort_priv (p : Nat) (x : Port) : (s.setPort p x).priv = s.priv := rfl
@[simp] theorem State.setPort_tierPz (p : Nat) (x : Port) : (s.setPort p x).tierPz = s.tierPz := rfl
@[simp] theorem State.setPort_spadPz (p : Nat) (x : Port) : (s.setPort p x).spadPz = s.spadPz := rfl
@[simp] theorem State.setPort_acmPz (p : Nat) (x : Port) : (s.setPort p x).acmPz = s.acmPz := rfl
@[simp] theorem State.setPort_privPz (p : Nat) (x : Port) : (s.setPort p x).privPz = s.privPz := rfl
@[simp] theorem State.setPort_poison (p : Nat) (x : Port) : (s.setPort p x).poison = s.poison := rfl
@[simp] theorem State.setPort_scrambled (p : Nat) (x : Port) : (s.setPort p x).scrambled
    = s.scrambled := rfl
@[simp] theorem State.setPort_retired (p : Nat) (x : Port) : (s.setPort p x).retired = s.retired := rfl
@[simp] theorem State.setPort_retireMark (p : Nat) (x : Port) : (s.setPort p x).retireMark
    = s.retireMark := rfl
@[simp] theorem State.setPort_caches (p : Nat) (x : Port) : (s.setPort p x).caches = s.caches := rfl
@[simp] theorem State.setPort_channels (p : Nat) (x : Port) : (s.setPort p x).channels = s.channels := rfl
@[simp] theorem State.setPort_ctxs (p : Nat) (x : Port) : (s.setPort p x).ctxs = s.ctxs := rfl
@[simp] theorem State.setPort_queues (p : Nat) (x : Port) : (s.setPort p x).queues = s.queues := rfl
@[simp] theorem State.setPort_fetchCtr (p : Nat) (x : Port) : (s.setPort p x).fetchCtr = s.fetchCtr := rfl
@[simp] theorem State.setPort_delash (p : Nat) (x : Port) : (s.setPort p x).delash = s.delash := rfl
@[simp] theorem State.setPort_plumb (p : Nat) (x : Port) : (s.setPort p x).plumb = s.plumb := rfl
@[simp] theorem State.setPort_engines (p : Nat) (x : Port) : (s.setPort p x).engines = s.engines := rfl
@[simp] theorem State.setPort_replay (p : Nat) (x : Port) : (s.setPort p x).replay = s.replay := rfl
@[simp] theorem State.setPort_net (p : Nat) (x : Port) : (s.setPort p x).net = s.net := rfl
@[simp] theorem State.setPort_fabric (p : Nat) (x : Port) : (s.setPort p x).fabric
    = { s.fabric with ports := Tab.set s.fabric.ports p x } := rfl
@[simp] theorem State.setPort_phys (p : Nat) (x : Port) : (s.setPort p x).phys = s.phys := rfl
@[simp] theorem State.setPort_sectors (p : Nat) (x : Port) : (s.setPort p x).sectors = s.sectors := rfl
@[simp] theorem State.setPort_xchk (p : Nat) (x : Port) : (s.setPort p x).xchk = s.xchk := rfl
@[simp] theorem State.setPort_faults (p : Nat) (x : Port) : (s.setPort p x).faults = s.faults := rfl
@[simp] theorem State.setPort_flash (p : Nat) (x : Port) : (s.setPort p x).flash = s.flash := rfl
@[simp] theorem State.setPort_boot (p : Nat) (x : Port) : (s.setPort p x).boot = s.boot := rfl
@[simp] theorem State.setPort_power (p : Nat) (x : Port) : (s.setPort p x).power = s.power := rfl
@[simp] theorem State.setPort_core (p : Nat) (x : Port) (c₁ : Nat) : (s.setPort p x).core c₁
    = s.core c₁ := rfl
@[simp] theorem State.setPort_tile (p : Nat) (x : Port) (t₁ : Nat) : (s.setPort p x).tile t₁
    = s.tile t₁ := rfl
@[simp] theorem State.setPort_ctx (p : Nat) (x : Port) (k₁ : Nat) : (s.setPort p x).ctx k₁ = s.ctx k₁ := rfl
@[simp] theorem State.setPort_sector (p : Nat) (x : Port) (n₁ : Nat) : (s.setPort p x).sector n₁
    = s.sector n₁ := rfl
@[simp] theorem State.setPort_queue (p : Nat) (x : Port) (f₁ j₁ : Nat) : (s.setPort p x).queue f₁ j₁
    = s.queue f₁ j₁ := rfl
@[simp] theorem State.setPort_engine (p : Nat) (x : Port) (e₁ : Nat) : (s.setPort p x).engine e₁
    = s.engine e₁ := rfl
@[simp] theorem State.setPort_mailbox (p : Nat) (x : Port) (f₁ : Nat) : (s.setPort p x).mailbox f₁
    = s.mailbox f₁ := rfl
@[simp] theorem State.setPort_channel (p : Nat) (x : Port) (n₁ : Nat) : (s.setPort p x).channel n₁
    = s.channel n₁ := rfl
@[simp] theorem State.setPort_phy (p : Nat) (x : Port) (p₁ : Nat) : (s.setPort p x).phy p₁ = s.phy p₁ := rfl

/-! ### setEngine -/

@[simp] theorem State.setEngine_pending (e : Nat) (x : Engine) : (s.setEngine e x).pending
    = s.pending := rfl
@[simp] theorem State.setEngine_freeCtr (e : Nat) (x : Engine) : (s.setEngine e x).freeCtr
    = s.freeCtr := rfl
@[simp] theorem State.setEngine_out (e : Nat) (x : Engine) : (s.setEngine e x).out = s.out := rfl
@[simp] theorem State.setEngine_deviceTime (e : Nat) (x : Engine) : (s.setEngine e x).deviceTime
    = s.deviceTime := rfl
@[simp] theorem State.setEngine_slewAhead (e : Nat) (x : Engine) : (s.setEngine e x).slewAhead
    = s.slewAhead := rfl
@[simp] theorem State.setEngine_slewBack (e : Nat) (x : Engine) : (s.setEngine e x).slewBack
    = s.slewBack := rfl
@[simp] theorem State.setEngine_slewPhase (e : Nat) (x : Engine) : (s.setEngine e x).slewPhase
    = s.slewPhase := rfl
@[simp] theorem State.setEngine_tileTime (e : Nat) (x : Engine) : (s.setEngine e x).tileTime
    = s.tileTime := rfl
@[simp] theorem State.setEngine_tileTimeAt (e : Nat) (x : Engine) : (s.setEngine e x).tileTimeAt
    = s.tileTimeAt := rfl
@[simp] theorem State.setEngine_lifecycle (e : Nat) (x : Engine) : (s.setEngine e x).lifecycle
    = s.lifecycle := rfl
@[simp] theorem State.setEngine_tiles (e : Nat) (x : Engine) : (s.setEngine e x).tiles = s.tiles := rfl
@[simp] theorem State.setEngine_cores (e : Nat) (x : Engine) : (s.setEngine e x).cores = s.cores := rfl
@[simp] theorem State.setEngine_slots (e : Nat) (x : Engine) : (s.setEngine e x).slots = s.slots := rfl
@[simp] theorem State.setEngine_mem (e : Nat) (x : Engine) : (s.setEngine e x).mem = s.mem := rfl
@[simp] theorem State.setEngine_priv (e : Nat) (x : Engine) : (s.setEngine e x).priv = s.priv := rfl
@[simp] theorem State.setEngine_tierPz (e : Nat) (x : Engine) : (s.setEngine e x).tierPz = s.tierPz := rfl
@[simp] theorem State.setEngine_spadPz (e : Nat) (x : Engine) : (s.setEngine e x).spadPz = s.spadPz := rfl
@[simp] theorem State.setEngine_acmPz (e : Nat) (x : Engine) : (s.setEngine e x).acmPz = s.acmPz := rfl
@[simp] theorem State.setEngine_privPz (e : Nat) (x : Engine) : (s.setEngine e x).privPz = s.privPz := rfl
@[simp] theorem State.setEngine_poison (e : Nat) (x : Engine) : (s.setEngine e x).poison = s.poison := rfl
@[simp] theorem State.setEngine_scrambled (e : Nat) (x : Engine) : (s.setEngine e x).scrambled
    = s.scrambled := rfl
@[simp] theorem State.setEngine_retired (e : Nat) (x : Engine) : (s.setEngine e x).retired
    = s.retired := rfl
@[simp] theorem State.setEngine_retireMark (e : Nat) (x : Engine) : (s.setEngine e x).retireMark
    = s.retireMark := rfl
@[simp] theorem State.setEngine_caches (e : Nat) (x : Engine) : (s.setEngine e x).caches = s.caches := rfl
@[simp] theorem State.setEngine_channels (e : Nat) (x : Engine) : (s.setEngine e x).channels
    = s.channels := rfl
@[simp] theorem State.setEngine_ctxs (e : Nat) (x : Engine) : (s.setEngine e x).ctxs = s.ctxs := rfl
@[simp] theorem State.setEngine_queues (e : Nat) (x : Engine) : (s.setEngine e x).queues = s.queues := rfl
@[simp] theorem State.setEngine_fetchCtr (e : Nat) (x : Engine) : (s.setEngine e x).fetchCtr
    = s.fetchCtr := rfl
@[simp] theorem State.setEngine_delash (e : Nat) (x : Engine) : (s.setEngine e x).delash = s.delash := rfl
@[simp] theorem State.setEngine_plumb (e : Nat) (x : Engine) : (s.setEngine e x).plumb = s.plumb := rfl
@[simp] theorem State.setEngine_engines (e : Nat) (x : Engine) : (s.setEngine e x).engines
    = Tab.set s.engines e x := rfl
@[simp] theorem State.setEngine_replay (e : Nat) (x : Engine) : (s.setEngine e x).replay = s.replay := rfl
@[simp] theorem State.setEngine_net (e : Nat) (x : Engine) : (s.setEngine e x).net = s.net := rfl
@[simp] theorem State.setEngine_fabric (e : Nat) (x : Engine) : (s.setEngine e x).fabric = s.fabric := rfl
@[simp] theorem State.setEngine_phys (e : Nat) (x : Engine) : (s.setEngine e x).phys = s.phys := rfl
@[simp] theorem State.setEngine_sectors (e : Nat) (x : Engine) : (s.setEngine e x).sectors
    = s.sectors := rfl
@[simp] theorem State.setEngine_xchk (e : Nat) (x : Engine) : (s.setEngine e x).xchk = s.xchk := rfl
@[simp] theorem State.setEngine_faults (e : Nat) (x : Engine) : (s.setEngine e x).faults = s.faults := rfl
@[simp] theorem State.setEngine_flash (e : Nat) (x : Engine) : (s.setEngine e x).flash = s.flash := rfl
@[simp] theorem State.setEngine_boot (e : Nat) (x : Engine) : (s.setEngine e x).boot = s.boot := rfl
@[simp] theorem State.setEngine_power (e : Nat) (x : Engine) : (s.setEngine e x).power = s.power := rfl
@[simp] theorem State.setEngine_core (e : Nat) (x : Engine) (c₁ : Nat) : (s.setEngine e x).core c₁
    = s.core c₁ := rfl
@[simp] theorem State.setEngine_tile (e : Nat) (x : Engine) (t₁ : Nat) : (s.setEngine e x).tile t₁
    = s.tile t₁ := rfl
@[simp] theorem State.setEngine_ctx (e : Nat) (x : Engine) (k₁ : Nat) : (s.setEngine e x).ctx k₁
    = s.ctx k₁ := rfl
@[simp] theorem State.setEngine_sector (e : Nat) (x : Engine) (n₁ : Nat) : (s.setEngine e x).sector n₁
    = s.sector n₁ := rfl
@[simp] theorem State.setEngine_queue (e : Nat) (x : Engine) (f₁ j₁ : Nat) : (s.setEngine e x).queue f₁ j₁
    = s.queue f₁ j₁ := rfl
@[simp] theorem State.setEngine_port (e : Nat) (x : Engine) (p₁ : Nat) : (s.setEngine e x).port p₁
    = s.port p₁ := rfl
@[simp] theorem State.setEngine_mailbox (e : Nat) (x : Engine) (f₁ : Nat) : (s.setEngine e x).mailbox f₁
    = s.mailbox f₁ := rfl
@[simp] theorem State.setEngine_channel (e : Nat) (x : Engine) (n₁ : Nat) : (s.setEngine e x).channel n₁
    = s.channel n₁ := rfl
@[simp] theorem State.setEngine_phy (e : Nat) (x : Engine) (p₁ : Nat) : (s.setEngine e x).phy p₁
    = s.phy p₁ := rfl

/-! ### modMailbox -/

@[simp] theorem State.modMailbox_pending (f : Nat) (g : Mailbox → Mailbox) : (s.modMailbox f g).pending
    = s.pending := rfl
@[simp] theorem State.modMailbox_freeCtr (f : Nat) (g : Mailbox → Mailbox) : (s.modMailbox f g).freeCtr
    = s.freeCtr := rfl
@[simp] theorem State.modMailbox_out (f : Nat) (g : Mailbox → Mailbox) : (s.modMailbox f g).out
    = s.out := rfl
@[simp] theorem State.modMailbox_deviceTime (f : Nat) (g : Mailbox → Mailbox) : (s.modMailbox f g).deviceTime
    = s.deviceTime := rfl
@[simp] theorem State.modMailbox_slewAhead (f : Nat) (g : Mailbox → Mailbox) : (s.modMailbox f g).slewAhead
    = s.slewAhead := rfl
@[simp] theorem State.modMailbox_slewBack (f : Nat) (g : Mailbox → Mailbox) : (s.modMailbox f g).slewBack
    = s.slewBack := rfl
@[simp] theorem State.modMailbox_slewPhase (f : Nat) (g : Mailbox → Mailbox) : (s.modMailbox f g).slewPhase
    = s.slewPhase := rfl
@[simp] theorem State.modMailbox_tileTime (f : Nat) (g : Mailbox → Mailbox) : (s.modMailbox f g).tileTime
    = s.tileTime := rfl
@[simp] theorem State.modMailbox_tileTimeAt (f : Nat) (g : Mailbox → Mailbox) : (s.modMailbox f g).tileTimeAt
    = s.tileTimeAt := rfl
@[simp] theorem State.modMailbox_lifecycle (f : Nat) (g : Mailbox → Mailbox) : (s.modMailbox f g).lifecycle
    = s.lifecycle := rfl
@[simp] theorem State.modMailbox_tiles (f : Nat) (g : Mailbox → Mailbox) : (s.modMailbox f g).tiles
    = s.tiles := rfl
@[simp] theorem State.modMailbox_cores (f : Nat) (g : Mailbox → Mailbox) : (s.modMailbox f g).cores
    = s.cores := rfl
@[simp] theorem State.modMailbox_slots (f : Nat) (g : Mailbox → Mailbox) : (s.modMailbox f g).slots
    = s.slots := rfl
@[simp] theorem State.modMailbox_mem (f : Nat) (g : Mailbox → Mailbox) : (s.modMailbox f g).mem
    = s.mem := rfl
@[simp] theorem State.modMailbox_priv (f : Nat) (g : Mailbox → Mailbox) : (s.modMailbox f g).priv
    = s.priv := rfl
@[simp] theorem State.modMailbox_tierPz (f : Nat) (g : Mailbox → Mailbox) : (s.modMailbox f g).tierPz
    = s.tierPz := rfl
@[simp] theorem State.modMailbox_spadPz (f : Nat) (g : Mailbox → Mailbox) : (s.modMailbox f g).spadPz
    = s.spadPz := rfl
@[simp] theorem State.modMailbox_acmPz (f : Nat) (g : Mailbox → Mailbox) : (s.modMailbox f g).acmPz
    = s.acmPz := rfl
@[simp] theorem State.modMailbox_privPz (f : Nat) (g : Mailbox → Mailbox) : (s.modMailbox f g).privPz
    = s.privPz := rfl
@[simp] theorem State.modMailbox_poison (f : Nat) (g : Mailbox → Mailbox) : (s.modMailbox f g).poison
    = s.poison := rfl
@[simp] theorem State.modMailbox_scrambled (f : Nat) (g : Mailbox → Mailbox) : (s.modMailbox f g).scrambled
    = s.scrambled := rfl
@[simp] theorem State.modMailbox_retired (f : Nat) (g : Mailbox → Mailbox) : (s.modMailbox f g).retired
    = s.retired := rfl
@[simp] theorem State.modMailbox_retireMark (f : Nat) (g : Mailbox → Mailbox) : (s.modMailbox f g).retireMark
    = s.retireMark := rfl
@[simp] theorem State.modMailbox_caches (f : Nat) (g : Mailbox → Mailbox) : (s.modMailbox f g).caches
    = s.caches := rfl
@[simp] theorem State.modMailbox_channels (f : Nat) (g : Mailbox → Mailbox) : (s.modMailbox f g).channels
    = s.channels := rfl
@[simp] theorem State.modMailbox_ctxs (f : Nat) (g : Mailbox → Mailbox) : (s.modMailbox f g).ctxs
    = s.ctxs := rfl
@[simp] theorem State.modMailbox_queues (f : Nat) (g : Mailbox → Mailbox) : (s.modMailbox f g).queues
    = s.queues := rfl
@[simp] theorem State.modMailbox_fetchCtr (f : Nat) (g : Mailbox → Mailbox) : (s.modMailbox f g).fetchCtr
    = s.fetchCtr := rfl
@[simp] theorem State.modMailbox_delash (f : Nat) (g : Mailbox → Mailbox) : (s.modMailbox f g).delash
    = { s.delash with mbx := Tab.mod {} s.delash.mbx f g } := rfl
@[simp] theorem State.modMailbox_plumb (f : Nat) (g : Mailbox → Mailbox) : (s.modMailbox f g).plumb
    = s.plumb := rfl
@[simp] theorem State.modMailbox_engines (f : Nat) (g : Mailbox → Mailbox) : (s.modMailbox f g).engines
    = s.engines := rfl
@[simp] theorem State.modMailbox_replay (f : Nat) (g : Mailbox → Mailbox) : (s.modMailbox f g).replay
    = s.replay := rfl
@[simp] theorem State.modMailbox_net (f : Nat) (g : Mailbox → Mailbox) : (s.modMailbox f g).net
    = s.net := rfl
@[simp] theorem State.modMailbox_fabric (f : Nat) (g : Mailbox → Mailbox) : (s.modMailbox f g).fabric
    = s.fabric := rfl
@[simp] theorem State.modMailbox_phys (f : Nat) (g : Mailbox → Mailbox) : (s.modMailbox f g).phys
    = s.phys := rfl
@[simp] theorem State.modMailbox_sectors (f : Nat) (g : Mailbox → Mailbox) : (s.modMailbox f g).sectors
    = s.sectors := rfl
@[simp] theorem State.modMailbox_xchk (f : Nat) (g : Mailbox → Mailbox) : (s.modMailbox f g).xchk
    = s.xchk := rfl
@[simp] theorem State.modMailbox_faults (f : Nat) (g : Mailbox → Mailbox) : (s.modMailbox f g).faults
    = s.faults := rfl
@[simp] theorem State.modMailbox_flash (f : Nat) (g : Mailbox → Mailbox) : (s.modMailbox f g).flash
    = s.flash := rfl
@[simp] theorem State.modMailbox_boot (f : Nat) (g : Mailbox → Mailbox) : (s.modMailbox f g).boot
    = s.boot := rfl
@[simp] theorem State.modMailbox_power (f : Nat) (g : Mailbox → Mailbox) : (s.modMailbox f g).power
    = s.power := rfl
@[simp] theorem State.modMailbox_core (f : Nat) (g : Mailbox → Mailbox) (c₁ : Nat) : (s.modMailbox f g).core c₁
    = s.core c₁ := rfl
@[simp] theorem State.modMailbox_tile (f : Nat) (g : Mailbox → Mailbox) (t₁ : Nat) : (s.modMailbox f g).tile t₁
    = s.tile t₁ := rfl
@[simp] theorem State.modMailbox_ctx (f : Nat) (g : Mailbox → Mailbox) (k₁ : Nat) : (s.modMailbox f g).ctx k₁
    = s.ctx k₁ := rfl
@[simp] theorem State.modMailbox_sector (f : Nat) (g : Mailbox → Mailbox) (n₁ : Nat) : (s.modMailbox f g).sector n₁
    = s.sector n₁ := rfl
@[simp] theorem State.modMailbox_queue (f : Nat) (g : Mailbox → Mailbox) (f₁ j₁ : Nat) : (s.modMailbox f g).queue f₁ j₁
    = s.queue f₁ j₁ := rfl
@[simp] theorem State.modMailbox_port (f : Nat) (g : Mailbox → Mailbox) (p₁ : Nat) : (s.modMailbox f g).port p₁
    = s.port p₁ := rfl
@[simp] theorem State.modMailbox_engine (f : Nat) (g : Mailbox → Mailbox) (e₁ : Nat) : (s.modMailbox f g).engine e₁
    = s.engine e₁ := rfl
@[simp] theorem State.modMailbox_channel (f : Nat) (g : Mailbox → Mailbox) (n₁ : Nat) : (s.modMailbox f g).channel n₁
    = s.channel n₁ := rfl
@[simp] theorem State.modMailbox_phy (f : Nat) (g : Mailbox → Mailbox) (p₁ : Nat) : (s.modMailbox f g).phy p₁
    = s.phy p₁ := rfl

/-! ### modChannel -/

@[simp] theorem State.modChannel_pending (n : Nat) (f : MemChannel → MemChannel) : (s.modChannel n f).pending
    = s.pending := rfl
@[simp] theorem State.modChannel_freeCtr (n : Nat) (f : MemChannel → MemChannel) : (s.modChannel n f).freeCtr
    = s.freeCtr := rfl
@[simp] theorem State.modChannel_out (n : Nat) (f : MemChannel → MemChannel) : (s.modChannel n f).out
    = s.out := rfl
@[simp] theorem State.modChannel_deviceTime (n : Nat) (f : MemChannel → MemChannel) : (s.modChannel n f).deviceTime
    = s.deviceTime := rfl
@[simp] theorem State.modChannel_slewAhead (n : Nat) (f : MemChannel → MemChannel) : (s.modChannel n f).slewAhead
    = s.slewAhead := rfl
@[simp] theorem State.modChannel_slewBack (n : Nat) (f : MemChannel → MemChannel) : (s.modChannel n f).slewBack
    = s.slewBack := rfl
@[simp] theorem State.modChannel_slewPhase (n : Nat) (f : MemChannel → MemChannel) : (s.modChannel n f).slewPhase
    = s.slewPhase := rfl
@[simp] theorem State.modChannel_tileTime (n : Nat) (f : MemChannel → MemChannel) : (s.modChannel n f).tileTime
    = s.tileTime := rfl
@[simp] theorem State.modChannel_tileTimeAt (n : Nat) (f : MemChannel → MemChannel) : (s.modChannel n f).tileTimeAt
    = s.tileTimeAt := rfl
@[simp] theorem State.modChannel_lifecycle (n : Nat) (f : MemChannel → MemChannel) : (s.modChannel n f).lifecycle
    = s.lifecycle := rfl
@[simp] theorem State.modChannel_tiles (n : Nat) (f : MemChannel → MemChannel) : (s.modChannel n f).tiles
    = s.tiles := rfl
@[simp] theorem State.modChannel_cores (n : Nat) (f : MemChannel → MemChannel) : (s.modChannel n f).cores
    = s.cores := rfl
@[simp] theorem State.modChannel_slots (n : Nat) (f : MemChannel → MemChannel) : (s.modChannel n f).slots
    = s.slots := rfl
@[simp] theorem State.modChannel_mem (n : Nat) (f : MemChannel → MemChannel) : (s.modChannel n f).mem
    = s.mem := rfl
@[simp] theorem State.modChannel_priv (n : Nat) (f : MemChannel → MemChannel) : (s.modChannel n f).priv
    = s.priv := rfl
@[simp] theorem State.modChannel_tierPz (n : Nat) (f : MemChannel → MemChannel) : (s.modChannel n f).tierPz
    = s.tierPz := rfl
@[simp] theorem State.modChannel_spadPz (n : Nat) (f : MemChannel → MemChannel) : (s.modChannel n f).spadPz
    = s.spadPz := rfl
@[simp] theorem State.modChannel_acmPz (n : Nat) (f : MemChannel → MemChannel) : (s.modChannel n f).acmPz
    = s.acmPz := rfl
@[simp] theorem State.modChannel_privPz (n : Nat) (f : MemChannel → MemChannel) : (s.modChannel n f).privPz
    = s.privPz := rfl
@[simp] theorem State.modChannel_poison (n : Nat) (f : MemChannel → MemChannel) : (s.modChannel n f).poison
    = s.poison := rfl
@[simp] theorem State.modChannel_scrambled (n : Nat) (f : MemChannel → MemChannel) : (s.modChannel n f).scrambled
    = s.scrambled := rfl
@[simp] theorem State.modChannel_retired (n : Nat) (f : MemChannel → MemChannel) : (s.modChannel n f).retired
    = s.retired := rfl
@[simp] theorem State.modChannel_retireMark (n : Nat) (f : MemChannel → MemChannel) : (s.modChannel n f).retireMark
    = s.retireMark := rfl
@[simp] theorem State.modChannel_caches (n : Nat) (f : MemChannel → MemChannel) : (s.modChannel n f).caches
    = s.caches := rfl
@[simp] theorem State.modChannel_channels (n : Nat) (f : MemChannel → MemChannel) : (s.modChannel n f).channels
    = Tab.mod {} s.channels n f := rfl
@[simp] theorem State.modChannel_ctxs (n : Nat) (f : MemChannel → MemChannel) : (s.modChannel n f).ctxs
    = s.ctxs := rfl
@[simp] theorem State.modChannel_queues (n : Nat) (f : MemChannel → MemChannel) : (s.modChannel n f).queues
    = s.queues := rfl
@[simp] theorem State.modChannel_fetchCtr (n : Nat) (f : MemChannel → MemChannel) : (s.modChannel n f).fetchCtr
    = s.fetchCtr := rfl
@[simp] theorem State.modChannel_delash (n : Nat) (f : MemChannel → MemChannel) : (s.modChannel n f).delash
    = s.delash := rfl
@[simp] theorem State.modChannel_plumb (n : Nat) (f : MemChannel → MemChannel) : (s.modChannel n f).plumb
    = s.plumb := rfl
@[simp] theorem State.modChannel_engines (n : Nat) (f : MemChannel → MemChannel) : (s.modChannel n f).engines
    = s.engines := rfl
@[simp] theorem State.modChannel_replay (n : Nat) (f : MemChannel → MemChannel) : (s.modChannel n f).replay
    = s.replay := rfl
@[simp] theorem State.modChannel_net (n : Nat) (f : MemChannel → MemChannel) : (s.modChannel n f).net
    = s.net := rfl
@[simp] theorem State.modChannel_fabric (n : Nat) (f : MemChannel → MemChannel) : (s.modChannel n f).fabric
    = s.fabric := rfl
@[simp] theorem State.modChannel_phys (n : Nat) (f : MemChannel → MemChannel) : (s.modChannel n f).phys
    = s.phys := rfl
@[simp] theorem State.modChannel_sectors (n : Nat) (f : MemChannel → MemChannel) : (s.modChannel n f).sectors
    = s.sectors := rfl
@[simp] theorem State.modChannel_xchk (n : Nat) (f : MemChannel → MemChannel) : (s.modChannel n f).xchk
    = s.xchk := rfl
@[simp] theorem State.modChannel_faults (n : Nat) (f : MemChannel → MemChannel) : (s.modChannel n f).faults
    = s.faults := rfl
@[simp] theorem State.modChannel_flash (n : Nat) (f : MemChannel → MemChannel) : (s.modChannel n f).flash
    = s.flash := rfl
@[simp] theorem State.modChannel_boot (n : Nat) (f : MemChannel → MemChannel) : (s.modChannel n f).boot
    = s.boot := rfl
@[simp] theorem State.modChannel_power (n : Nat) (f : MemChannel → MemChannel) : (s.modChannel n f).power
    = s.power := rfl
@[simp] theorem State.modChannel_core (n : Nat) (f : MemChannel → MemChannel) (c₁ : Nat) : (s.modChannel n f).core c₁
    = s.core c₁ := rfl
@[simp] theorem State.modChannel_tile (n : Nat) (f : MemChannel → MemChannel) (t₁ : Nat) : (s.modChannel n f).tile t₁
    = s.tile t₁ := rfl
@[simp] theorem State.modChannel_ctx (n : Nat) (f : MemChannel → MemChannel) (k₁ : Nat) : (s.modChannel n f).ctx k₁
    = s.ctx k₁ := rfl
@[simp] theorem State.modChannel_sector (n : Nat) (f : MemChannel → MemChannel) (n₁ : Nat) : (s.modChannel n f).sector n₁
    = s.sector n₁ := rfl
@[simp] theorem State.modChannel_queue (n : Nat) (f : MemChannel → MemChannel) (f₁ j₁ : Nat) : (s.modChannel n f).queue f₁ j₁
    = s.queue f₁ j₁ := rfl
@[simp] theorem State.modChannel_port (n : Nat) (f : MemChannel → MemChannel) (p₁ : Nat) : (s.modChannel n f).port p₁
    = s.port p₁ := rfl
@[simp] theorem State.modChannel_engine (n : Nat) (f : MemChannel → MemChannel) (e₁ : Nat) : (s.modChannel n f).engine e₁
    = s.engine e₁ := rfl
@[simp] theorem State.modChannel_mailbox (n : Nat) (f : MemChannel → MemChannel) (f₁ : Nat) : (s.modChannel n f).mailbox f₁
    = s.mailbox f₁ := rfl
@[simp] theorem State.modChannel_phy (n : Nat) (f : MemChannel → MemChannel) (p₁ : Nat) : (s.modChannel n f).phy p₁
    = s.phy p₁ := rfl

/-! ### modPhy -/

@[simp] theorem State.modPhy_pending (p : Nat) (f : Phys → Phys) : (s.modPhy p f).pending = s.pending := rfl
@[simp] theorem State.modPhy_freeCtr (p : Nat) (f : Phys → Phys) : (s.modPhy p f).freeCtr = s.freeCtr := rfl
@[simp] theorem State.modPhy_out (p : Nat) (f : Phys → Phys) : (s.modPhy p f).out = s.out := rfl
@[simp] theorem State.modPhy_deviceTime (p : Nat) (f : Phys → Phys) : (s.modPhy p f).deviceTime
    = s.deviceTime := rfl
@[simp] theorem State.modPhy_slewAhead (p : Nat) (f : Phys → Phys) : (s.modPhy p f).slewAhead
    = s.slewAhead := rfl
@[simp] theorem State.modPhy_slewBack (p : Nat) (f : Phys → Phys) : (s.modPhy p f).slewBack
    = s.slewBack := rfl
@[simp] theorem State.modPhy_slewPhase (p : Nat) (f : Phys → Phys) : (s.modPhy p f).slewPhase
    = s.slewPhase := rfl
@[simp] theorem State.modPhy_tileTime (p : Nat) (f : Phys → Phys) : (s.modPhy p f).tileTime
    = s.tileTime := rfl
@[simp] theorem State.modPhy_tileTimeAt (p : Nat) (f : Phys → Phys) : (s.modPhy p f).tileTimeAt
    = s.tileTimeAt := rfl
@[simp] theorem State.modPhy_lifecycle (p : Nat) (f : Phys → Phys) : (s.modPhy p f).lifecycle
    = s.lifecycle := rfl
@[simp] theorem State.modPhy_tiles (p : Nat) (f : Phys → Phys) : (s.modPhy p f).tiles = s.tiles := rfl
@[simp] theorem State.modPhy_cores (p : Nat) (f : Phys → Phys) : (s.modPhy p f).cores = s.cores := rfl
@[simp] theorem State.modPhy_slots (p : Nat) (f : Phys → Phys) : (s.modPhy p f).slots = s.slots := rfl
@[simp] theorem State.modPhy_mem (p : Nat) (f : Phys → Phys) : (s.modPhy p f).mem = s.mem := rfl
@[simp] theorem State.modPhy_priv (p : Nat) (f : Phys → Phys) : (s.modPhy p f).priv = s.priv := rfl
@[simp] theorem State.modPhy_tierPz (p : Nat) (f : Phys → Phys) : (s.modPhy p f).tierPz = s.tierPz := rfl
@[simp] theorem State.modPhy_spadPz (p : Nat) (f : Phys → Phys) : (s.modPhy p f).spadPz = s.spadPz := rfl
@[simp] theorem State.modPhy_acmPz (p : Nat) (f : Phys → Phys) : (s.modPhy p f).acmPz = s.acmPz := rfl
@[simp] theorem State.modPhy_privPz (p : Nat) (f : Phys → Phys) : (s.modPhy p f).privPz = s.privPz := rfl
@[simp] theorem State.modPhy_poison (p : Nat) (f : Phys → Phys) : (s.modPhy p f).poison = s.poison := rfl
@[simp] theorem State.modPhy_scrambled (p : Nat) (f : Phys → Phys) : (s.modPhy p f).scrambled
    = s.scrambled := rfl
@[simp] theorem State.modPhy_retired (p : Nat) (f : Phys → Phys) : (s.modPhy p f).retired = s.retired := rfl
@[simp] theorem State.modPhy_retireMark (p : Nat) (f : Phys → Phys) : (s.modPhy p f).retireMark
    = s.retireMark := rfl
@[simp] theorem State.modPhy_caches (p : Nat) (f : Phys → Phys) : (s.modPhy p f).caches = s.caches := rfl
@[simp] theorem State.modPhy_channels (p : Nat) (f : Phys → Phys) : (s.modPhy p f).channels
    = s.channels := rfl
@[simp] theorem State.modPhy_ctxs (p : Nat) (f : Phys → Phys) : (s.modPhy p f).ctxs = s.ctxs := rfl
@[simp] theorem State.modPhy_queues (p : Nat) (f : Phys → Phys) : (s.modPhy p f).queues = s.queues := rfl
@[simp] theorem State.modPhy_fetchCtr (p : Nat) (f : Phys → Phys) : (s.modPhy p f).fetchCtr
    = s.fetchCtr := rfl
@[simp] theorem State.modPhy_delash (p : Nat) (f : Phys → Phys) : (s.modPhy p f).delash = s.delash := rfl
@[simp] theorem State.modPhy_plumb (p : Nat) (f : Phys → Phys) : (s.modPhy p f).plumb = s.plumb := rfl
@[simp] theorem State.modPhy_engines (p : Nat) (f : Phys → Phys) : (s.modPhy p f).engines = s.engines := rfl
@[simp] theorem State.modPhy_replay (p : Nat) (f : Phys → Phys) : (s.modPhy p f).replay = s.replay := rfl
@[simp] theorem State.modPhy_net (p : Nat) (f : Phys → Phys) : (s.modPhy p f).net = s.net := rfl
@[simp] theorem State.modPhy_fabric (p : Nat) (f : Phys → Phys) : (s.modPhy p f).fabric = s.fabric := rfl
@[simp] theorem State.modPhy_phys (p : Nat) (f : Phys → Phys) : (s.modPhy p f).phys
    = Tab.set s.phys p (some (f (s.phy p))) := rfl
@[simp] theorem State.modPhy_sectors (p : Nat) (f : Phys → Phys) : (s.modPhy p f).sectors = s.sectors := rfl
@[simp] theorem State.modPhy_xchk (p : Nat) (f : Phys → Phys) : (s.modPhy p f).xchk = s.xchk := rfl
@[simp] theorem State.modPhy_faults (p : Nat) (f : Phys → Phys) : (s.modPhy p f).faults = s.faults := rfl
@[simp] theorem State.modPhy_flash (p : Nat) (f : Phys → Phys) : (s.modPhy p f).flash = s.flash := rfl
@[simp] theorem State.modPhy_boot (p : Nat) (f : Phys → Phys) : (s.modPhy p f).boot = s.boot := rfl
@[simp] theorem State.modPhy_power (p : Nat) (f : Phys → Phys) : (s.modPhy p f).power = s.power := rfl
@[simp] theorem State.modPhy_core (p : Nat) (f : Phys → Phys) (c₁ : Nat) : (s.modPhy p f).core c₁
    = s.core c₁ := rfl
@[simp] theorem State.modPhy_tile (p : Nat) (f : Phys → Phys) (t₁ : Nat) : (s.modPhy p f).tile t₁
    = s.tile t₁ := rfl
@[simp] theorem State.modPhy_ctx (p : Nat) (f : Phys → Phys) (k₁ : Nat) : (s.modPhy p f).ctx k₁
    = s.ctx k₁ := rfl
@[simp] theorem State.modPhy_sector (p : Nat) (f : Phys → Phys) (n₁ : Nat) : (s.modPhy p f).sector n₁
    = s.sector n₁ := rfl
@[simp] theorem State.modPhy_queue (p : Nat) (f : Phys → Phys) (f₁ j₁ : Nat) : (s.modPhy p f).queue f₁ j₁
    = s.queue f₁ j₁ := rfl
@[simp] theorem State.modPhy_port (p : Nat) (f : Phys → Phys) (p₁ : Nat) : (s.modPhy p f).port p₁
    = s.port p₁ := rfl
@[simp] theorem State.modPhy_engine (p : Nat) (f : Phys → Phys) (e₁ : Nat) : (s.modPhy p f).engine e₁
    = s.engine e₁ := rfl
@[simp] theorem State.modPhy_mailbox (p : Nat) (f : Phys → Phys) (f₁ : Nat) : (s.modPhy p f).mailbox f₁
    = s.mailbox f₁ := rfl
@[simp] theorem State.modPhy_channel (p : Nat) (f : Phys → Phys) (n₁ : Nat) : (s.modPhy p f).channel n₁
    = s.channel n₁ := rfl

/-! ### modPlumb -/

@[simp] theorem State.modPlumb_pending (f : Plumb → Plumb) : (s.modPlumb f).pending = s.pending := rfl
@[simp] theorem State.modPlumb_freeCtr (f : Plumb → Plumb) : (s.modPlumb f).freeCtr = s.freeCtr := rfl
@[simp] theorem State.modPlumb_out (f : Plumb → Plumb) : (s.modPlumb f).out = s.out := rfl
@[simp] theorem State.modPlumb_deviceTime (f : Plumb → Plumb) : (s.modPlumb f).deviceTime
    = s.deviceTime := rfl
@[simp] theorem State.modPlumb_slewAhead (f : Plumb → Plumb) : (s.modPlumb f).slewAhead = s.slewAhead := rfl
@[simp] theorem State.modPlumb_slewBack (f : Plumb → Plumb) : (s.modPlumb f).slewBack = s.slewBack := rfl
@[simp] theorem State.modPlumb_slewPhase (f : Plumb → Plumb) : (s.modPlumb f).slewPhase = s.slewPhase := rfl
@[simp] theorem State.modPlumb_tileTime (f : Plumb → Plumb) : (s.modPlumb f).tileTime = s.tileTime := rfl
@[simp] theorem State.modPlumb_tileTimeAt (f : Plumb → Plumb) : (s.modPlumb f).tileTimeAt
    = s.tileTimeAt := rfl
@[simp] theorem State.modPlumb_lifecycle (f : Plumb → Plumb) : (s.modPlumb f).lifecycle = s.lifecycle := rfl
@[simp] theorem State.modPlumb_tiles (f : Plumb → Plumb) : (s.modPlumb f).tiles = s.tiles := rfl
@[simp] theorem State.modPlumb_cores (f : Plumb → Plumb) : (s.modPlumb f).cores = s.cores := rfl
@[simp] theorem State.modPlumb_slots (f : Plumb → Plumb) : (s.modPlumb f).slots = s.slots := rfl
@[simp] theorem State.modPlumb_mem (f : Plumb → Plumb) : (s.modPlumb f).mem = s.mem := rfl
@[simp] theorem State.modPlumb_priv (f : Plumb → Plumb) : (s.modPlumb f).priv = s.priv := rfl
@[simp] theorem State.modPlumb_tierPz (f : Plumb → Plumb) : (s.modPlumb f).tierPz = s.tierPz := rfl
@[simp] theorem State.modPlumb_spadPz (f : Plumb → Plumb) : (s.modPlumb f).spadPz = s.spadPz := rfl
@[simp] theorem State.modPlumb_acmPz (f : Plumb → Plumb) : (s.modPlumb f).acmPz = s.acmPz := rfl
@[simp] theorem State.modPlumb_privPz (f : Plumb → Plumb) : (s.modPlumb f).privPz = s.privPz := rfl
@[simp] theorem State.modPlumb_poison (f : Plumb → Plumb) : (s.modPlumb f).poison = s.poison := rfl
@[simp] theorem State.modPlumb_scrambled (f : Plumb → Plumb) : (s.modPlumb f).scrambled = s.scrambled := rfl
@[simp] theorem State.modPlumb_retired (f : Plumb → Plumb) : (s.modPlumb f).retired = s.retired := rfl
@[simp] theorem State.modPlumb_retireMark (f : Plumb → Plumb) : (s.modPlumb f).retireMark
    = s.retireMark := rfl
@[simp] theorem State.modPlumb_caches (f : Plumb → Plumb) : (s.modPlumb f).caches = s.caches := rfl
@[simp] theorem State.modPlumb_channels (f : Plumb → Plumb) : (s.modPlumb f).channels = s.channels := rfl
@[simp] theorem State.modPlumb_ctxs (f : Plumb → Plumb) : (s.modPlumb f).ctxs = s.ctxs := rfl
@[simp] theorem State.modPlumb_queues (f : Plumb → Plumb) : (s.modPlumb f).queues = s.queues := rfl
@[simp] theorem State.modPlumb_fetchCtr (f : Plumb → Plumb) : (s.modPlumb f).fetchCtr = s.fetchCtr := rfl
@[simp] theorem State.modPlumb_delash (f : Plumb → Plumb) : (s.modPlumb f).delash = s.delash := rfl
@[simp] theorem State.modPlumb_plumb (f : Plumb → Plumb) : (s.modPlumb f).plumb = f s.plumb := rfl
@[simp] theorem State.modPlumb_engines (f : Plumb → Plumb) : (s.modPlumb f).engines = s.engines := rfl
@[simp] theorem State.modPlumb_replay (f : Plumb → Plumb) : (s.modPlumb f).replay = s.replay := rfl
@[simp] theorem State.modPlumb_net (f : Plumb → Plumb) : (s.modPlumb f).net = s.net := rfl
@[simp] theorem State.modPlumb_fabric (f : Plumb → Plumb) : (s.modPlumb f).fabric = s.fabric := rfl
@[simp] theorem State.modPlumb_phys (f : Plumb → Plumb) : (s.modPlumb f).phys = s.phys := rfl
@[simp] theorem State.modPlumb_sectors (f : Plumb → Plumb) : (s.modPlumb f).sectors = s.sectors := rfl
@[simp] theorem State.modPlumb_xchk (f : Plumb → Plumb) : (s.modPlumb f).xchk = s.xchk := rfl
@[simp] theorem State.modPlumb_faults (f : Plumb → Plumb) : (s.modPlumb f).faults = s.faults := rfl
@[simp] theorem State.modPlumb_flash (f : Plumb → Plumb) : (s.modPlumb f).flash = s.flash := rfl
@[simp] theorem State.modPlumb_boot (f : Plumb → Plumb) : (s.modPlumb f).boot = s.boot := rfl
@[simp] theorem State.modPlumb_power (f : Plumb → Plumb) : (s.modPlumb f).power = s.power := rfl
@[simp] theorem State.modPlumb_core (f : Plumb → Plumb) (c₁ : Nat) : (s.modPlumb f).core c₁
    = s.core c₁ := rfl
@[simp] theorem State.modPlumb_tile (f : Plumb → Plumb) (t₁ : Nat) : (s.modPlumb f).tile t₁
    = s.tile t₁ := rfl
@[simp] theorem State.modPlumb_ctx (f : Plumb → Plumb) (k₁ : Nat) : (s.modPlumb f).ctx k₁ = s.ctx k₁ := rfl
@[simp] theorem State.modPlumb_sector (f : Plumb → Plumb) (n₁ : Nat) : (s.modPlumb f).sector n₁
    = s.sector n₁ := rfl
@[simp] theorem State.modPlumb_queue (f : Plumb → Plumb) (f₁ j₁ : Nat) : (s.modPlumb f).queue f₁ j₁
    = s.queue f₁ j₁ := rfl
@[simp] theorem State.modPlumb_port (f : Plumb → Plumb) (p₁ : Nat) : (s.modPlumb f).port p₁
    = s.port p₁ := rfl
@[simp] theorem State.modPlumb_engine (f : Plumb → Plumb) (e₁ : Nat) : (s.modPlumb f).engine e₁
    = s.engine e₁ := rfl
@[simp] theorem State.modPlumb_mailbox (f : Plumb → Plumb) (f₁ : Nat) : (s.modPlumb f).mailbox f₁
    = s.mailbox f₁ := rfl
@[simp] theorem State.modPlumb_channel (f : Plumb → Plumb) (n₁ : Nat) : (s.modPlumb f).channel n₁
    = s.channel n₁ := rfl
@[simp] theorem State.modPlumb_phy (f : Plumb → Plumb) (p₁ : Nat) : (s.modPlumb f).phy p₁ = s.phy p₁ := rfl

/-! ### modDelash -/

@[simp] theorem State.modDelash_pending (f : Delash → Delash) : (s.modDelash f).pending = s.pending := rfl
@[simp] theorem State.modDelash_freeCtr (f : Delash → Delash) : (s.modDelash f).freeCtr = s.freeCtr := rfl
@[simp] theorem State.modDelash_out (f : Delash → Delash) : (s.modDelash f).out = s.out := rfl
@[simp] theorem State.modDelash_deviceTime (f : Delash → Delash) : (s.modDelash f).deviceTime
    = s.deviceTime := rfl
@[simp] theorem State.modDelash_slewAhead (f : Delash → Delash) : (s.modDelash f).slewAhead
    = s.slewAhead := rfl
@[simp] theorem State.modDelash_slewBack (f : Delash → Delash) : (s.modDelash f).slewBack
    = s.slewBack := rfl
@[simp] theorem State.modDelash_slewPhase (f : Delash → Delash) : (s.modDelash f).slewPhase
    = s.slewPhase := rfl
@[simp] theorem State.modDelash_tileTime (f : Delash → Delash) : (s.modDelash f).tileTime
    = s.tileTime := rfl
@[simp] theorem State.modDelash_tileTimeAt (f : Delash → Delash) : (s.modDelash f).tileTimeAt
    = s.tileTimeAt := rfl
@[simp] theorem State.modDelash_lifecycle (f : Delash → Delash) : (s.modDelash f).lifecycle
    = s.lifecycle := rfl
@[simp] theorem State.modDelash_tiles (f : Delash → Delash) : (s.modDelash f).tiles = s.tiles := rfl
@[simp] theorem State.modDelash_cores (f : Delash → Delash) : (s.modDelash f).cores = s.cores := rfl
@[simp] theorem State.modDelash_slots (f : Delash → Delash) : (s.modDelash f).slots = s.slots := rfl
@[simp] theorem State.modDelash_mem (f : Delash → Delash) : (s.modDelash f).mem = s.mem := rfl
@[simp] theorem State.modDelash_priv (f : Delash → Delash) : (s.modDelash f).priv = s.priv := rfl
@[simp] theorem State.modDelash_tierPz (f : Delash → Delash) : (s.modDelash f).tierPz = s.tierPz := rfl
@[simp] theorem State.modDelash_spadPz (f : Delash → Delash) : (s.modDelash f).spadPz = s.spadPz := rfl
@[simp] theorem State.modDelash_acmPz (f : Delash → Delash) : (s.modDelash f).acmPz = s.acmPz := rfl
@[simp] theorem State.modDelash_privPz (f : Delash → Delash) : (s.modDelash f).privPz = s.privPz := rfl
@[simp] theorem State.modDelash_poison (f : Delash → Delash) : (s.modDelash f).poison = s.poison := rfl
@[simp] theorem State.modDelash_scrambled (f : Delash → Delash) : (s.modDelash f).scrambled
    = s.scrambled := rfl
@[simp] theorem State.modDelash_retired (f : Delash → Delash) : (s.modDelash f).retired = s.retired := rfl
@[simp] theorem State.modDelash_retireMark (f : Delash → Delash) : (s.modDelash f).retireMark
    = s.retireMark := rfl
@[simp] theorem State.modDelash_caches (f : Delash → Delash) : (s.modDelash f).caches = s.caches := rfl
@[simp] theorem State.modDelash_channels (f : Delash → Delash) : (s.modDelash f).channels
    = s.channels := rfl
@[simp] theorem State.modDelash_ctxs (f : Delash → Delash) : (s.modDelash f).ctxs = s.ctxs := rfl
@[simp] theorem State.modDelash_queues (f : Delash → Delash) : (s.modDelash f).queues = s.queues := rfl
@[simp] theorem State.modDelash_fetchCtr (f : Delash → Delash) : (s.modDelash f).fetchCtr
    = s.fetchCtr := rfl
@[simp] theorem State.modDelash_delash (f : Delash → Delash) : (s.modDelash f).delash = f s.delash := rfl
@[simp] theorem State.modDelash_plumb (f : Delash → Delash) : (s.modDelash f).plumb = s.plumb := rfl
@[simp] theorem State.modDelash_engines (f : Delash → Delash) : (s.modDelash f).engines = s.engines := rfl
@[simp] theorem State.modDelash_replay (f : Delash → Delash) : (s.modDelash f).replay = s.replay := rfl
@[simp] theorem State.modDelash_net (f : Delash → Delash) : (s.modDelash f).net = s.net := rfl
@[simp] theorem State.modDelash_fabric (f : Delash → Delash) : (s.modDelash f).fabric = s.fabric := rfl
@[simp] theorem State.modDelash_phys (f : Delash → Delash) : (s.modDelash f).phys = s.phys := rfl
@[simp] theorem State.modDelash_sectors (f : Delash → Delash) : (s.modDelash f).sectors = s.sectors := rfl
@[simp] theorem State.modDelash_xchk (f : Delash → Delash) : (s.modDelash f).xchk = s.xchk := rfl
@[simp] theorem State.modDelash_faults (f : Delash → Delash) : (s.modDelash f).faults = s.faults := rfl
@[simp] theorem State.modDelash_flash (f : Delash → Delash) : (s.modDelash f).flash = s.flash := rfl
@[simp] theorem State.modDelash_boot (f : Delash → Delash) : (s.modDelash f).boot = s.boot := rfl
@[simp] theorem State.modDelash_power (f : Delash → Delash) : (s.modDelash f).power = s.power := rfl
@[simp] theorem State.modDelash_core (f : Delash → Delash) (c₁ : Nat) : (s.modDelash f).core c₁
    = s.core c₁ := rfl
@[simp] theorem State.modDelash_tile (f : Delash → Delash) (t₁ : Nat) : (s.modDelash f).tile t₁
    = s.tile t₁ := rfl
@[simp] theorem State.modDelash_ctx (f : Delash → Delash) (k₁ : Nat) : (s.modDelash f).ctx k₁
    = s.ctx k₁ := rfl
@[simp] theorem State.modDelash_sector (f : Delash → Delash) (n₁ : Nat) : (s.modDelash f).sector n₁
    = s.sector n₁ := rfl
@[simp] theorem State.modDelash_queue (f : Delash → Delash) (f₁ j₁ : Nat) : (s.modDelash f).queue f₁ j₁
    = s.queue f₁ j₁ := rfl
@[simp] theorem State.modDelash_port (f : Delash → Delash) (p₁ : Nat) : (s.modDelash f).port p₁
    = s.port p₁ := rfl
@[simp] theorem State.modDelash_engine (f : Delash → Delash) (e₁ : Nat) : (s.modDelash f).engine e₁
    = s.engine e₁ := rfl
@[simp] theorem State.modDelash_channel (f : Delash → Delash) (n₁ : Nat) : (s.modDelash f).channel n₁
    = s.channel n₁ := rfl
@[simp] theorem State.modDelash_phy (f : Delash → Delash) (p₁ : Nat) : (s.modDelash f).phy p₁
    = s.phy p₁ := rfl

/-! ### modNet -/

@[simp] theorem State.modNet_pending (f : OnDie → OnDie) : (s.modNet f).pending = s.pending := rfl
@[simp] theorem State.modNet_freeCtr (f : OnDie → OnDie) : (s.modNet f).freeCtr = s.freeCtr := rfl
@[simp] theorem State.modNet_out (f : OnDie → OnDie) : (s.modNet f).out = s.out := rfl
@[simp] theorem State.modNet_deviceTime (f : OnDie → OnDie) : (s.modNet f).deviceTime = s.deviceTime := rfl
@[simp] theorem State.modNet_slewAhead (f : OnDie → OnDie) : (s.modNet f).slewAhead = s.slewAhead := rfl
@[simp] theorem State.modNet_slewBack (f : OnDie → OnDie) : (s.modNet f).slewBack = s.slewBack := rfl
@[simp] theorem State.modNet_slewPhase (f : OnDie → OnDie) : (s.modNet f).slewPhase = s.slewPhase := rfl
@[simp] theorem State.modNet_tileTime (f : OnDie → OnDie) : (s.modNet f).tileTime = s.tileTime := rfl
@[simp] theorem State.modNet_tileTimeAt (f : OnDie → OnDie) : (s.modNet f).tileTimeAt = s.tileTimeAt := rfl
@[simp] theorem State.modNet_lifecycle (f : OnDie → OnDie) : (s.modNet f).lifecycle = s.lifecycle := rfl
@[simp] theorem State.modNet_tiles (f : OnDie → OnDie) : (s.modNet f).tiles = s.tiles := rfl
@[simp] theorem State.modNet_cores (f : OnDie → OnDie) : (s.modNet f).cores = s.cores := rfl
@[simp] theorem State.modNet_slots (f : OnDie → OnDie) : (s.modNet f).slots = s.slots := rfl
@[simp] theorem State.modNet_mem (f : OnDie → OnDie) : (s.modNet f).mem = s.mem := rfl
@[simp] theorem State.modNet_priv (f : OnDie → OnDie) : (s.modNet f).priv = s.priv := rfl
@[simp] theorem State.modNet_tierPz (f : OnDie → OnDie) : (s.modNet f).tierPz = s.tierPz := rfl
@[simp] theorem State.modNet_spadPz (f : OnDie → OnDie) : (s.modNet f).spadPz = s.spadPz := rfl
@[simp] theorem State.modNet_acmPz (f : OnDie → OnDie) : (s.modNet f).acmPz = s.acmPz := rfl
@[simp] theorem State.modNet_privPz (f : OnDie → OnDie) : (s.modNet f).privPz = s.privPz := rfl
@[simp] theorem State.modNet_poison (f : OnDie → OnDie) : (s.modNet f).poison = s.poison := rfl
@[simp] theorem State.modNet_scrambled (f : OnDie → OnDie) : (s.modNet f).scrambled = s.scrambled := rfl
@[simp] theorem State.modNet_retired (f : OnDie → OnDie) : (s.modNet f).retired = s.retired := rfl
@[simp] theorem State.modNet_retireMark (f : OnDie → OnDie) : (s.modNet f).retireMark = s.retireMark := rfl
@[simp] theorem State.modNet_caches (f : OnDie → OnDie) : (s.modNet f).caches = s.caches := rfl
@[simp] theorem State.modNet_channels (f : OnDie → OnDie) : (s.modNet f).channels = s.channels := rfl
@[simp] theorem State.modNet_ctxs (f : OnDie → OnDie) : (s.modNet f).ctxs = s.ctxs := rfl
@[simp] theorem State.modNet_queues (f : OnDie → OnDie) : (s.modNet f).queues = s.queues := rfl
@[simp] theorem State.modNet_fetchCtr (f : OnDie → OnDie) : (s.modNet f).fetchCtr = s.fetchCtr := rfl
@[simp] theorem State.modNet_delash (f : OnDie → OnDie) : (s.modNet f).delash = s.delash := rfl
@[simp] theorem State.modNet_plumb (f : OnDie → OnDie) : (s.modNet f).plumb = s.plumb := rfl
@[simp] theorem State.modNet_engines (f : OnDie → OnDie) : (s.modNet f).engines = s.engines := rfl
@[simp] theorem State.modNet_replay (f : OnDie → OnDie) : (s.modNet f).replay = s.replay := rfl
@[simp] theorem State.modNet_net (f : OnDie → OnDie) : (s.modNet f).net = f s.net := rfl
@[simp] theorem State.modNet_fabric (f : OnDie → OnDie) : (s.modNet f).fabric = s.fabric := rfl
@[simp] theorem State.modNet_phys (f : OnDie → OnDie) : (s.modNet f).phys = s.phys := rfl
@[simp] theorem State.modNet_sectors (f : OnDie → OnDie) : (s.modNet f).sectors = s.sectors := rfl
@[simp] theorem State.modNet_xchk (f : OnDie → OnDie) : (s.modNet f).xchk = s.xchk := rfl
@[simp] theorem State.modNet_faults (f : OnDie → OnDie) : (s.modNet f).faults = s.faults := rfl
@[simp] theorem State.modNet_flash (f : OnDie → OnDie) : (s.modNet f).flash = s.flash := rfl
@[simp] theorem State.modNet_boot (f : OnDie → OnDie) : (s.modNet f).boot = s.boot := rfl
@[simp] theorem State.modNet_power (f : OnDie → OnDie) : (s.modNet f).power = s.power := rfl
@[simp] theorem State.modNet_core (f : OnDie → OnDie) (c₁ : Nat) : (s.modNet f).core c₁ = s.core c₁ := rfl
@[simp] theorem State.modNet_tile (f : OnDie → OnDie) (t₁ : Nat) : (s.modNet f).tile t₁ = s.tile t₁ := rfl
@[simp] theorem State.modNet_ctx (f : OnDie → OnDie) (k₁ : Nat) : (s.modNet f).ctx k₁ = s.ctx k₁ := rfl
@[simp] theorem State.modNet_sector (f : OnDie → OnDie) (n₁ : Nat) : (s.modNet f).sector n₁
    = s.sector n₁ := rfl
@[simp] theorem State.modNet_queue (f : OnDie → OnDie) (f₁ j₁ : Nat) : (s.modNet f).queue f₁ j₁
    = s.queue f₁ j₁ := rfl
@[simp] theorem State.modNet_port (f : OnDie → OnDie) (p₁ : Nat) : (s.modNet f).port p₁ = s.port p₁ := rfl
@[simp] theorem State.modNet_engine (f : OnDie → OnDie) (e₁ : Nat) : (s.modNet f).engine e₁
    = s.engine e₁ := rfl
@[simp] theorem State.modNet_mailbox (f : OnDie → OnDie) (f₁ : Nat) : (s.modNet f).mailbox f₁
    = s.mailbox f₁ := rfl
@[simp] theorem State.modNet_channel (f : OnDie → OnDie) (n₁ : Nat) : (s.modNet f).channel n₁
    = s.channel n₁ := rfl
@[simp] theorem State.modNet_phy (f : OnDie → OnDie) (p₁ : Nat) : (s.modNet f).phy p₁ = s.phy p₁ := rfl

/-! ### modFabric -/

@[simp] theorem State.modFabric_pending (f : Fabric → Fabric) : (s.modFabric f).pending = s.pending := rfl
@[simp] theorem State.modFabric_freeCtr (f : Fabric → Fabric) : (s.modFabric f).freeCtr = s.freeCtr := rfl
@[simp] theorem State.modFabric_out (f : Fabric → Fabric) : (s.modFabric f).out = s.out := rfl
@[simp] theorem State.modFabric_deviceTime (f : Fabric → Fabric) : (s.modFabric f).deviceTime
    = s.deviceTime := rfl
@[simp] theorem State.modFabric_slewAhead (f : Fabric → Fabric) : (s.modFabric f).slewAhead
    = s.slewAhead := rfl
@[simp] theorem State.modFabric_slewBack (f : Fabric → Fabric) : (s.modFabric f).slewBack
    = s.slewBack := rfl
@[simp] theorem State.modFabric_slewPhase (f : Fabric → Fabric) : (s.modFabric f).slewPhase
    = s.slewPhase := rfl
@[simp] theorem State.modFabric_tileTime (f : Fabric → Fabric) : (s.modFabric f).tileTime
    = s.tileTime := rfl
@[simp] theorem State.modFabric_tileTimeAt (f : Fabric → Fabric) : (s.modFabric f).tileTimeAt
    = s.tileTimeAt := rfl
@[simp] theorem State.modFabric_lifecycle (f : Fabric → Fabric) : (s.modFabric f).lifecycle
    = s.lifecycle := rfl
@[simp] theorem State.modFabric_tiles (f : Fabric → Fabric) : (s.modFabric f).tiles = s.tiles := rfl
@[simp] theorem State.modFabric_cores (f : Fabric → Fabric) : (s.modFabric f).cores = s.cores := rfl
@[simp] theorem State.modFabric_slots (f : Fabric → Fabric) : (s.modFabric f).slots = s.slots := rfl
@[simp] theorem State.modFabric_mem (f : Fabric → Fabric) : (s.modFabric f).mem = s.mem := rfl
@[simp] theorem State.modFabric_priv (f : Fabric → Fabric) : (s.modFabric f).priv = s.priv := rfl
@[simp] theorem State.modFabric_tierPz (f : Fabric → Fabric) : (s.modFabric f).tierPz = s.tierPz := rfl
@[simp] theorem State.modFabric_spadPz (f : Fabric → Fabric) : (s.modFabric f).spadPz = s.spadPz := rfl
@[simp] theorem State.modFabric_acmPz (f : Fabric → Fabric) : (s.modFabric f).acmPz = s.acmPz := rfl
@[simp] theorem State.modFabric_privPz (f : Fabric → Fabric) : (s.modFabric f).privPz = s.privPz := rfl
@[simp] theorem State.modFabric_poison (f : Fabric → Fabric) : (s.modFabric f).poison = s.poison := rfl
@[simp] theorem State.modFabric_scrambled (f : Fabric → Fabric) : (s.modFabric f).scrambled
    = s.scrambled := rfl
@[simp] theorem State.modFabric_retired (f : Fabric → Fabric) : (s.modFabric f).retired = s.retired := rfl
@[simp] theorem State.modFabric_retireMark (f : Fabric → Fabric) : (s.modFabric f).retireMark
    = s.retireMark := rfl
@[simp] theorem State.modFabric_caches (f : Fabric → Fabric) : (s.modFabric f).caches = s.caches := rfl
@[simp] theorem State.modFabric_channels (f : Fabric → Fabric) : (s.modFabric f).channels
    = s.channels := rfl
@[simp] theorem State.modFabric_ctxs (f : Fabric → Fabric) : (s.modFabric f).ctxs = s.ctxs := rfl
@[simp] theorem State.modFabric_queues (f : Fabric → Fabric) : (s.modFabric f).queues = s.queues := rfl
@[simp] theorem State.modFabric_fetchCtr (f : Fabric → Fabric) : (s.modFabric f).fetchCtr
    = s.fetchCtr := rfl
@[simp] theorem State.modFabric_delash (f : Fabric → Fabric) : (s.modFabric f).delash = s.delash := rfl
@[simp] theorem State.modFabric_plumb (f : Fabric → Fabric) : (s.modFabric f).plumb = s.plumb := rfl
@[simp] theorem State.modFabric_engines (f : Fabric → Fabric) : (s.modFabric f).engines = s.engines := rfl
@[simp] theorem State.modFabric_replay (f : Fabric → Fabric) : (s.modFabric f).replay = s.replay := rfl
@[simp] theorem State.modFabric_net (f : Fabric → Fabric) : (s.modFabric f).net = s.net := rfl
@[simp] theorem State.modFabric_fabric (f : Fabric → Fabric) : (s.modFabric f).fabric = f s.fabric := rfl
@[simp] theorem State.modFabric_phys (f : Fabric → Fabric) : (s.modFabric f).phys = s.phys := rfl
@[simp] theorem State.modFabric_sectors (f : Fabric → Fabric) : (s.modFabric f).sectors = s.sectors := rfl
@[simp] theorem State.modFabric_xchk (f : Fabric → Fabric) : (s.modFabric f).xchk = s.xchk := rfl
@[simp] theorem State.modFabric_faults (f : Fabric → Fabric) : (s.modFabric f).faults = s.faults := rfl
@[simp] theorem State.modFabric_flash (f : Fabric → Fabric) : (s.modFabric f).flash = s.flash := rfl
@[simp] theorem State.modFabric_boot (f : Fabric → Fabric) : (s.modFabric f).boot = s.boot := rfl
@[simp] theorem State.modFabric_power (f : Fabric → Fabric) : (s.modFabric f).power = s.power := rfl
@[simp] theorem State.modFabric_core (f : Fabric → Fabric) (c₁ : Nat) : (s.modFabric f).core c₁
    = s.core c₁ := rfl
@[simp] theorem State.modFabric_tile (f : Fabric → Fabric) (t₁ : Nat) : (s.modFabric f).tile t₁
    = s.tile t₁ := rfl
@[simp] theorem State.modFabric_ctx (f : Fabric → Fabric) (k₁ : Nat) : (s.modFabric f).ctx k₁
    = s.ctx k₁ := rfl
@[simp] theorem State.modFabric_sector (f : Fabric → Fabric) (n₁ : Nat) : (s.modFabric f).sector n₁
    = s.sector n₁ := rfl
@[simp] theorem State.modFabric_queue (f : Fabric → Fabric) (f₁ j₁ : Nat) : (s.modFabric f).queue f₁ j₁
    = s.queue f₁ j₁ := rfl
@[simp] theorem State.modFabric_engine (f : Fabric → Fabric) (e₁ : Nat) : (s.modFabric f).engine e₁
    = s.engine e₁ := rfl
@[simp] theorem State.modFabric_mailbox (f : Fabric → Fabric) (f₁ : Nat) : (s.modFabric f).mailbox f₁
    = s.mailbox f₁ := rfl
@[simp] theorem State.modFabric_channel (f : Fabric → Fabric) (n₁ : Nat) : (s.modFabric f).channel n₁
    = s.channel n₁ := rfl
@[simp] theorem State.modFabric_phy (f : Fabric → Fabric) (p₁ : Nat) : (s.modFabric f).phy p₁
    = s.phy p₁ := rfl

/-! ### modFaults -/

@[simp] theorem State.modFaults_pending (f : Faults → Faults) : (s.modFaults f).pending = s.pending := rfl
@[simp] theorem State.modFaults_freeCtr (f : Faults → Faults) : (s.modFaults f).freeCtr = s.freeCtr := rfl
@[simp] theorem State.modFaults_out (f : Faults → Faults) : (s.modFaults f).out = s.out := rfl
@[simp] theorem State.modFaults_deviceTime (f : Faults → Faults) : (s.modFaults f).deviceTime
    = s.deviceTime := rfl
@[simp] theorem State.modFaults_slewAhead (f : Faults → Faults) : (s.modFaults f).slewAhead
    = s.slewAhead := rfl
@[simp] theorem State.modFaults_slewBack (f : Faults → Faults) : (s.modFaults f).slewBack
    = s.slewBack := rfl
@[simp] theorem State.modFaults_slewPhase (f : Faults → Faults) : (s.modFaults f).slewPhase
    = s.slewPhase := rfl
@[simp] theorem State.modFaults_tileTime (f : Faults → Faults) : (s.modFaults f).tileTime
    = s.tileTime := rfl
@[simp] theorem State.modFaults_tileTimeAt (f : Faults → Faults) : (s.modFaults f).tileTimeAt
    = s.tileTimeAt := rfl
@[simp] theorem State.modFaults_lifecycle (f : Faults → Faults) : (s.modFaults f).lifecycle
    = s.lifecycle := rfl
@[simp] theorem State.modFaults_tiles (f : Faults → Faults) : (s.modFaults f).tiles = s.tiles := rfl
@[simp] theorem State.modFaults_cores (f : Faults → Faults) : (s.modFaults f).cores = s.cores := rfl
@[simp] theorem State.modFaults_slots (f : Faults → Faults) : (s.modFaults f).slots = s.slots := rfl
@[simp] theorem State.modFaults_mem (f : Faults → Faults) : (s.modFaults f).mem = s.mem := rfl
@[simp] theorem State.modFaults_priv (f : Faults → Faults) : (s.modFaults f).priv = s.priv := rfl
@[simp] theorem State.modFaults_tierPz (f : Faults → Faults) : (s.modFaults f).tierPz = s.tierPz := rfl
@[simp] theorem State.modFaults_spadPz (f : Faults → Faults) : (s.modFaults f).spadPz = s.spadPz := rfl
@[simp] theorem State.modFaults_acmPz (f : Faults → Faults) : (s.modFaults f).acmPz = s.acmPz := rfl
@[simp] theorem State.modFaults_privPz (f : Faults → Faults) : (s.modFaults f).privPz = s.privPz := rfl
@[simp] theorem State.modFaults_poison (f : Faults → Faults) : (s.modFaults f).poison = s.poison := rfl
@[simp] theorem State.modFaults_scrambled (f : Faults → Faults) : (s.modFaults f).scrambled
    = s.scrambled := rfl
@[simp] theorem State.modFaults_retired (f : Faults → Faults) : (s.modFaults f).retired = s.retired := rfl
@[simp] theorem State.modFaults_retireMark (f : Faults → Faults) : (s.modFaults f).retireMark
    = s.retireMark := rfl
@[simp] theorem State.modFaults_caches (f : Faults → Faults) : (s.modFaults f).caches = s.caches := rfl
@[simp] theorem State.modFaults_channels (f : Faults → Faults) : (s.modFaults f).channels
    = s.channels := rfl
@[simp] theorem State.modFaults_ctxs (f : Faults → Faults) : (s.modFaults f).ctxs = s.ctxs := rfl
@[simp] theorem State.modFaults_queues (f : Faults → Faults) : (s.modFaults f).queues = s.queues := rfl
@[simp] theorem State.modFaults_fetchCtr (f : Faults → Faults) : (s.modFaults f).fetchCtr
    = s.fetchCtr := rfl
@[simp] theorem State.modFaults_delash (f : Faults → Faults) : (s.modFaults f).delash = s.delash := rfl
@[simp] theorem State.modFaults_plumb (f : Faults → Faults) : (s.modFaults f).plumb = s.plumb := rfl
@[simp] theorem State.modFaults_engines (f : Faults → Faults) : (s.modFaults f).engines = s.engines := rfl
@[simp] theorem State.modFaults_replay (f : Faults → Faults) : (s.modFaults f).replay = s.replay := rfl
@[simp] theorem State.modFaults_net (f : Faults → Faults) : (s.modFaults f).net = s.net := rfl
@[simp] theorem State.modFaults_fabric (f : Faults → Faults) : (s.modFaults f).fabric = s.fabric := rfl
@[simp] theorem State.modFaults_phys (f : Faults → Faults) : (s.modFaults f).phys = s.phys := rfl
@[simp] theorem State.modFaults_sectors (f : Faults → Faults) : (s.modFaults f).sectors = s.sectors := rfl
@[simp] theorem State.modFaults_xchk (f : Faults → Faults) : (s.modFaults f).xchk = s.xchk := rfl
@[simp] theorem State.modFaults_faults (f : Faults → Faults) : (s.modFaults f).faults = f s.faults := rfl
@[simp] theorem State.modFaults_flash (f : Faults → Faults) : (s.modFaults f).flash = s.flash := rfl
@[simp] theorem State.modFaults_boot (f : Faults → Faults) : (s.modFaults f).boot = s.boot := rfl
@[simp] theorem State.modFaults_power (f : Faults → Faults) : (s.modFaults f).power = s.power := rfl
@[simp] theorem State.modFaults_core (f : Faults → Faults) (c₁ : Nat) : (s.modFaults f).core c₁
    = s.core c₁ := rfl
@[simp] theorem State.modFaults_tile (f : Faults → Faults) (t₁ : Nat) : (s.modFaults f).tile t₁
    = s.tile t₁ := rfl
@[simp] theorem State.modFaults_ctx (f : Faults → Faults) (k₁ : Nat) : (s.modFaults f).ctx k₁
    = s.ctx k₁ := rfl
@[simp] theorem State.modFaults_sector (f : Faults → Faults) (n₁ : Nat) : (s.modFaults f).sector n₁
    = s.sector n₁ := rfl
@[simp] theorem State.modFaults_queue (f : Faults → Faults) (f₁ j₁ : Nat) : (s.modFaults f).queue f₁ j₁
    = s.queue f₁ j₁ := rfl
@[simp] theorem State.modFaults_port (f : Faults → Faults) (p₁ : Nat) : (s.modFaults f).port p₁
    = s.port p₁ := rfl
@[simp] theorem State.modFaults_engine (f : Faults → Faults) (e₁ : Nat) : (s.modFaults f).engine e₁
    = s.engine e₁ := rfl
@[simp] theorem State.modFaults_mailbox (f : Faults → Faults) (f₁ : Nat) : (s.modFaults f).mailbox f₁
    = s.mailbox f₁ := rfl
@[simp] theorem State.modFaults_channel (f : Faults → Faults) (n₁ : Nat) : (s.modFaults f).channel n₁
    = s.channel n₁ := rfl
@[simp] theorem State.modFaults_phy (f : Faults → Faults) (p₁ : Nat) : (s.modFaults f).phy p₁
    = s.phy p₁ := rfl

/-! ### modBoot -/

@[simp] theorem State.modBoot_pending (f : Boot → Boot) : (s.modBoot f).pending = s.pending := rfl
@[simp] theorem State.modBoot_freeCtr (f : Boot → Boot) : (s.modBoot f).freeCtr = s.freeCtr := rfl
@[simp] theorem State.modBoot_out (f : Boot → Boot) : (s.modBoot f).out = s.out := rfl
@[simp] theorem State.modBoot_deviceTime (f : Boot → Boot) : (s.modBoot f).deviceTime = s.deviceTime := rfl
@[simp] theorem State.modBoot_slewAhead (f : Boot → Boot) : (s.modBoot f).slewAhead = s.slewAhead := rfl
@[simp] theorem State.modBoot_slewBack (f : Boot → Boot) : (s.modBoot f).slewBack = s.slewBack := rfl
@[simp] theorem State.modBoot_slewPhase (f : Boot → Boot) : (s.modBoot f).slewPhase = s.slewPhase := rfl
@[simp] theorem State.modBoot_tileTime (f : Boot → Boot) : (s.modBoot f).tileTime = s.tileTime := rfl
@[simp] theorem State.modBoot_tileTimeAt (f : Boot → Boot) : (s.modBoot f).tileTimeAt = s.tileTimeAt := rfl
@[simp] theorem State.modBoot_lifecycle (f : Boot → Boot) : (s.modBoot f).lifecycle = s.lifecycle := rfl
@[simp] theorem State.modBoot_tiles (f : Boot → Boot) : (s.modBoot f).tiles = s.tiles := rfl
@[simp] theorem State.modBoot_cores (f : Boot → Boot) : (s.modBoot f).cores = s.cores := rfl
@[simp] theorem State.modBoot_slots (f : Boot → Boot) : (s.modBoot f).slots = s.slots := rfl
@[simp] theorem State.modBoot_mem (f : Boot → Boot) : (s.modBoot f).mem = s.mem := rfl
@[simp] theorem State.modBoot_priv (f : Boot → Boot) : (s.modBoot f).priv = s.priv := rfl
@[simp] theorem State.modBoot_tierPz (f : Boot → Boot) : (s.modBoot f).tierPz = s.tierPz := rfl
@[simp] theorem State.modBoot_spadPz (f : Boot → Boot) : (s.modBoot f).spadPz = s.spadPz := rfl
@[simp] theorem State.modBoot_acmPz (f : Boot → Boot) : (s.modBoot f).acmPz = s.acmPz := rfl
@[simp] theorem State.modBoot_privPz (f : Boot → Boot) : (s.modBoot f).privPz = s.privPz := rfl
@[simp] theorem State.modBoot_poison (f : Boot → Boot) : (s.modBoot f).poison = s.poison := rfl
@[simp] theorem State.modBoot_scrambled (f : Boot → Boot) : (s.modBoot f).scrambled = s.scrambled := rfl
@[simp] theorem State.modBoot_retired (f : Boot → Boot) : (s.modBoot f).retired = s.retired := rfl
@[simp] theorem State.modBoot_retireMark (f : Boot → Boot) : (s.modBoot f).retireMark = s.retireMark := rfl
@[simp] theorem State.modBoot_caches (f : Boot → Boot) : (s.modBoot f).caches = s.caches := rfl
@[simp] theorem State.modBoot_channels (f : Boot → Boot) : (s.modBoot f).channels = s.channels := rfl
@[simp] theorem State.modBoot_ctxs (f : Boot → Boot) : (s.modBoot f).ctxs = s.ctxs := rfl
@[simp] theorem State.modBoot_queues (f : Boot → Boot) : (s.modBoot f).queues = s.queues := rfl
@[simp] theorem State.modBoot_fetchCtr (f : Boot → Boot) : (s.modBoot f).fetchCtr = s.fetchCtr := rfl
@[simp] theorem State.modBoot_delash (f : Boot → Boot) : (s.modBoot f).delash = s.delash := rfl
@[simp] theorem State.modBoot_plumb (f : Boot → Boot) : (s.modBoot f).plumb = s.plumb := rfl
@[simp] theorem State.modBoot_engines (f : Boot → Boot) : (s.modBoot f).engines = s.engines := rfl
@[simp] theorem State.modBoot_replay (f : Boot → Boot) : (s.modBoot f).replay = s.replay := rfl
@[simp] theorem State.modBoot_net (f : Boot → Boot) : (s.modBoot f).net = s.net := rfl
@[simp] theorem State.modBoot_fabric (f : Boot → Boot) : (s.modBoot f).fabric = s.fabric := rfl
@[simp] theorem State.modBoot_phys (f : Boot → Boot) : (s.modBoot f).phys = s.phys := rfl
@[simp] theorem State.modBoot_sectors (f : Boot → Boot) : (s.modBoot f).sectors = s.sectors := rfl
@[simp] theorem State.modBoot_xchk (f : Boot → Boot) : (s.modBoot f).xchk = s.xchk := rfl
@[simp] theorem State.modBoot_faults (f : Boot → Boot) : (s.modBoot f).faults = s.faults := rfl
@[simp] theorem State.modBoot_flash (f : Boot → Boot) : (s.modBoot f).flash = s.flash := rfl
@[simp] theorem State.modBoot_boot (f : Boot → Boot) : (s.modBoot f).boot = f s.boot := rfl
@[simp] theorem State.modBoot_power (f : Boot → Boot) : (s.modBoot f).power = s.power := rfl
@[simp] theorem State.modBoot_core (f : Boot → Boot) (c₁ : Nat) : (s.modBoot f).core c₁ = s.core c₁ := rfl
@[simp] theorem State.modBoot_tile (f : Boot → Boot) (t₁ : Nat) : (s.modBoot f).tile t₁ = s.tile t₁ := rfl
@[simp] theorem State.modBoot_ctx (f : Boot → Boot) (k₁ : Nat) : (s.modBoot f).ctx k₁ = s.ctx k₁ := rfl
@[simp] theorem State.modBoot_sector (f : Boot → Boot) (n₁ : Nat) : (s.modBoot f).sector n₁
    = s.sector n₁ := rfl
@[simp] theorem State.modBoot_queue (f : Boot → Boot) (f₁ j₁ : Nat) : (s.modBoot f).queue f₁ j₁
    = s.queue f₁ j₁ := rfl
@[simp] theorem State.modBoot_port (f : Boot → Boot) (p₁ : Nat) : (s.modBoot f).port p₁ = s.port p₁ := rfl
@[simp] theorem State.modBoot_engine (f : Boot → Boot) (e₁ : Nat) : (s.modBoot f).engine e₁
    = s.engine e₁ := rfl
@[simp] theorem State.modBoot_mailbox (f : Boot → Boot) (f₁ : Nat) : (s.modBoot f).mailbox f₁
    = s.mailbox f₁ := rfl
@[simp] theorem State.modBoot_channel (f : Boot → Boot) (n₁ : Nat) : (s.modBoot f).channel n₁
    = s.channel n₁ := rfl
@[simp] theorem State.modBoot_phy (f : Boot → Boot) (p₁ : Nat) : (s.modBoot f).phy p₁ = s.phy p₁ := rfl

/-! ### modPower -/

@[simp] theorem State.modPower_pending (f : Power → Power) : (s.modPower f).pending = s.pending := rfl
@[simp] theorem State.modPower_freeCtr (f : Power → Power) : (s.modPower f).freeCtr = s.freeCtr := rfl
@[simp] theorem State.modPower_out (f : Power → Power) : (s.modPower f).out = s.out := rfl
@[simp] theorem State.modPower_deviceTime (f : Power → Power) : (s.modPower f).deviceTime
    = s.deviceTime := rfl
@[simp] theorem State.modPower_slewAhead (f : Power → Power) : (s.modPower f).slewAhead = s.slewAhead := rfl
@[simp] theorem State.modPower_slewBack (f : Power → Power) : (s.modPower f).slewBack = s.slewBack := rfl
@[simp] theorem State.modPower_slewPhase (f : Power → Power) : (s.modPower f).slewPhase = s.slewPhase := rfl
@[simp] theorem State.modPower_tileTime (f : Power → Power) : (s.modPower f).tileTime = s.tileTime := rfl
@[simp] theorem State.modPower_tileTimeAt (f : Power → Power) : (s.modPower f).tileTimeAt
    = s.tileTimeAt := rfl
@[simp] theorem State.modPower_lifecycle (f : Power → Power) : (s.modPower f).lifecycle = s.lifecycle := rfl
@[simp] theorem State.modPower_tiles (f : Power → Power) : (s.modPower f).tiles = s.tiles := rfl
@[simp] theorem State.modPower_cores (f : Power → Power) : (s.modPower f).cores = s.cores := rfl
@[simp] theorem State.modPower_slots (f : Power → Power) : (s.modPower f).slots = s.slots := rfl
@[simp] theorem State.modPower_mem (f : Power → Power) : (s.modPower f).mem = s.mem := rfl
@[simp] theorem State.modPower_priv (f : Power → Power) : (s.modPower f).priv = s.priv := rfl
@[simp] theorem State.modPower_tierPz (f : Power → Power) : (s.modPower f).tierPz = s.tierPz := rfl
@[simp] theorem State.modPower_spadPz (f : Power → Power) : (s.modPower f).spadPz = s.spadPz := rfl
@[simp] theorem State.modPower_acmPz (f : Power → Power) : (s.modPower f).acmPz = s.acmPz := rfl
@[simp] theorem State.modPower_privPz (f : Power → Power) : (s.modPower f).privPz = s.privPz := rfl
@[simp] theorem State.modPower_poison (f : Power → Power) : (s.modPower f).poison = s.poison := rfl
@[simp] theorem State.modPower_scrambled (f : Power → Power) : (s.modPower f).scrambled = s.scrambled := rfl
@[simp] theorem State.modPower_retired (f : Power → Power) : (s.modPower f).retired = s.retired := rfl
@[simp] theorem State.modPower_retireMark (f : Power → Power) : (s.modPower f).retireMark
    = s.retireMark := rfl
@[simp] theorem State.modPower_caches (f : Power → Power) : (s.modPower f).caches = s.caches := rfl
@[simp] theorem State.modPower_channels (f : Power → Power) : (s.modPower f).channels = s.channels := rfl
@[simp] theorem State.modPower_ctxs (f : Power → Power) : (s.modPower f).ctxs = s.ctxs := rfl
@[simp] theorem State.modPower_queues (f : Power → Power) : (s.modPower f).queues = s.queues := rfl
@[simp] theorem State.modPower_fetchCtr (f : Power → Power) : (s.modPower f).fetchCtr = s.fetchCtr := rfl
@[simp] theorem State.modPower_delash (f : Power → Power) : (s.modPower f).delash = s.delash := rfl
@[simp] theorem State.modPower_plumb (f : Power → Power) : (s.modPower f).plumb = s.plumb := rfl
@[simp] theorem State.modPower_engines (f : Power → Power) : (s.modPower f).engines = s.engines := rfl
@[simp] theorem State.modPower_replay (f : Power → Power) : (s.modPower f).replay = s.replay := rfl
@[simp] theorem State.modPower_net (f : Power → Power) : (s.modPower f).net = s.net := rfl
@[simp] theorem State.modPower_fabric (f : Power → Power) : (s.modPower f).fabric = s.fabric := rfl
@[simp] theorem State.modPower_phys (f : Power → Power) : (s.modPower f).phys = s.phys := rfl
@[simp] theorem State.modPower_sectors (f : Power → Power) : (s.modPower f).sectors = s.sectors := rfl
@[simp] theorem State.modPower_xchk (f : Power → Power) : (s.modPower f).xchk = s.xchk := rfl
@[simp] theorem State.modPower_faults (f : Power → Power) : (s.modPower f).faults = s.faults := rfl
@[simp] theorem State.modPower_flash (f : Power → Power) : (s.modPower f).flash = s.flash := rfl
@[simp] theorem State.modPower_boot (f : Power → Power) : (s.modPower f).boot = s.boot := rfl
@[simp] theorem State.modPower_power (f : Power → Power) : (s.modPower f).power = f s.power := rfl
@[simp] theorem State.modPower_core (f : Power → Power) (c₁ : Nat) : (s.modPower f).core c₁
    = s.core c₁ := rfl
@[simp] theorem State.modPower_tile (f : Power → Power) (t₁ : Nat) : (s.modPower f).tile t₁
    = s.tile t₁ := rfl
@[simp] theorem State.modPower_ctx (f : Power → Power) (k₁ : Nat) : (s.modPower f).ctx k₁ = s.ctx k₁ := rfl
@[simp] theorem State.modPower_sector (f : Power → Power) (n₁ : Nat) : (s.modPower f).sector n₁
    = s.sector n₁ := rfl
@[simp] theorem State.modPower_queue (f : Power → Power) (f₁ j₁ : Nat) : (s.modPower f).queue f₁ j₁
    = s.queue f₁ j₁ := rfl
@[simp] theorem State.modPower_port (f : Power → Power) (p₁ : Nat) : (s.modPower f).port p₁
    = s.port p₁ := rfl
@[simp] theorem State.modPower_engine (f : Power → Power) (e₁ : Nat) : (s.modPower f).engine e₁
    = s.engine e₁ := rfl
@[simp] theorem State.modPower_mailbox (f : Power → Power) (f₁ : Nat) : (s.modPower f).mailbox f₁
    = s.mailbox f₁ := rfl
@[simp] theorem State.modPower_channel (f : Power → Power) (n₁ : Nat) : (s.modPower f).channel n₁
    = s.channel n₁ := rfl
@[simp] theorem State.modPower_phy (f : Power → Power) (p₁ : Nat) : (s.modPower f).phy p₁ = s.phy p₁ := rfl

/-! ### modFlash -/

@[simp] theorem State.modFlash_pending (f : Flash → Flash) : (s.modFlash f).pending = s.pending := rfl
@[simp] theorem State.modFlash_freeCtr (f : Flash → Flash) : (s.modFlash f).freeCtr = s.freeCtr := rfl
@[simp] theorem State.modFlash_out (f : Flash → Flash) : (s.modFlash f).out = s.out := rfl
@[simp] theorem State.modFlash_deviceTime (f : Flash → Flash) : (s.modFlash f).deviceTime
    = s.deviceTime := rfl
@[simp] theorem State.modFlash_slewAhead (f : Flash → Flash) : (s.modFlash f).slewAhead = s.slewAhead := rfl
@[simp] theorem State.modFlash_slewBack (f : Flash → Flash) : (s.modFlash f).slewBack = s.slewBack := rfl
@[simp] theorem State.modFlash_slewPhase (f : Flash → Flash) : (s.modFlash f).slewPhase = s.slewPhase := rfl
@[simp] theorem State.modFlash_tileTime (f : Flash → Flash) : (s.modFlash f).tileTime = s.tileTime := rfl
@[simp] theorem State.modFlash_tileTimeAt (f : Flash → Flash) : (s.modFlash f).tileTimeAt
    = s.tileTimeAt := rfl
@[simp] theorem State.modFlash_lifecycle (f : Flash → Flash) : (s.modFlash f).lifecycle = s.lifecycle := rfl
@[simp] theorem State.modFlash_tiles (f : Flash → Flash) : (s.modFlash f).tiles = s.tiles := rfl
@[simp] theorem State.modFlash_cores (f : Flash → Flash) : (s.modFlash f).cores = s.cores := rfl
@[simp] theorem State.modFlash_slots (f : Flash → Flash) : (s.modFlash f).slots = s.slots := rfl
@[simp] theorem State.modFlash_mem (f : Flash → Flash) : (s.modFlash f).mem = s.mem := rfl
@[simp] theorem State.modFlash_priv (f : Flash → Flash) : (s.modFlash f).priv = s.priv := rfl
@[simp] theorem State.modFlash_tierPz (f : Flash → Flash) : (s.modFlash f).tierPz = s.tierPz := rfl
@[simp] theorem State.modFlash_spadPz (f : Flash → Flash) : (s.modFlash f).spadPz = s.spadPz := rfl
@[simp] theorem State.modFlash_acmPz (f : Flash → Flash) : (s.modFlash f).acmPz = s.acmPz := rfl
@[simp] theorem State.modFlash_privPz (f : Flash → Flash) : (s.modFlash f).privPz = s.privPz := rfl
@[simp] theorem State.modFlash_poison (f : Flash → Flash) : (s.modFlash f).poison = s.poison := rfl
@[simp] theorem State.modFlash_scrambled (f : Flash → Flash) : (s.modFlash f).scrambled = s.scrambled := rfl
@[simp] theorem State.modFlash_retired (f : Flash → Flash) : (s.modFlash f).retired = s.retired := rfl
@[simp] theorem State.modFlash_retireMark (f : Flash → Flash) : (s.modFlash f).retireMark
    = s.retireMark := rfl
@[simp] theorem State.modFlash_caches (f : Flash → Flash) : (s.modFlash f).caches = s.caches := rfl
@[simp] theorem State.modFlash_channels (f : Flash → Flash) : (s.modFlash f).channels = s.channels := rfl
@[simp] theorem State.modFlash_ctxs (f : Flash → Flash) : (s.modFlash f).ctxs = s.ctxs := rfl
@[simp] theorem State.modFlash_queues (f : Flash → Flash) : (s.modFlash f).queues = s.queues := rfl
@[simp] theorem State.modFlash_fetchCtr (f : Flash → Flash) : (s.modFlash f).fetchCtr = s.fetchCtr := rfl
@[simp] theorem State.modFlash_delash (f : Flash → Flash) : (s.modFlash f).delash = s.delash := rfl
@[simp] theorem State.modFlash_plumb (f : Flash → Flash) : (s.modFlash f).plumb = s.plumb := rfl
@[simp] theorem State.modFlash_engines (f : Flash → Flash) : (s.modFlash f).engines = s.engines := rfl
@[simp] theorem State.modFlash_replay (f : Flash → Flash) : (s.modFlash f).replay = s.replay := rfl
@[simp] theorem State.modFlash_net (f : Flash → Flash) : (s.modFlash f).net = s.net := rfl
@[simp] theorem State.modFlash_fabric (f : Flash → Flash) : (s.modFlash f).fabric = s.fabric := rfl
@[simp] theorem State.modFlash_phys (f : Flash → Flash) : (s.modFlash f).phys = s.phys := rfl
@[simp] theorem State.modFlash_sectors (f : Flash → Flash) : (s.modFlash f).sectors = s.sectors := rfl
@[simp] theorem State.modFlash_xchk (f : Flash → Flash) : (s.modFlash f).xchk = s.xchk := rfl
@[simp] theorem State.modFlash_faults (f : Flash → Flash) : (s.modFlash f).faults = s.faults := rfl
@[simp] theorem State.modFlash_flash (f : Flash → Flash) : (s.modFlash f).flash = f s.flash := rfl
@[simp] theorem State.modFlash_boot (f : Flash → Flash) : (s.modFlash f).boot = s.boot := rfl
@[simp] theorem State.modFlash_power (f : Flash → Flash) : (s.modFlash f).power = s.power := rfl
@[simp] theorem State.modFlash_core (f : Flash → Flash) (c₁ : Nat) : (s.modFlash f).core c₁
    = s.core c₁ := rfl
@[simp] theorem State.modFlash_tile (f : Flash → Flash) (t₁ : Nat) : (s.modFlash f).tile t₁
    = s.tile t₁ := rfl
@[simp] theorem State.modFlash_ctx (f : Flash → Flash) (k₁ : Nat) : (s.modFlash f).ctx k₁ = s.ctx k₁ := rfl
@[simp] theorem State.modFlash_sector (f : Flash → Flash) (n₁ : Nat) : (s.modFlash f).sector n₁
    = s.sector n₁ := rfl
@[simp] theorem State.modFlash_queue (f : Flash → Flash) (f₁ j₁ : Nat) : (s.modFlash f).queue f₁ j₁
    = s.queue f₁ j₁ := rfl
@[simp] theorem State.modFlash_port (f : Flash → Flash) (p₁ : Nat) : (s.modFlash f).port p₁
    = s.port p₁ := rfl
@[simp] theorem State.modFlash_engine (f : Flash → Flash) (e₁ : Nat) : (s.modFlash f).engine e₁
    = s.engine e₁ := rfl
@[simp] theorem State.modFlash_mailbox (f : Flash → Flash) (f₁ : Nat) : (s.modFlash f).mailbox f₁
    = s.mailbox f₁ := rfl
@[simp] theorem State.modFlash_channel (f : Flash → Flash) (n₁ : Nat) : (s.modFlash f).channel n₁
    = s.channel n₁ := rfl
@[simp] theorem State.modFlash_phy (f : Flash → Flash) (p₁ : Nat) : (s.modFlash f).phy p₁ = s.phy p₁ := rfl

/-! ### emit -/

@[simp] theorem State.emit_pending (o : Output) : (s.emit o).pending = s.pending := rfl
@[simp] theorem State.emit_freeCtr (o : Output) : (s.emit o).freeCtr = s.freeCtr := rfl
@[simp] theorem State.emit_out (o : Output) : (s.emit o).out = o :: s.out := rfl
@[simp] theorem State.emit_deviceTime (o : Output) : (s.emit o).deviceTime = s.deviceTime := rfl
@[simp] theorem State.emit_slewAhead (o : Output) : (s.emit o).slewAhead = s.slewAhead := rfl
@[simp] theorem State.emit_slewBack (o : Output) : (s.emit o).slewBack = s.slewBack := rfl
@[simp] theorem State.emit_slewPhase (o : Output) : (s.emit o).slewPhase = s.slewPhase := rfl
@[simp] theorem State.emit_tileTime (o : Output) : (s.emit o).tileTime = s.tileTime := rfl
@[simp] theorem State.emit_tileTimeAt (o : Output) : (s.emit o).tileTimeAt = s.tileTimeAt := rfl
@[simp] theorem State.emit_lifecycle (o : Output) : (s.emit o).lifecycle = s.lifecycle := rfl
@[simp] theorem State.emit_tiles (o : Output) : (s.emit o).tiles = s.tiles := rfl
@[simp] theorem State.emit_cores (o : Output) : (s.emit o).cores = s.cores := rfl
@[simp] theorem State.emit_slots (o : Output) : (s.emit o).slots = s.slots := rfl
@[simp] theorem State.emit_mem (o : Output) : (s.emit o).mem = s.mem := rfl
@[simp] theorem State.emit_priv (o : Output) : (s.emit o).priv = s.priv := rfl
@[simp] theorem State.emit_tierPz (o : Output) : (s.emit o).tierPz = s.tierPz := rfl
@[simp] theorem State.emit_spadPz (o : Output) : (s.emit o).spadPz = s.spadPz := rfl
@[simp] theorem State.emit_acmPz (o : Output) : (s.emit o).acmPz = s.acmPz := rfl
@[simp] theorem State.emit_privPz (o : Output) : (s.emit o).privPz = s.privPz := rfl
@[simp] theorem State.emit_poison (o : Output) : (s.emit o).poison = s.poison := rfl
@[simp] theorem State.emit_scrambled (o : Output) : (s.emit o).scrambled = s.scrambled := rfl
@[simp] theorem State.emit_retired (o : Output) : (s.emit o).retired = s.retired := rfl
@[simp] theorem State.emit_retireMark (o : Output) : (s.emit o).retireMark = s.retireMark := rfl
@[simp] theorem State.emit_caches (o : Output) : (s.emit o).caches = s.caches := rfl
@[simp] theorem State.emit_channels (o : Output) : (s.emit o).channels = s.channels := rfl
@[simp] theorem State.emit_ctxs (o : Output) : (s.emit o).ctxs = s.ctxs := rfl
@[simp] theorem State.emit_queues (o : Output) : (s.emit o).queues = s.queues := rfl
@[simp] theorem State.emit_fetchCtr (o : Output) : (s.emit o).fetchCtr = s.fetchCtr := rfl
@[simp] theorem State.emit_delash (o : Output) : (s.emit o).delash = s.delash := rfl
@[simp] theorem State.emit_plumb (o : Output) : (s.emit o).plumb = s.plumb := rfl
@[simp] theorem State.emit_engines (o : Output) : (s.emit o).engines = s.engines := rfl
@[simp] theorem State.emit_replay (o : Output) : (s.emit o).replay = s.replay := rfl
@[simp] theorem State.emit_net (o : Output) : (s.emit o).net = s.net := rfl
@[simp] theorem State.emit_fabric (o : Output) : (s.emit o).fabric = s.fabric := rfl
@[simp] theorem State.emit_phys (o : Output) : (s.emit o).phys = s.phys := rfl
@[simp] theorem State.emit_sectors (o : Output) : (s.emit o).sectors = s.sectors := rfl
@[simp] theorem State.emit_xchk (o : Output) : (s.emit o).xchk = s.xchk := rfl
@[simp] theorem State.emit_faults (o : Output) : (s.emit o).faults = s.faults := rfl
@[simp] theorem State.emit_flash (o : Output) : (s.emit o).flash = s.flash := rfl
@[simp] theorem State.emit_boot (o : Output) : (s.emit o).boot = s.boot := rfl
@[simp] theorem State.emit_power (o : Output) : (s.emit o).power = s.power := rfl
@[simp] theorem State.emit_core (o : Output) (c₁ : Nat) : (s.emit o).core c₁ = s.core c₁ := rfl
@[simp] theorem State.emit_tile (o : Output) (t₁ : Nat) : (s.emit o).tile t₁ = s.tile t₁ := rfl
@[simp] theorem State.emit_ctx (o : Output) (k₁ : Nat) : (s.emit o).ctx k₁ = s.ctx k₁ := rfl
@[simp] theorem State.emit_sector (o : Output) (n₁ : Nat) : (s.emit o).sector n₁ = s.sector n₁ := rfl
@[simp] theorem State.emit_queue (o : Output) (f₁ j₁ : Nat) : (s.emit o).queue f₁ j₁ = s.queue f₁ j₁ := rfl
@[simp] theorem State.emit_port (o : Output) (p₁ : Nat) : (s.emit o).port p₁ = s.port p₁ := rfl
@[simp] theorem State.emit_engine (o : Output) (e₁ : Nat) : (s.emit o).engine e₁ = s.engine e₁ := rfl
@[simp] theorem State.emit_mailbox (o : Output) (f₁ : Nat) : (s.emit o).mailbox f₁ = s.mailbox f₁ := rfl
@[simp] theorem State.emit_channel (o : Output) (n₁ : Nat) : (s.emit o).channel n₁ = s.channel n₁ := rfl
@[simp] theorem State.emit_phy (o : Output) (p₁ : Nat) : (s.emit o).phy p₁ = s.phy p₁ := rfl

/-! ### setSlot -/

@[simp] theorem State.setSlot_pending (c k : Nat) (x : Slot) : (s.setSlot c k x).pending = s.pending := rfl
@[simp] theorem State.setSlot_freeCtr (c k : Nat) (x : Slot) : (s.setSlot c k x).freeCtr = s.freeCtr := rfl
@[simp] theorem State.setSlot_out (c k : Nat) (x : Slot) : (s.setSlot c k x).out = s.out := rfl
@[simp] theorem State.setSlot_deviceTime (c k : Nat) (x : Slot) : (s.setSlot c k x).deviceTime
    = s.deviceTime := rfl
@[simp] theorem State.setSlot_slewAhead (c k : Nat) (x : Slot) : (s.setSlot c k x).slewAhead
    = s.slewAhead := rfl
@[simp] theorem State.setSlot_slewBack (c k : Nat) (x : Slot) : (s.setSlot c k x).slewBack
    = s.slewBack := rfl
@[simp] theorem State.setSlot_slewPhase (c k : Nat) (x : Slot) : (s.setSlot c k x).slewPhase
    = s.slewPhase := rfl
@[simp] theorem State.setSlot_tileTime (c k : Nat) (x : Slot) : (s.setSlot c k x).tileTime
    = s.tileTime := rfl
@[simp] theorem State.setSlot_tileTimeAt (c k : Nat) (x : Slot) : (s.setSlot c k x).tileTimeAt
    = s.tileTimeAt := rfl
@[simp] theorem State.setSlot_lifecycle (c k : Nat) (x : Slot) : (s.setSlot c k x).lifecycle
    = s.lifecycle := rfl
@[simp] theorem State.setSlot_tiles (c k : Nat) (x : Slot) : (s.setSlot c k x).tiles = s.tiles := rfl
@[simp] theorem State.setSlot_cores (c k : Nat) (x : Slot) : (s.setSlot c k x).cores = s.cores := rfl
@[simp] theorem State.setSlot_slots (c k : Nat) (x : Slot) : (s.setSlot c k x).slots
    = Tab.set s.slots (c * 16 + k) x := rfl
@[simp] theorem State.setSlot_mem (c k : Nat) (x : Slot) : (s.setSlot c k x).mem = s.mem := rfl
@[simp] theorem State.setSlot_priv (c k : Nat) (x : Slot) : (s.setSlot c k x).priv = s.priv := rfl
@[simp] theorem State.setSlot_tierPz (c k : Nat) (x : Slot) : (s.setSlot c k x).tierPz = s.tierPz := rfl
@[simp] theorem State.setSlot_spadPz (c k : Nat) (x : Slot) : (s.setSlot c k x).spadPz = s.spadPz := rfl
@[simp] theorem State.setSlot_acmPz (c k : Nat) (x : Slot) : (s.setSlot c k x).acmPz
    = ISet.remove (c * 16 + k) (c * 16 + k + 1) s.acmPz := rfl
@[simp] theorem State.setSlot_privPz (c k : Nat) (x : Slot) : (s.setSlot c k x).privPz = s.privPz := rfl
@[simp] theorem State.setSlot_poison (c k : Nat) (x : Slot) : (s.setSlot c k x).poison = s.poison := rfl
@[simp] theorem State.setSlot_scrambled (c k : Nat) (x : Slot) : (s.setSlot c k x).scrambled
    = s.scrambled := rfl
@[simp] theorem State.setSlot_retired (c k : Nat) (x : Slot) : (s.setSlot c k x).retired = s.retired := rfl
@[simp] theorem State.setSlot_retireMark (c k : Nat) (x : Slot) : (s.setSlot c k x).retireMark
    = s.retireMark := rfl
@[simp] theorem State.setSlot_caches (c k : Nat) (x : Slot) : (s.setSlot c k x).caches = s.caches := rfl
@[simp] theorem State.setSlot_channels (c k : Nat) (x : Slot) : (s.setSlot c k x).channels
    = s.channels := rfl
@[simp] theorem State.setSlot_ctxs (c k : Nat) (x : Slot) : (s.setSlot c k x).ctxs = s.ctxs := rfl
@[simp] theorem State.setSlot_queues (c k : Nat) (x : Slot) : (s.setSlot c k x).queues = s.queues := rfl
@[simp] theorem State.setSlot_fetchCtr (c k : Nat) (x : Slot) : (s.setSlot c k x).fetchCtr
    = s.fetchCtr := rfl
@[simp] theorem State.setSlot_delash (c k : Nat) (x : Slot) : (s.setSlot c k x).delash = s.delash := rfl
@[simp] theorem State.setSlot_plumb (c k : Nat) (x : Slot) : (s.setSlot c k x).plumb = s.plumb := rfl
@[simp] theorem State.setSlot_engines (c k : Nat) (x : Slot) : (s.setSlot c k x).engines = s.engines := rfl
@[simp] theorem State.setSlot_replay (c k : Nat) (x : Slot) : (s.setSlot c k x).replay = s.replay := rfl
@[simp] theorem State.setSlot_net (c k : Nat) (x : Slot) : (s.setSlot c k x).net = s.net := rfl
@[simp] theorem State.setSlot_fabric (c k : Nat) (x : Slot) : (s.setSlot c k x).fabric = s.fabric := rfl
@[simp] theorem State.setSlot_phys (c k : Nat) (x : Slot) : (s.setSlot c k x).phys = s.phys := rfl
@[simp] theorem State.setSlot_sectors (c k : Nat) (x : Slot) : (s.setSlot c k x).sectors = s.sectors := rfl
@[simp] theorem State.setSlot_xchk (c k : Nat) (x : Slot) : (s.setSlot c k x).xchk = s.xchk := rfl
@[simp] theorem State.setSlot_faults (c k : Nat) (x : Slot) : (s.setSlot c k x).faults = s.faults := rfl
@[simp] theorem State.setSlot_flash (c k : Nat) (x : Slot) : (s.setSlot c k x).flash = s.flash := rfl
@[simp] theorem State.setSlot_boot (c k : Nat) (x : Slot) : (s.setSlot c k x).boot = s.boot := rfl
@[simp] theorem State.setSlot_power (c k : Nat) (x : Slot) : (s.setSlot c k x).power = s.power := rfl
@[simp] theorem State.setSlot_core (c k : Nat) (x : Slot) (c₁ : Nat) : (s.setSlot c k x).core c₁
    = s.core c₁ := rfl
@[simp] theorem State.setSlot_tile (c k : Nat) (x : Slot) (t₁ : Nat) : (s.setSlot c k x).tile t₁
    = s.tile t₁ := rfl
@[simp] theorem State.setSlot_ctx (c k : Nat) (x : Slot) (k₁ : Nat) : (s.setSlot c k x).ctx k₁
    = s.ctx k₁ := rfl
@[simp] theorem State.setSlot_sector (c k : Nat) (x : Slot) (n₁ : Nat) : (s.setSlot c k x).sector n₁
    = s.sector n₁ := rfl
@[simp] theorem State.setSlot_queue (c k : Nat) (x : Slot) (f₁ j₁ : Nat) : (s.setSlot c k x).queue f₁ j₁
    = s.queue f₁ j₁ := rfl
@[simp] theorem State.setSlot_port (c k : Nat) (x : Slot) (p₁ : Nat) : (s.setSlot c k x).port p₁
    = s.port p₁ := rfl
@[simp] theorem State.setSlot_engine (c k : Nat) (x : Slot) (e₁ : Nat) : (s.setSlot c k x).engine e₁
    = s.engine e₁ := rfl
@[simp] theorem State.setSlot_mailbox (c k : Nat) (x : Slot) (f₁ : Nat) : (s.setSlot c k x).mailbox f₁
    = s.mailbox f₁ := rfl
@[simp] theorem State.setSlot_channel (c k : Nat) (x : Slot) (n₁ : Nat) : (s.setSlot c k x).channel n₁
    = s.channel n₁ := rfl
@[simp] theorem State.setSlot_phy (c k : Nat) (x : Slot) (p₁ : Nat) : (s.setSlot c k x).phy p₁
    = s.phy p₁ := rfl

/-! ### modSlotState -/

@[simp] theorem State.modSlotState_pending (c k : Nat) (f : Slot → Slot) : (s.modSlotState c k f).pending
    = s.pending := rfl
@[simp] theorem State.modSlotState_freeCtr (c k : Nat) (f : Slot → Slot) : (s.modSlotState c k f).freeCtr
    = s.freeCtr := rfl
@[simp] theorem State.modSlotState_out (c k : Nat) (f : Slot → Slot) : (s.modSlotState c k f).out
    = s.out := rfl
@[simp] theorem State.modSlotState_deviceTime (c k : Nat) (f : Slot → Slot) : (s.modSlotState c k f).deviceTime
    = s.deviceTime := rfl
@[simp] theorem State.modSlotState_slewAhead (c k : Nat) (f : Slot → Slot) : (s.modSlotState c k f).slewAhead
    = s.slewAhead := rfl
@[simp] theorem State.modSlotState_slewBack (c k : Nat) (f : Slot → Slot) : (s.modSlotState c k f).slewBack
    = s.slewBack := rfl
@[simp] theorem State.modSlotState_slewPhase (c k : Nat) (f : Slot → Slot) : (s.modSlotState c k f).slewPhase
    = s.slewPhase := rfl
@[simp] theorem State.modSlotState_tileTime (c k : Nat) (f : Slot → Slot) : (s.modSlotState c k f).tileTime
    = s.tileTime := rfl
@[simp] theorem State.modSlotState_tileTimeAt (c k : Nat) (f : Slot → Slot) : (s.modSlotState c k f).tileTimeAt
    = s.tileTimeAt := rfl
@[simp] theorem State.modSlotState_lifecycle (c k : Nat) (f : Slot → Slot) : (s.modSlotState c k f).lifecycle
    = s.lifecycle := rfl
@[simp] theorem State.modSlotState_tiles (c k : Nat) (f : Slot → Slot) : (s.modSlotState c k f).tiles
    = s.tiles := rfl
@[simp] theorem State.modSlotState_cores (c k : Nat) (f : Slot → Slot) : (s.modSlotState c k f).cores
    = s.cores := rfl
@[simp] theorem State.modSlotState_slots (c k : Nat) (f : Slot → Slot) : (s.modSlotState c k f).slots
    = Tab.mod {} s.slots (c * 16 + k) f := rfl
@[simp] theorem State.modSlotState_mem (c k : Nat) (f : Slot → Slot) : (s.modSlotState c k f).mem
    = s.mem := rfl
@[simp] theorem State.modSlotState_priv (c k : Nat) (f : Slot → Slot) : (s.modSlotState c k f).priv
    = s.priv := rfl
@[simp] theorem State.modSlotState_tierPz (c k : Nat) (f : Slot → Slot) : (s.modSlotState c k f).tierPz
    = s.tierPz := rfl
@[simp] theorem State.modSlotState_spadPz (c k : Nat) (f : Slot → Slot) : (s.modSlotState c k f).spadPz
    = s.spadPz := rfl
@[simp] theorem State.modSlotState_acmPz (c k : Nat) (f : Slot → Slot) : (s.modSlotState c k f).acmPz
    = s.acmPz := rfl
@[simp] theorem State.modSlotState_privPz (c k : Nat) (f : Slot → Slot) : (s.modSlotState c k f).privPz
    = s.privPz := rfl
@[simp] theorem State.modSlotState_poison (c k : Nat) (f : Slot → Slot) : (s.modSlotState c k f).poison
    = s.poison := rfl
@[simp] theorem State.modSlotState_scrambled (c k : Nat) (f : Slot → Slot) : (s.modSlotState c k f).scrambled
    = s.scrambled := rfl
@[simp] theorem State.modSlotState_retired (c k : Nat) (f : Slot → Slot) : (s.modSlotState c k f).retired
    = s.retired := rfl
@[simp] theorem State.modSlotState_retireMark (c k : Nat) (f : Slot → Slot) : (s.modSlotState c k f).retireMark
    = s.retireMark := rfl
@[simp] theorem State.modSlotState_caches (c k : Nat) (f : Slot → Slot) : (s.modSlotState c k f).caches
    = s.caches := rfl
@[simp] theorem State.modSlotState_channels (c k : Nat) (f : Slot → Slot) : (s.modSlotState c k f).channels
    = s.channels := rfl
@[simp] theorem State.modSlotState_ctxs (c k : Nat) (f : Slot → Slot) : (s.modSlotState c k f).ctxs
    = s.ctxs := rfl
@[simp] theorem State.modSlotState_queues (c k : Nat) (f : Slot → Slot) : (s.modSlotState c k f).queues
    = s.queues := rfl
@[simp] theorem State.modSlotState_fetchCtr (c k : Nat) (f : Slot → Slot) : (s.modSlotState c k f).fetchCtr
    = s.fetchCtr := rfl
@[simp] theorem State.modSlotState_delash (c k : Nat) (f : Slot → Slot) : (s.modSlotState c k f).delash
    = s.delash := rfl
@[simp] theorem State.modSlotState_plumb (c k : Nat) (f : Slot → Slot) : (s.modSlotState c k f).plumb
    = s.plumb := rfl
@[simp] theorem State.modSlotState_engines (c k : Nat) (f : Slot → Slot) : (s.modSlotState c k f).engines
    = s.engines := rfl
@[simp] theorem State.modSlotState_replay (c k : Nat) (f : Slot → Slot) : (s.modSlotState c k f).replay
    = s.replay := rfl
@[simp] theorem State.modSlotState_net (c k : Nat) (f : Slot → Slot) : (s.modSlotState c k f).net
    = s.net := rfl
@[simp] theorem State.modSlotState_fabric (c k : Nat) (f : Slot → Slot) : (s.modSlotState c k f).fabric
    = s.fabric := rfl
@[simp] theorem State.modSlotState_phys (c k : Nat) (f : Slot → Slot) : (s.modSlotState c k f).phys
    = s.phys := rfl
@[simp] theorem State.modSlotState_sectors (c k : Nat) (f : Slot → Slot) : (s.modSlotState c k f).sectors
    = s.sectors := rfl
@[simp] theorem State.modSlotState_xchk (c k : Nat) (f : Slot → Slot) : (s.modSlotState c k f).xchk
    = s.xchk := rfl
@[simp] theorem State.modSlotState_faults (c k : Nat) (f : Slot → Slot) : (s.modSlotState c k f).faults
    = s.faults := rfl
@[simp] theorem State.modSlotState_flash (c k : Nat) (f : Slot → Slot) : (s.modSlotState c k f).flash
    = s.flash := rfl
@[simp] theorem State.modSlotState_boot (c k : Nat) (f : Slot → Slot) : (s.modSlotState c k f).boot
    = s.boot := rfl
@[simp] theorem State.modSlotState_power (c k : Nat) (f : Slot → Slot) : (s.modSlotState c k f).power
    = s.power := rfl
@[simp] theorem State.modSlotState_core (c k : Nat) (f : Slot → Slot) (c₁ : Nat) : (s.modSlotState c k f).core c₁
    = s.core c₁ := rfl
@[simp] theorem State.modSlotState_tile (c k : Nat) (f : Slot → Slot) (t₁ : Nat) : (s.modSlotState c k f).tile t₁
    = s.tile t₁ := rfl
@[simp] theorem State.modSlotState_ctx (c k : Nat) (f : Slot → Slot) (k₁ : Nat) : (s.modSlotState c k f).ctx k₁
    = s.ctx k₁ := rfl
@[simp] theorem State.modSlotState_sector (c k : Nat) (f : Slot → Slot) (n₁ : Nat) : (s.modSlotState c k f).sector n₁
    = s.sector n₁ := rfl
@[simp] theorem State.modSlotState_queue (c k : Nat) (f : Slot → Slot) (f₁ j₁ : Nat) : (s.modSlotState c k f).queue f₁ j₁
    = s.queue f₁ j₁ := rfl
@[simp] theorem State.modSlotState_port (c k : Nat) (f : Slot → Slot) (p₁ : Nat) : (s.modSlotState c k f).port p₁
    = s.port p₁ := rfl
@[simp] theorem State.modSlotState_engine (c k : Nat) (f : Slot → Slot) (e₁ : Nat) : (s.modSlotState c k f).engine e₁
    = s.engine e₁ := rfl
@[simp] theorem State.modSlotState_mailbox (c k : Nat) (f : Slot → Slot) (f₁ : Nat) : (s.modSlotState c k f).mailbox f₁
    = s.mailbox f₁ := rfl
@[simp] theorem State.modSlotState_channel (c k : Nat) (f : Slot → Slot) (n₁ : Nat) : (s.modSlotState c k f).channel n₁
    = s.channel n₁ := rfl
@[simp] theorem State.modSlotState_phy (c k : Nat) (f : Slot → Slot) (p₁ : Nat) : (s.modSlotState c k f).phy p₁
    = s.phy p₁ := rfl

/-! ### clearBytes -/

@[simp] theorem State.clearBytes_pending (lo hi : Nat) : (s.clearBytes lo hi).pending = s.pending := rfl
@[simp] theorem State.clearBytes_freeCtr (lo hi : Nat) : (s.clearBytes lo hi).freeCtr = s.freeCtr := rfl
@[simp] theorem State.clearBytes_out (lo hi : Nat) : (s.clearBytes lo hi).out = s.out := rfl
@[simp] theorem State.clearBytes_deviceTime (lo hi : Nat) : (s.clearBytes lo hi).deviceTime
    = s.deviceTime := rfl
@[simp] theorem State.clearBytes_slewAhead (lo hi : Nat) : (s.clearBytes lo hi).slewAhead
    = s.slewAhead := rfl
@[simp] theorem State.clearBytes_slewBack (lo hi : Nat) : (s.clearBytes lo hi).slewBack = s.slewBack := rfl
@[simp] theorem State.clearBytes_slewPhase (lo hi : Nat) : (s.clearBytes lo hi).slewPhase
    = s.slewPhase := rfl
@[simp] theorem State.clearBytes_tileTime (lo hi : Nat) : (s.clearBytes lo hi).tileTime = s.tileTime := rfl
@[simp] theorem State.clearBytes_tileTimeAt (lo hi : Nat) : (s.clearBytes lo hi).tileTimeAt
    = s.tileTimeAt := rfl
@[simp] theorem State.clearBytes_lifecycle (lo hi : Nat) : (s.clearBytes lo hi).lifecycle
    = s.lifecycle := rfl
@[simp] theorem State.clearBytes_tiles (lo hi : Nat) : (s.clearBytes lo hi).tiles = s.tiles := rfl
@[simp] theorem State.clearBytes_cores (lo hi : Nat) : (s.clearBytes lo hi).cores = s.cores := rfl
@[simp] theorem State.clearBytes_slots (lo hi : Nat) : (s.clearBytes lo hi).slots = s.slots := rfl
@[simp] theorem State.clearBytes_mem (lo hi : Nat) : (s.clearBytes lo hi).mem
    = Cells.clear s.mem lo hi := rfl
@[simp] theorem State.clearBytes_priv (lo hi : Nat) : (s.clearBytes lo hi).priv = s.priv := rfl
@[simp] theorem State.clearBytes_tierPz (lo hi : Nat) : (s.clearBytes lo hi).tierPz = s.tierPz := rfl
@[simp] theorem State.clearBytes_spadPz (lo hi : Nat) : (s.clearBytes lo hi).spadPz = s.spadPz := rfl
@[simp] theorem State.clearBytes_acmPz (lo hi : Nat) : (s.clearBytes lo hi).acmPz = s.acmPz := rfl
@[simp] theorem State.clearBytes_privPz (lo hi : Nat) : (s.clearBytes lo hi).privPz = s.privPz := rfl
@[simp] theorem State.clearBytes_poison (lo hi : Nat) : (s.clearBytes lo hi).poison = s.poison := rfl
@[simp] theorem State.clearBytes_scrambled (lo hi : Nat) : (s.clearBytes lo hi).scrambled
    = cutScramble lo hi s.scrambled := rfl
@[simp] theorem State.clearBytes_retired (lo hi : Nat) : (s.clearBytes lo hi).retired = s.retired := rfl
@[simp] theorem State.clearBytes_retireMark (lo hi : Nat) : (s.clearBytes lo hi).retireMark
    = s.retireMark := rfl
@[simp] theorem State.clearBytes_caches (lo hi : Nat) : (s.clearBytes lo hi).caches = s.caches := rfl
@[simp] theorem State.clearBytes_channels (lo hi : Nat) : (s.clearBytes lo hi).channels = s.channels := rfl
@[simp] theorem State.clearBytes_ctxs (lo hi : Nat) : (s.clearBytes lo hi).ctxs = s.ctxs := rfl
@[simp] theorem State.clearBytes_queues (lo hi : Nat) : (s.clearBytes lo hi).queues = s.queues := rfl
@[simp] theorem State.clearBytes_fetchCtr (lo hi : Nat) : (s.clearBytes lo hi).fetchCtr = s.fetchCtr := rfl
@[simp] theorem State.clearBytes_delash (lo hi : Nat) : (s.clearBytes lo hi).delash = s.delash := rfl
@[simp] theorem State.clearBytes_plumb (lo hi : Nat) : (s.clearBytes lo hi).plumb = s.plumb := rfl
@[simp] theorem State.clearBytes_engines (lo hi : Nat) : (s.clearBytes lo hi).engines = s.engines := rfl
@[simp] theorem State.clearBytes_replay (lo hi : Nat) : (s.clearBytes lo hi).replay = s.replay := rfl
@[simp] theorem State.clearBytes_net (lo hi : Nat) : (s.clearBytes lo hi).net = s.net := rfl
@[simp] theorem State.clearBytes_fabric (lo hi : Nat) : (s.clearBytes lo hi).fabric = s.fabric := rfl
@[simp] theorem State.clearBytes_phys (lo hi : Nat) : (s.clearBytes lo hi).phys = s.phys := rfl
@[simp] theorem State.clearBytes_sectors (lo hi : Nat) : (s.clearBytes lo hi).sectors = s.sectors := rfl
@[simp] theorem State.clearBytes_xchk (lo hi : Nat) : (s.clearBytes lo hi).xchk = s.xchk := rfl
@[simp] theorem State.clearBytes_faults (lo hi : Nat) : (s.clearBytes lo hi).faults = s.faults := rfl
@[simp] theorem State.clearBytes_flash (lo hi : Nat) : (s.clearBytes lo hi).flash = s.flash := rfl
@[simp] theorem State.clearBytes_boot (lo hi : Nat) : (s.clearBytes lo hi).boot = s.boot := rfl
@[simp] theorem State.clearBytes_power (lo hi : Nat) : (s.clearBytes lo hi).power = s.power := rfl
@[simp] theorem State.clearBytes_core (lo hi : Nat) (c₁ : Nat) : (s.clearBytes lo hi).core c₁
    = s.core c₁ := rfl
@[simp] theorem State.clearBytes_tile (lo hi : Nat) (t₁ : Nat) : (s.clearBytes lo hi).tile t₁
    = s.tile t₁ := rfl
@[simp] theorem State.clearBytes_ctx (lo hi : Nat) (k₁ : Nat) : (s.clearBytes lo hi).ctx k₁
    = s.ctx k₁ := rfl
@[simp] theorem State.clearBytes_sector (lo hi : Nat) (n₁ : Nat) : (s.clearBytes lo hi).sector n₁
    = s.sector n₁ := rfl
@[simp] theorem State.clearBytes_queue (lo hi : Nat) (f₁ j₁ : Nat) : (s.clearBytes lo hi).queue f₁ j₁
    = s.queue f₁ j₁ := rfl
@[simp] theorem State.clearBytes_port (lo hi : Nat) (p₁ : Nat) : (s.clearBytes lo hi).port p₁
    = s.port p₁ := rfl
@[simp] theorem State.clearBytes_engine (lo hi : Nat) (e₁ : Nat) : (s.clearBytes lo hi).engine e₁
    = s.engine e₁ := rfl
@[simp] theorem State.clearBytes_mailbox (lo hi : Nat) (f₁ : Nat) : (s.clearBytes lo hi).mailbox f₁
    = s.mailbox f₁ := rfl
@[simp] theorem State.clearBytes_channel (lo hi : Nat) (n₁ : Nat) : (s.clearBytes lo hi).channel n₁
    = s.channel n₁ := rfl
@[simp] theorem State.clearBytes_phy (lo hi : Nat) (p₁ : Nat) : (s.clearBytes lo hi).phy p₁
    = s.phy p₁ := rfl

/-! ### A part is read after it is written -/

theorem State.core_setCore (c d : Nat) (x : Core) :
    (s.setCore c x).core d = if d = c then x else s.core d := Tab.get_set _ _ _ _ _
theorem State.tile_setTile (t u : Nat) (x : Tile) :
    (s.setTile t x).tile u = if u = t then x else s.tile u := Tab.get_set _ _ _ _ _
theorem State.ctx_setCtx (k j : Nat) (x : Ctx) :
    (s.setCtx k x).ctx j = if j = k then x else s.ctx j := Tab.get_set _ _ _ _ _
theorem State.sector_setSector (n m : Nat) (x : Sector) :
    (s.setSector n x).sector m = if m = n then x else s.sector m := Tab.get_set _ _ _ _ _
theorem State.port_setPort (p q : Nat) (x : Port) :
    (s.setPort p x).port q = if q = p then x else s.port q := Tab.get_set _ _ _ _ _
theorem State.engine_setEngine (e d : Nat) (x : Engine) :
    (s.setEngine e x).engine d = if d = e then x else s.engine d := Tab.get_set _ _ _ _ _
theorem State.queue_setQueue (f j g i : Nat) (x : HostQueue) :
    (s.setQueue f j x).queue g i = if g * 16 + i = f * 16 + j then x else s.queue g i :=
  Tab.get_set _ _ _ _ _
theorem State.mailbox_modMailbox (f g : Nat) (h : Mailbox → Mailbox) :
    (s.modMailbox f h).mailbox g = if g = f then h (s.mailbox f) else s.mailbox g :=
  Tab.get_set _ _ _ _ _
theorem State.channel_modChannel (n m : Nat) (f : MemChannel → MemChannel) :
    (s.modChannel n f).channel m = if m = n then f (s.channel n) else s.channel m :=
  Tab.get_set _ _ _ _ _
theorem State.phy_modPhy (p q : Nat) (f : Phys → Phys) :
    (s.modPhy p f).phy q = if q = p then f (s.phy p) else s.phy q := by
  simp only [State.phy, State.modPhy, Tab.get_set]
  split <;> rfl

@[simp] theorem State.core_setCore_same (c : Nat) (x : Core) : (s.setCore c x).core c = x := by
  simp [State.core_setCore]
@[simp] theorem State.tile_setTile_same (t : Nat) (x : Tile) : (s.setTile t x).tile t = x := by
  simp [State.tile_setTile]
@[simp] theorem State.ctx_setCtx_same (k : Nat) (x : Ctx) : (s.setCtx k x).ctx k = x := by
  simp [State.ctx_setCtx]
@[simp] theorem State.sector_setSector_same (n : Nat) (x : Sector) : (s.setSector n x).sector n = x := by
  simp [State.sector_setSector]
@[simp] theorem State.port_setPort_same (p : Nat) (x : Port) : (s.setPort p x).port p = x := by
  simp [State.port_setPort]

/-! ### An update by a function is the update with its value -/

@[simp] theorem State.modCore_eq (c : Nat) (f : Core → Core) : s.modCore c f = s.setCore c (f (s.core c)) := rfl
@[simp] theorem State.modTile_eq (t : Nat) (f : Tile → Tile) : s.modTile t f = s.setTile t (f (s.tile t)) := rfl
@[simp] theorem State.modCtx_eq (k : Nat) (f : Ctx → Ctx) : s.modCtx k f = s.setCtx k (f (s.ctx k)) := rfl
@[simp] theorem State.modSector_eq (n : Nat) (f : Sector → Sector) :
    s.modSector n f = s.setSector n (f (s.sector n)) := rfl
@[simp] theorem State.modPort_eq (p : Nat) (f : Port → Port) : s.modPort p f = s.setPort p (f (s.port p)) := rfl
@[simp] theorem State.modQueue_eq (f j : Nat) (g : HostQueue → HostQueue) :
    s.modQueue f j g = s.setQueue f j (g (s.queue f j)) := rfl
@[simp] theorem State.modPlace_eq (e i : Nat) (f : Place → Place) :
    s.modPlace e i f = s.setEngine e ((s.engine e).setPlace i (f (s.place e i))) := rfl
@[simp] theorem State.setRegion_eq (t n : Nat) (r : Region) :
    s.setRegion t n r = s.setTile t { s.tile t with regions := Tab.set (s.tile t).regions n r } := rfl
@[simp] theorem State.modRegion_eq (t n : Nat) (f : Region → Region) :
    s.modRegion t n f = s.setRegion t n (f (s.region t n)) := rfl

/-- Every core under a predicate is changed, no other field. -/
theorem State.modCores_frame (p : Nat → Bool) (f : Nat → Core → Core) :
    s.modCores p f = { s with cores := (s.modCores p f).cores } := rfl
/-- Every tile under a predicate is changed, no other field. -/
theorem State.modTiles_frame (p : Nat → Bool) (f : Nat → Tile → Tile) :
    s.modTiles p f = { s with tiles := (s.modTiles p f).tiles } := rfl
/-- A free value is taken: only the counter moves. -/
theorem State.fresh_frame : s.fresh = (s.freeCtr, { s with freeCtr := s.freeCtr + 1 }) := rfl

end Sys2Proof.Machine
end

