-- ==== Sys2Proof/Laws/Delash.lean ====
section
/-! SUPPORT. Serving a request: a request that stands at the front and passes its checks is answered as
its command says, and an answer is read where its source reads it. -/
namespace Sys2Proof.Machine

@[simp] theorem State.takeFront_nil (s : State) (h : s.delash.order = []) : s.takeFront = s := by
  unfold State.takeFront; rw [h]; rfl

/-- An answer changes the mailboxes, the saved responses and the outputs only. -/
theorem State.place'_frame (s : State) (f : Nat) (rsp : List Byte) :
    ∃ d o, s.place' f rsp = { s with delash := d, out := o } ∧ d.order = s.delash.order
      ∧ d.saved = s.delash.saved ∧ d.ops = s.delash.ops := by
  simp only [State.place']
  split
  · exact ⟨_, _, rfl, rfl, rfl, rfl⟩
  · exact ⟨_, _, rfl, rfl, rfl, rfl⟩

theorem State.answer_frame (s : State) (src : Src) (st : Nat) (p : List Byte) :
    ∃ d o, s.answer src st p = { s with delash := d, out := o } ∧ d.order = s.delash.order
      ∧ d.ops = s.delash.ops := by
  unfold State.answer
  split
  · exact ⟨_, _, rfl, rfl, rfl⟩
  · split
    · simp only
      split
      · obtain ⟨d, o, h, h1, -, h2⟩ := s.place'_frame _ (response _ st p)
        exact ⟨d, o, h, h1, h2⟩
      · obtain ⟨d, o, h, h1, -, h2⟩ := State.place'_frame (s.modDelash _) _ (response _ st p)
        exact ⟨d, o, h, h1, h2⟩
    · exact ⟨_, _, rfl, rfl, rfl⟩

theorem State.takeFront_answer (s : State) (src : Src) (st : Nat) (p : List Byte)
    (h : s.delash.order = []) : (s.answer src st p).takeFront = s.answer src st p := by
  obtain ⟨d, o, e, h1, -⟩ := s.answer_frame src st p
  exact State.takeFront_nil _ (by rw [e]; exact h1.trans h)

/-- A request at the front that passes its checks gets what the command's body replies. -/
theorem State.serveIf_fronts (s : State) (src : Src) (op : Nat) (req : List Byte)
    (sub : List Byte → Bool) (body : State → List Byte → Reply) (h : Fronts s src op req)
    (hs : sub req = true) :
    s.serveIf src op sub body =
      (match (body (popped s) req).status with
        | some st => (body (popped s) req).st.answer src st (body (popped s) req).payload
        | none => (body (popped s) req).st).takeFront := by
  obtain ⟨ho, hr, hop, hp, hg, hc, hb⟩ := h
  unfold State.serveIf
  simp only [ho, hr, hop, hp, hs, hg, hc, ne_eq, not_true_eq_false, Bool.false_eq_true, Bool.not_true,
    or_self, if_false]
  cases hk : rqCtx req with
  | none => rfl
  | some k =>
    have hbusy : (s.ctxBusy k && op != 0x0202 && op != 0x0203) = false := by
      by_cases h1 : op = 0x0202
      · simp [h1]
      · by_cases h2 : op = 0x0203
        · simp [h2]
        · have hz := hb h1 h2
          rw [hk] at hz
          simp only [Option.all_some, Bool.not_eq_true'] at hz
          simp [hz]
    simp only [hbusy, Bool.false_eq_true, if_false]
    rfl

/-- A reply with a status, from a body that leaves the order of requests, is the answer. -/
theorem State.serveIf_answers (s t : State) (src : Src) (op st : Nat) (req p : List Byte)
    (sub : List Byte → Bool) (body : State → List Byte → Reply) (h : Fronts s src op req)
    (hs : sub req = true) (hb : body (popped s) req = { st := t, status := some st, payload := p })
    (ho : t.delash.order = []) : s.serveIf src op sub body = t.answer src st p := by
  rw [s.serveIf_fronts src op req sub body h hs, hb]
  exact t.takeFront_answer src st p ho

theorem State.serve_answers (s t : State) (src : Src) (op st : Nat) (req p : List Byte)
    (body : State → List Byte → Reply) (h : Fronts s src op req)
    (hb : body (popped s) req = { st := t, status := some st, payload := p })
    (ho : t.delash.order = []) : s.serve src op body = t.answer src st p :=
  s.serveIf_answers t src op st req p _ body h rfl hb ho

/-- After an answer the response stands where the source reads it. -/
theorem State.answer_replied (s : State) (src : Src) (st : Nat) (req p : List Byte)
    (h : s.request src = some req) : Replied (s.answer src st p) src req st p := by
  cases src with
  | mailbox f =>
    unfold State.answer
    rw [h]
    simp only [Replied, State.place']
    split <;> split <;>
      simp [State.mailbox_modMailbox]
  | bmc =>
    unfold State.answer
    rw [h]
    exact ⟨List.mem_cons_self, rfl⟩

end Sys2Proof.Machine
end

