-- ==== Sys2Proof/Laws/Sets.lean ====
section
/-! SUPPORT. Interval sets: what is in after a removal and after an insertion. -/
namespace Sys2Proof.Machine

theorem ISet.mem_append (s t : ISet) (x : Nat) : ISet.mem (s ++ t) x = (ISet.mem s x || ISet.mem t x) := by
  induction s with
  | nil => rfl
  | cons i s ih => obtain ⟨a, b⟩ := i; simp [ISet.mem, ih, Bool.or_assoc]

/-- A removal takes exactly its interval out. -/
theorem ISet.mem_remove (lo hi : Nat) (s : ISet) (x : Nat) :
    ISet.mem (ISet.remove lo hi s) x = (ISet.mem s x && !(decide (lo ≤ x) && decide (x < hi))) := by
  induction s with
  | nil => rfl
  | cons i s ih =>
    obtain ⟨a, b⟩ := i
    have h1 : ISet.mem (if a < min b lo then [(a, min b lo)] else []) x
        = (decide (a ≤ x) && decide (x < min b lo)) := by
      split
      · simp [ISet.mem]
      · rw [Bool.eq_iff_iff]; simp [ISet.mem]; omega
    have h2 : ISet.mem (if max a hi < b then [(max a hi, b)] else []) x
        = (decide (max a hi ≤ x) && decide (x < b)) := by
      split
      · simp [ISet.mem]
      · rw [Bool.eq_iff_iff]; simp [ISet.mem]; omega
    simp only [ISet.remove, ISet.mem_append, h1, h2, ih, ISet.mem]
    rw [Bool.eq_iff_iff]
    simp only [Bool.or_eq_true, Bool.and_eq_true, decide_eq_true_eq, Bool.not_eq_true',
      Bool.and_eq_false_iff, decide_eq_false_iff_not]
    by_cases hm : ISet.mem s x = true
    · simp only [hm, true_and, or_true]; omega
    · simp only [hm, false_and, or_false, Bool.false_eq_true]; omega

/-- An insertion puts exactly its interval in. -/
theorem ISet.mem_insert (lo hi : Nat) (s : ISet) (x : Nat) :
    ISet.mem (ISet.insert lo hi s) x = (ISet.mem s x || (decide (lo ≤ x) && decide (x < hi))) := by
  unfold ISet.insert
  split
  · simp only [ISet.mem, ISet.mem_remove]
    cases ISet.mem s x <;> cases decide (lo ≤ x) <;> cases decide (x < hi) <;> rfl
  · have : (decide (lo ≤ x) && decide (x < hi)) = false := by
      rw [Bool.eq_false_iff]; simp; omega
    simp [this]

end Sys2Proof.Machine
end

