-- ==== Sys2Proof/Laws/Memory.lean ====
section
/-! SUPPORT. The memory operations: each keeps the canonical form of the two byte memories, says which
fields it may change, and a byte written is the byte read. -/
namespace Sys2Proof.Machine

/-! ### The fields a memory operation may change -/

theorem State.settle_frame (s : State) (a : Nat) : ∃ m c t p z, s.settle a
    = { s with mem := m, scrambled := c, tierPz := t, spadPz := p, poison := z } := by
  unfold State.settle
  split
  · split
    · exact ⟨_, _, _, _, _, rfl⟩
    · exact ⟨_, _, _, _, _, rfl⟩
  · exact ⟨_, _, _, _, _, rfl⟩

theorem State.endReservations_frame (s : State) (a : Nat) : ∃ t, s.endReservations a
    = { s with tiles := t } := by
  unfold State.endReservations
  split <;> exact ⟨_, rfl⟩

/-- A byte write changes memory, pending-zero state, poison and the reservations of its tile only. -/
theorem State.writeByte_frame (s : State) (a : Nat) (b : Byte) : ∃ m c t p z u, s.writeByte a b
    = { s with mem := m, scrambled := c, tierPz := t, spadPz := p, poison := z, tiles := u } := by
  obtain ⟨m, c, t, p, z, h⟩ := s.settle_frame a
  obtain ⟨u, h2⟩ := (s.settle a).endReservations_frame a
  simp only [State.writeByte]
  rw [h2, h]
  exact ⟨_, _, _, _, _, _, rfl⟩

theorem State.writeBytes_frame (bs : List Byte) (s : State) (a : Nat) : ∃ m c t p z u,
    s.writeBytes a bs
      = { s with mem := m, scrambled := c, tierPz := t, spadPz := p, poison := z, tiles := u } := by
  induction bs generalizing s a with
  | nil => exact ⟨_, _, _, _, _, _, rfl⟩
  | cons b bs ih =>
    obtain ⟨m, c, t, p, z, u, h⟩ := s.writeByte_frame a b
    obtain ⟨m', c', t', p', z', u', h'⟩ := ih (s.writeByte a b) (a + 1)
    exact ⟨m', c', t', p', z', u', h'.trans (by rw [h])⟩

theorem State.writePriv_frame (s : State) (c off : Nat) (b : Byte) : ∃ m z,
    s.writePriv c off b = { s with priv := m, privPz := z } := by
  unfold State.writePriv
  simp only
  split <;> exact ⟨_, _, rfl⟩

theorem State.writePrivBytes_frame (bs : List Byte) (s : State) (c off : Nat) : ∃ m z,
    s.writePrivBytes c off bs = { s with priv := m, privPz := z } := by
  induction bs generalizing s off with
  | nil => exact ⟨_, _, rfl⟩
  | cons b bs ih =>
    obtain ⟨m, z, h⟩ := s.writePriv_frame c off b
    obtain ⟨m', z', h'⟩ := ih (s.writePriv c off b) (off + 1)
    exact ⟨m', z', h'.trans (by rw [h])⟩

theorem State.writePlace_frame (s : State) (l : Nat) (bs : List Byte) : ∃ m c t p u z,
    s.writePlace l bs
      = { s with mem := m, scrambled := c, tierPz := t, spadPz := p, tiles := u, poison := z } := by
  obtain ⟨m, c, t, p, _, u, h⟩ := State.writeBytes_frame bs s l
  exact ⟨m, c, t, p, u, _, by rw [State.writePlace, h]⟩

/-! ### The canonical form -/

theorem State.clearBytes_wf (s : State) (lo hi : Nat) (h : Cells.wf s.mem = true) :
    Cells.wf (s.clearBytes lo hi).mem = true := Cells.clear_wf _ _ _ h

theorem State.settle_wf (s : State) (a : Nat) (h : Cells.wf s.mem = true) :
    Cells.wf (s.settle a).mem = true := by
  unfold State.settle
  split
  · split <;> exact Cells.clear_wf _ _ _ h
  · exact h

theorem State.endReservations_mem (s : State) (a : Nat) : (s.endReservations a).mem = s.mem := by
  obtain ⟨t, h⟩ := s.endReservations_frame a; rw [h]

theorem State.writeByte_wf (s : State) (a : Nat) (b : Byte) (h : Cells.wf s.mem = true) :
    Cells.wf (s.writeByte a b).mem = true := by
  simp only [State.writeByte]
  exact Cells.write_wf _ _ _ (by rw [State.endReservations_mem]; exact s.settle_wf a h)

theorem State.writeByte_priv (s : State) (a : Nat) (b : Byte) : (s.writeByte a b).priv = s.priv := by
  obtain ⟨m, c, t, p, z, u, h⟩ := s.writeByte_frame a b; rw [h]

theorem State.writeBytes_wf (bs : List Byte) (s : State) (a : Nat) (h : Cells.wf s.mem = true) :
    Cells.wf (s.writeBytes a bs).mem = true := by
  induction bs generalizing s a with
  | nil => exact h
  | cons b bs ih => exact ih _ _ (s.writeByte_wf a b h)

theorem State.writeBytes_priv (bs : List Byte) (s : State) (a : Nat) :
    (s.writeBytes a bs).priv = s.priv := by
  obtain ⟨m, c, t, p, z, u, h⟩ := State.writeBytes_frame bs s a; rw [h]

theorem State.writeWord_wf (s : State) (t w : Nat) (v : Word) (h : Cells.wf s.mem = true) :
    Cells.wf (s.writeWord t w v).mem = true := State.writeBytes_wf _ s _ h

theorem State.scramble_wf (s : State) (lo hi : Nat) (h : Cells.wf s.mem = true) :
    Cells.wf (s.scramble lo hi).mem = true := Cells.clear_wf _ _ _ h

theorem State.writePriv_wf (s : State) (c off : Nat) (b : Byte) (h : Cells.wf s.priv = true) :
    Cells.wf (s.writePriv c off b).priv = true := by
  simp only [State.writePriv]
  split
  · exact Cells.write_wf _ _ _ (Cells.clear_wf _ _ _ h)
  · exact Cells.write_wf _ _ _ h

theorem State.writePriv_mem (s : State) (c off : Nat) (b : Byte) :
    (s.writePriv c off b).mem = s.mem := by
  obtain ⟨m, z, h⟩ := s.writePriv_frame c off b; rw [h]

theorem State.writePrivBytes_wf (bs : List Byte) (s : State) (c off : Nat)
    (h : Cells.wf s.priv = true) : Cells.wf (s.writePrivBytes c off bs).priv = true := by
  induction bs generalizing s off with
  | nil => exact h
  | cons b bs ih => exact ih _ _ (s.writePriv_wf c off b h)

theorem State.writePrivBytes_mem (bs : List Byte) (s : State) (c off : Nat) :
    (s.writePrivBytes c off bs).mem = s.mem := by
  obtain ⟨m, z, h⟩ := State.writePrivBytes_frame bs s c off; rw [h]

theorem State.writePlace_wf (s : State) (l : Nat) (bs : List Byte) (h : Cells.wf s.mem = true) :
    Cells.wf (s.writePlace l bs).mem = true := State.writeBytes_wf bs s l h

theorem State.writePlace_priv (s : State) (l : Nat) (bs : List Byte) :
    (s.writePlace l bs).priv = s.priv := State.writeBytes_priv bs s l

theorem State.writeTier_wf (s : State) (a : Nat) (bs : List Byte) (h : Cells.wf s.mem = true) :
    Cells.wf (s.writeTier a bs).mem = true := by
  unfold State.writeTier
  generalize cutAt 2048 a bs.length = l
  suffices ∀ t : State, Cells.wf t.mem = true → Cells.wf (l.foldl (fun t p =>
      t.writePlace (s.loc p.1) ((bs.drop (p.1 - a)).take p.2)) t).mem = true from this s h
  induction l with
  | nil => exact fun t ht => ht
  | cons p l ih => exact fun t ht => ih _ (t.writePlace_wf _ _ ht)

theorem State.writeTier_priv (s : State) (a : Nat) (bs : List Byte) :
    (s.writeTier a bs).priv = s.priv := by
  unfold State.writeTier
  generalize cutAt 2048 a bs.length = l
  suffices ∀ t : State, (l.foldl (fun t p =>
      t.writePlace (s.loc p.1) ((bs.drop (p.1 - a)).take p.2)) t).priv = t.priv from this s
  induction l with
  | nil => exact fun _ => rfl
  | cons p l ih => exact fun t => (ih _).trans (t.writePlace_priv _ _)

theorem State.wipeSector_wf (s : State) (n : Nat) (h : Cells.wf s.priv = true) :
    Cells.wf (s.wipeSector n).priv = true := Cells.clear_wf _ _ _ h

theorem State.wipeSector_mem (s : State) (n : Nat) : (s.wipeSector n).mem = s.mem := rfl

theorem State.reinitTile_wf (s : State) (t : Nat) (h : Cells.wf s.mem = true)
    (hp : Cells.wf s.priv = true) :
    Cells.wf (s.reinitTile t).mem = true ∧ Cells.wf (s.reinitTile t).priv = true :=
  ⟨Cells.clear_wf _ _ _ h, Cells.clear_wf _ _ _ hp⟩

theorem State.loseMemory_wf (s : State) :
    Cells.wf s.loseMemory.mem = true ∧ Cells.wf s.loseMemory.priv = true := ⟨rfl, rfl⟩

/-- A poisoning keeps the canonical form: it stores nothing but the zeros of the units it settles. -/
theorem State.poisonTier_wf (s : State) (a n : Nat) (h : Cells.wf s.mem = true) :
    Cells.wf (s.poisonTier a n).mem = true := by
  have inner : ∀ (f : Nat → Nat) (l : List Nat) (t : State), Cells.wf t.mem = true →
      Cells.wf (l.foldl (fun t i => t.settle (f i)) t).mem = true := by
    intro f l
    induction l with
    | nil => exact fun _ ht => ht
    | cons i l ih => exact fun t ht => ih _ (t.settle_wf _ ht)
  have outer : ∀ (l : List (Nat × Nat)) (t : State), Cells.wf t.mem = true →
      Cells.wf (l.foldl (fun s p => (List.range ((p.1 + p.2 - 1) / 4096 + 1 - p.1 / 4096)).foldl
        (fun s i => s.settle ((p.1 / 4096 + i) * 4096)) s) t).mem = true := by
    intro l
    induction l with
    | nil => exact fun _ ht => ht
    | cons p l ih => exact fun t ht => ih _ (inner (fun i => (p.1 / 4096 + i) * 4096) _ t ht)
  exact outer _ s h

theorem State.homeGranules_mem (s : State) (k : Nat) (rs : ISet) :
    (s.homeGranules k rs).mem = s.mem := rfl

/-- An access through the sector stores changes their lines alone. -/
theorem State.touch_frame (s : State) (a n : Nat) (write : Bool) : ∃ c, s.touch a n write = { s with caches := c } := by
  unfold State.touch
  split
  · exact ⟨s.caches, rfl⟩
  · have fold : ∀ (l : List Nat) (t : State), ∃ c, l.foldl (fun t line =>
        { t with caches := Tab.mod [] t.caches (cacheKey (line * 128)) fun ls => touchSet ls line write }) t
        = { t with caches := c } := by
      intro l
      induction l with
      | nil => exact fun t => ⟨t.caches, rfl⟩
      | cons x l ih => exact fun t => (ih _).imp fun _ h => h
    exact fold _ s

theorem State.touchRead_frame (s : State) (st a n : Nat) : ∃ c, s.touchRead st a n = { s with caches := c } := by
  unfold State.touchRead
  split
  · exact s.touch_frame a n false
  · exact ⟨s.caches, rfl⟩

/-- A range becomes unpredictable: the cells and ranges of memory, and the number of free values, change alone. -/
theorem State.scramble_frame (s : State) (lo hi : Nat) :
    s.scramble lo hi = { s with
      freeCtr := s.freeCtr + 1, mem := Cells.clear s.mem lo hi
      scrambled := ⟨lo, hi, s.freeCtr⟩ :: cutScramble lo hi s.scrambled } := rfl

theorem State.openDrainArea_wf (s : State) (n : Nat) (h : Cells.wf s.mem = true) :
    Cells.wf (s.openDrainArea n).mem = true := s.scramble_wf _ _ h

theorem State.loseRange_wf (s : State) (r : Nat × Nat) (h : Cells.wf s.mem = true) :
    Cells.wf (s.loseRange r).mem = true := s.scramble_wf _ _ h

/-! ### A byte written is the byte read -/

/-- A byte of a scrambled range stays scrambled unless a cut takes it out. -/
theorem cutScramble_find (lo hi x : Nat) (rs : List Scramble) (hx : x < lo ∨ hi ≤ x) :
    ((cutScramble lo hi rs).find? fun r => decide (r.lo ≤ x) && decide (x < r.hi)).map (·.stamp)
      = (rs.find? fun r => decide (r.lo ≤ x) && decide (x < r.hi)).map (·.stamp) := by
  induction rs with
  | nil => rfl
  | cons r rs ih =>
    have e : cutScramble lo hi (r :: rs) =
        (if r.lo < min r.hi lo then [{ r with hi := min r.hi lo }] else []) ++
        (if max r.lo hi < r.hi then [{ r with lo := max r.lo hi }] else []) ++ cutScramble lo hi rs := rfl
    rw [e, List.find?_append, List.find?_append, List.find?_cons]
    have e1 : ((if r.lo < min r.hi lo then [({ r with hi := min r.hi lo } : Scramble)] else []).find?
        fun q => decide (q.lo ≤ x) && decide (x < q.hi)) =
        if r.lo ≤ x ∧ x < min r.hi lo then some { r with hi := min r.hi lo } else none := by
      by_cases h : r.lo < min r.hi lo
      · rw [if_pos h, List.find?_singleton]; simp only [Bool.and_eq_true, decide_eq_true_eq]
      · rw [if_neg h, if_neg (by omega)]; rfl
    have e2 : ((if max r.lo hi < r.hi then [({ r with lo := max r.lo hi } : Scramble)] else []).find?
        fun q => decide (q.lo ≤ x) && decide (x < q.hi)) =
        if max r.lo hi ≤ x ∧ x < r.hi then some { r with lo := max r.lo hi } else none := by
      by_cases h : max r.lo hi < r.hi
      · rw [if_pos h, List.find?_singleton]; simp only [Bool.and_eq_true, decide_eq_true_eq]
      · rw [if_neg h, if_neg (by omega)]; rfl
    rw [e1, e2]
    by_cases h : r.lo ≤ x ∧ x < r.hi
    · have hd : (decide (r.lo ≤ x) && decide (x < r.hi)) = true := by simpa using h
      simp only [hd]
      by_cases hl : x < lo
      · rw [if_pos (by omega)]; rfl
      · rw [if_neg (by omega), if_pos (by omega)]; rfl
    · have hd : (decide (r.lo ≤ x) && decide (x < r.hi)) = false := by simpa using h
      simp only [hd]
      rw [if_neg (by omega), if_neg (by omega)]
      simpa using ih

end Sys2Proof.Machine
end

