-- ==== Sys2Proof/Laws/Ops.lean ====
section
/-! SUPPORT. The shared operations of the scalar unit, of free values, outputs and alerts: what each
changes and what it leaves. -/
namespace Sys2Proof.Machine

variable (x : Core)

/-! ### advance -/

@[simp] theorem Core.advance_run (pc : Word) (short : Bool) : (x.advance pc short).run = x.run := rfl
@[simp] theorem Core.advance_pc (pc : Word) (short : Bool) : (x.advance pc short).pc = pc + (if short then 2 else 4) := rfl
@[simp] theorem Core.advance_x (pc : Word) (short : Bool) : (x.advance pc short).x = x.x := rfl
@[simp] theorem Core.advance_csr (pc : Word) (short : Bool) : (x.advance pc short).csr = x.csr := rfl
@[simp] theorem Core.advance_inTrap (pc : Word) (short : Bool) : (x.advance pc short).inTrap = x.inTrap := rfl
@[simp] theorem Core.advance_wait (pc : Word) (short : Bool) : (x.advance pc short).wait = none := rfl
@[simp] theorem Core.advance_waitShort (pc : Word) (short : Bool) : (x.advance pc short).waitShort = false := rfl
@[simp] theorem Core.advance_prog (pc : Word) (short : Bool) : (x.advance pc short).prog = true := rfl
@[simp] theorem Core.advance_td (pc : Word) (short : Bool) : (x.advance pc short).td = x.td := rfl
@[simp] theorem Core.advance_srseq (pc : Word) (short : Bool) : (x.advance pc short).srseq = x.srseq := rfl
@[simp] theorem Core.advance_btx (pc : Word) (short : Bool) : (x.advance pc short).btx = x.btx := rfl
@[simp] theorem Core.advance_nextBtx (pc : Word) (short : Bool) : (x.advance pc short).nextBtx = x.nextBtx := rfl
@[simp] theorem Core.advance_queues (pc : Word) (short : Bool) : (x.advance pc short).queues = x.queues := rfl
@[simp] theorem Core.advance_nextEntry (pc : Word) (short : Bool) : (x.advance pc short).nextEntry = x.nextEntry := rfl
@[simp] theorem Core.advance_binds (pc : Word) (short : Bool) : (x.advance pc short).binds = x.binds := rfl
@[simp] theorem Core.advance_txData (pc : Word) (short : Bool) : (x.advance pc short).txData = x.txData := rfl
@[simp] theorem Core.advance_chnBadWrite (pc : Word) (short : Bool) : (x.advance pc short).chnBadWrite = x.chnBadWrite := rfl
@[simp] theorem Core.advance_df (pc : Word) (short : Bool) : (x.advance pc short).df = x.df := rfl
@[simp] theorem Core.advance_krn (pc : Word) (short : Bool) : (x.advance pc short).krn = x.krn := rfl
@[simp] theorem Core.advance_atom (pc : Word) (short : Bool) : (x.advance pc short).atom = x.atom := rfl
@[simp] theorem Core.advance_sync (pc : Word) (short : Bool) : (x.advance pc short).sync = x.sync := rfl
@[simp] theorem Core.advance_kept (pc : Word) (short : Bool) : (x.advance pc short).kept = x.kept := rfl

/-! ### hold -/

@[simp] theorem Core.hold_run (pc : Word) (short : Bool) (w : Wait) : (x.hold pc short w).run = x.run := rfl
@[simp] theorem Core.hold_pc (pc : Word) (short : Bool) (w : Wait) : (x.hold pc short w).pc = pc := rfl
@[simp] theorem Core.hold_x (pc : Word) (short : Bool) (w : Wait) : (x.hold pc short w).x = x.x := rfl
@[simp] theorem Core.hold_csr (pc : Word) (short : Bool) (w : Wait) : (x.hold pc short w).csr = x.csr := rfl
@[simp] theorem Core.hold_inTrap (pc : Word) (short : Bool) (w : Wait) : (x.hold pc short w).inTrap = x.inTrap := rfl
@[simp] theorem Core.hold_wait (pc : Word) (short : Bool) (w : Wait) : (x.hold pc short w).wait = some w := rfl
@[simp] theorem Core.hold_waitShort (pc : Word) (short : Bool) (w : Wait) : (x.hold pc short w).waitShort = short := rfl
@[simp] theorem Core.hold_prog (pc : Word) (short : Bool) (w : Wait) : (x.hold pc short w).prog = x.prog := rfl
@[simp] theorem Core.hold_td (pc : Word) (short : Bool) (w : Wait) : (x.hold pc short w).td = x.td := rfl
@[simp] theorem Core.hold_srseq (pc : Word) (short : Bool) (w : Wait) : (x.hold pc short w).srseq = x.srseq := rfl
@[simp] theorem Core.hold_btx (pc : Word) (short : Bool) (w : Wait) : (x.hold pc short w).btx = x.btx := rfl
@[simp] theorem Core.hold_nextBtx (pc : Word) (short : Bool) (w : Wait) : (x.hold pc short w).nextBtx = x.nextBtx := rfl
@[simp] theorem Core.hold_queues (pc : Word) (short : Bool) (w : Wait) : (x.hold pc short w).queues = x.queues := rfl
@[simp] theorem Core.hold_nextEntry (pc : Word) (short : Bool) (w : Wait) : (x.hold pc short w).nextEntry = x.nextEntry := rfl
@[simp] theorem Core.hold_binds (pc : Word) (short : Bool) (w : Wait) : (x.hold pc short w).binds = x.binds := rfl
@[simp] theorem Core.hold_txData (pc : Word) (short : Bool) (w : Wait) : (x.hold pc short w).txData = x.txData := rfl
@[simp] theorem Core.hold_chnBadWrite (pc : Word) (short : Bool) (w : Wait) : (x.hold pc short w).chnBadWrite = x.chnBadWrite := rfl
@[simp] theorem Core.hold_df (pc : Word) (short : Bool) (w : Wait) : (x.hold pc short w).df = x.df := rfl
@[simp] theorem Core.hold_krn (pc : Word) (short : Bool) (w : Wait) : (x.hold pc short w).krn = x.krn := rfl
@[simp] theorem Core.hold_atom (pc : Word) (short : Bool) (w : Wait) : (x.hold pc short w).atom = x.atom := rfl
@[simp] theorem Core.hold_sync (pc : Word) (short : Bool) (w : Wait) : (x.hold pc short w).sync = x.sync := rfl
@[simp] theorem Core.hold_kept (pc : Word) (short : Bool) (w : Wait) : (x.hold pc short w).kept = x.kept := rfl

/-! ### enterTrap -/

@[simp] theorem Core.enterTrap_run (pc cause tval : Word) : (x.enterTrap pc cause tval).run = x.run := rfl
@[simp] theorem Core.enterTrap_x (pc cause tval : Word) : (x.enterTrap pc cause tval).x = x.x := rfl
@[simp] theorem Core.enterTrap_inTrap (pc cause tval : Word) : (x.enterTrap pc cause tval).inTrap = true := rfl
@[simp] theorem Core.enterTrap_wait (pc cause tval : Word) : (x.enterTrap pc cause tval).wait = none := rfl
@[simp] theorem Core.enterTrap_waitShort (pc cause tval : Word) : (x.enterTrap pc cause tval).waitShort = false := rfl
@[simp] theorem Core.enterTrap_prog (pc cause tval : Word) : (x.enterTrap pc cause tval).prog = x.prog := rfl
@[simp] theorem Core.enterTrap_td (pc cause tval : Word) : (x.enterTrap pc cause tval).td = x.td := rfl
@[simp] theorem Core.enterTrap_srseq (pc cause tval : Word) : (x.enterTrap pc cause tval).srseq = x.srseq := rfl
@[simp] theorem Core.enterTrap_btx (pc cause tval : Word) : (x.enterTrap pc cause tval).btx = x.btx := rfl
@[simp] theorem Core.enterTrap_nextBtx (pc cause tval : Word) : (x.enterTrap pc cause tval).nextBtx = x.nextBtx := rfl
@[simp] theorem Core.enterTrap_queues (pc cause tval : Word) : (x.enterTrap pc cause tval).queues = x.queues := rfl
@[simp] theorem Core.enterTrap_nextEntry (pc cause tval : Word) : (x.enterTrap pc cause tval).nextEntry = x.nextEntry := rfl
@[simp] theorem Core.enterTrap_binds (pc cause tval : Word) : (x.enterTrap pc cause tval).binds = x.binds := rfl
@[simp] theorem Core.enterTrap_txData (pc cause tval : Word) : (x.enterTrap pc cause tval).txData = x.txData := rfl
@[simp] theorem Core.enterTrap_chnBadWrite (pc cause tval : Word) : (x.enterTrap pc cause tval).chnBadWrite = x.chnBadWrite := rfl
@[simp] theorem Core.enterTrap_df (pc cause tval : Word) : (x.enterTrap pc cause tval).df = x.df := rfl
@[simp] theorem Core.enterTrap_krn (pc cause tval : Word) : (x.enterTrap pc cause tval).krn = x.krn := rfl
@[simp] theorem Core.enterTrap_atom (pc cause tval : Word) : (x.enterTrap pc cause tval).atom = x.atom := rfl
@[simp] theorem Core.enterTrap_sync (pc cause tval : Word) : (x.enterTrap pc cause tval).sync = x.sync := rfl
@[simp] theorem Core.enterTrap_kept (pc cause tval : Word) : (x.enterTrap pc cause tval).kept = x.kept := rfl

/-! ### returnTrap -/

@[simp] theorem Core.returnTrap_run : (x.returnTrap).run = x.run := rfl
@[simp] theorem Core.returnTrap_pc : (x.returnTrap).pc = x.csr.mepc := rfl
@[simp] theorem Core.returnTrap_x : (x.returnTrap).x = x.x := rfl
@[simp] theorem Core.returnTrap_inTrap : (x.returnTrap).inTrap = false := rfl
@[simp] theorem Core.returnTrap_wait : (x.returnTrap).wait = x.wait := rfl
@[simp] theorem Core.returnTrap_waitShort : (x.returnTrap).waitShort = x.waitShort := rfl
@[simp] theorem Core.returnTrap_prog : (x.returnTrap).prog = x.prog := rfl
@[simp] theorem Core.returnTrap_td : (x.returnTrap).td = x.td := rfl
@[simp] theorem Core.returnTrap_srseq : (x.returnTrap).srseq = x.srseq := rfl
@[simp] theorem Core.returnTrap_btx : (x.returnTrap).btx = x.btx := rfl
@[simp] theorem Core.returnTrap_nextBtx : (x.returnTrap).nextBtx = x.nextBtx := rfl
@[simp] theorem Core.returnTrap_queues : (x.returnTrap).queues = x.queues := rfl
@[simp] theorem Core.returnTrap_nextEntry : (x.returnTrap).nextEntry = x.nextEntry := rfl
@[simp] theorem Core.returnTrap_binds : (x.returnTrap).binds = x.binds := rfl
@[simp] theorem Core.returnTrap_txData : (x.returnTrap).txData = x.txData := rfl
@[simp] theorem Core.returnTrap_chnBadWrite : (x.returnTrap).chnBadWrite = x.chnBadWrite := rfl
@[simp] theorem Core.returnTrap_df : (x.returnTrap).df = x.df := rfl
@[simp] theorem Core.returnTrap_krn : (x.returnTrap).krn = x.krn := rfl
@[simp] theorem Core.returnTrap_atom : (x.returnTrap).atom = x.atom := rfl
@[simp] theorem Core.returnTrap_sync : (x.returnTrap).sync = x.sync := rfl
@[simp] theorem Core.returnTrap_kept : (x.returnTrap).kept = x.kept := rfl

/-- Trap entry saves the pc, the cause and the value (12 R423; PRESUMED, log 15). -/
theorem Core.enterTrap_saves (pc cause tval : Word) : (x.enterTrap pc cause tval).csr.mepc = pc ∧
    (x.enterTrap pc cause tval).csr.mcause = cause ∧ (x.enterTrap pc cause tval).csr.mtval = tval ∧
    (x.enterTrap pc cause tval).csr.mtvec = x.csr.mtvec ∧
    (x.enterTrap pc cause tval).csr.mscratch = x.csr.mscratch ∧
    (x.enterTrap pc cause tval).csr.mie = x.csr.mie := ⟨rfl, rfl, rfl, rfl, rfl, rfl⟩

/-! ### Scalar registers -/

@[simp] theorem Core.reg_zero : x.reg 0 = 0 := rfl

/-- A register is read after it is written; x0 discards the write. -/
theorem Core.reg_setReg (r q : Nat) (v : Word) :
    (x.setReg r v).reg q = if q = r ∧ r ≠ 0 then v else x.reg q := by
  unfold Core.setReg Core.reg
  by_cases hr : r = 0
  · simp [hr]
  · simp only [if_neg hr, Tab.get_set]
    by_cases hq : q = r
    · subst hq; simp [hr]
    · simp [hq]

/-- A write of a register changes the registers only. -/
theorem Core.setReg_frame (r : Nat) (v : Word) : x.setReg r v = { x with x := (x.setReg r v).x } := by
  unfold Core.setReg; split <;> rfl

@[simp] theorem Core.setReg_run (r : Nat) (v : Word) : (x.setReg r v).run = x.run := by
  rw [Core.setReg_frame]
@[simp] theorem Core.setReg_pc (r : Nat) (v : Word) : (x.setReg r v).pc = x.pc := by
  rw [Core.setReg_frame]
@[simp] theorem Core.setReg_csr (r : Nat) (v : Word) : (x.setReg r v).csr = x.csr := by
  rw [Core.setReg_frame]
@[simp] theorem Core.setReg_inTrap (r : Nat) (v : Word) : (x.setReg r v).inTrap = x.inTrap := by
  rw [Core.setReg_frame]
@[simp] theorem Core.setReg_wait (r : Nat) (v : Word) : (x.setReg r v).wait = x.wait := by
  rw [Core.setReg_frame]
@[simp] theorem Core.setReg_waitShort (r : Nat) (v : Word) : (x.setReg r v).waitShort = x.waitShort := by
  rw [Core.setReg_frame]
@[simp] theorem Core.setReg_prog (r : Nat) (v : Word) : (x.setReg r v).prog = x.prog := by
  rw [Core.setReg_frame]
@[simp] theorem Core.setReg_td (r : Nat) (v : Word) : (x.setReg r v).td = x.td := by
  rw [Core.setReg_frame]
@[simp] theorem Core.setReg_srseq (r : Nat) (v : Word) : (x.setReg r v).srseq = x.srseq := by
  rw [Core.setReg_frame]
@[simp] theorem Core.setReg_btx (r : Nat) (v : Word) : (x.setReg r v).btx = x.btx := by
  rw [Core.setReg_frame]
@[simp] theorem Core.setReg_nextBtx (r : Nat) (v : Word) : (x.setReg r v).nextBtx = x.nextBtx := by
  rw [Core.setReg_frame]
@[simp] theorem Core.setReg_queues (r : Nat) (v : Word) : (x.setReg r v).queues = x.queues := by
  rw [Core.setReg_frame]
@[simp] theorem Core.setReg_nextEntry (r : Nat) (v : Word) : (x.setReg r v).nextEntry = x.nextEntry := by
  rw [Core.setReg_frame]
@[simp] theorem Core.setReg_binds (r : Nat) (v : Word) : (x.setReg r v).binds = x.binds := by
  rw [Core.setReg_frame]
@[simp] theorem Core.setReg_txData (r : Nat) (v : Word) : (x.setReg r v).txData = x.txData := by
  rw [Core.setReg_frame]
@[simp] theorem Core.setReg_chnBadWrite (r : Nat) (v : Word) : (x.setReg r v).chnBadWrite = x.chnBadWrite := by
  rw [Core.setReg_frame]
@[simp] theorem Core.setReg_df (r : Nat) (v : Word) : (x.setReg r v).df = x.df := by
  rw [Core.setReg_frame]
@[simp] theorem Core.setReg_krn (r : Nat) (v : Word) : (x.setReg r v).krn = x.krn := by
  rw [Core.setReg_frame]
@[simp] theorem Core.setReg_atom (r : Nat) (v : Word) : (x.setReg r v).atom = x.atom := by
  rw [Core.setReg_frame]
@[simp] theorem Core.setReg_sync (r : Nat) (v : Word) : (x.setReg r v).sync = x.sync := by
  rw [Core.setReg_frame]
@[simp] theorem Core.setReg_kept (r : Nat) (v : Word) : (x.setReg r v).kept = x.kept := by
  rw [Core.setReg_frame]

/-! ### Alerts (09 R323, Table 9.4) -/

/-- A change of PLB_ALERT or its enables: the two registers, and MSI-X of PF vector 1 when a bit is
newly enabled and set. -/
theorem State.setAlerts_eq (s : State) (a en : BitVec 7) : s.setAlerts a en =
    { s with plumb := { s.plumb with alert := a, alertEn := en }
             out := if (a &&& en) &&& ~~~(s.plumb.alert &&& s.plumb.alertEn) = 0 then s.out
               else .msix 0 1 :: s.out } := by
  by_cases h : (a &&& en) &&& ~~~(s.plumb.alert &&& s.plumb.alertEn) = 0
  · rw [if_pos h]; exact if_pos h
  · rw [if_neg h]; exact if_neg h

theorem State.alert_eq (s : State) (b : Nat) : s.alert b =
    { s with plumb := { s.plumb with alert := s.plumb.alert ||| oneBit 7 b }
             out := if ((s.plumb.alert ||| oneBit 7 b) &&& s.plumb.alertEn) &&&
                 ~~~(s.plumb.alert &&& s.plumb.alertEn) = 0 then s.out else .msix 0 1 :: s.out } := by
  rw [State.alert, State.setAlerts_eq]

/-- An alert changes PLB_ALERT and the outputs only. -/
theorem State.alert_frame (s : State) (b : Nat) : ∃ o, s.alert b =
    { s with plumb := { s.plumb with alert := s.plumb.alert ||| oneBit 7 b }, out := o } :=
  ⟨_, s.alert_eq b⟩

/-- A change of a sector's STATE sets PLB_ALERT.SECTOR; the same state again changes nothing. -/
theorem State.setSectorSt_eq (s : State) (n : Nat) (st : SectorSt) : s.setSectorSt n st =
    if (s.sector n).st = st then s
    else (s.setSector n { s.sector n with st := st }).alert alertSector := rfl

@[simp] theorem State.setSectorSt_st (s : State) (n : Nat) (st : SectorSt) :
    ((s.setSectorSt n st).sector n).st = st := by
  rw [State.setSectorSt_eq]
  split
  · assumption
  · rw [State.alert_eq]
    simp only [State.sector, State.setSector_sectors, Tab.get_set_same]

@[simp] theorem State.setPortSt_st (s : State) (p : Nat) (st : PortState) (w : Nat) :
    ((s.setPortSt p st w).port p).st = st := by
  simp only [State.setPortSt]
  split
  · simp only [State.modPort_eq, State.port_setPort_same]
  · rw [State.alert_eq]
    simp only [State.port, State.modPort_eq, State.setPort_fabric, Tab.get_set_same]

/-! ### Every core or tile that a test holds of -/

/-- What a core is after a change of all cores under a test, for a change that leaves the default
core as it is. -/
theorem State.core_modCores (s : State) (p : Nat → Bool) (f : Nat → Core → Core) (c : Nat)
    (hf : f c {} = {}) : (s.modCores p f).core c = if p c then f c (s.core c) else s.core c := by
  unfold State.core State.modCores
  generalize s.cores = t
  induction t with
  | nil => simp only [List.map_nil, Tab.get, hf, ite_self]
  | cons e t ih =>
    obtain ⟨j, u⟩ := e
    by_cases hj : j = c
    · subst hj; simp [Tab.get]
    · simpa [Tab.get, hj] using ih

theorem State.tile_modTiles (s : State) (p : Nat → Bool) (f : Nat → Tile → Tile) (t : Nat)
    (hf : f t {} = {}) : (s.modTiles p f).tile t = if p t then f t (s.tile t) else s.tile t := by
  unfold State.tile State.modTiles
  generalize s.tiles = l
  induction l with
  | nil => simp only [List.map_nil, Tab.get, hf, ite_self]
  | cons e l ih =>
    obtain ⟨j, u⟩ := e
    by_cases hj : j = t
    · subst hj; simp [Tab.get]
    · simpa [Tab.get, hj] using ih

end Sys2Proof.Machine
end

