-- ==== Sys2Proof/Laws/Faults.lean ====
section
/-! SUPPORT. Fault records, completions and the abort of a context: what they change and what they
leave. -/
namespace Sys2Proof.Machine

/-- A part of the state that every step of a fold keeps is kept by the fold. -/
theorem foldl_keeps {α β : Type} (g : State → α) (f : State → β → State)
    (h : ∀ s b, g (f s b) = g s) (l : List β) (s : State) : g (l.foldl f s) = g s := by
  induction l generalizing s with
  | nil => rfl
  | cons b l ih => exact (ih (f s b)).trans (h s b)

/-- Writing a record changes the fault log, PLB_FAULT, PLB_ALERT and the outputs. -/
theorem State.writeRecord_frame (s : State) (r : FaultRec) : ∃ fa pl o,
    s.writeRecord r = { s with faults := fa, plumb := pl, out := o } := by
  unfold State.writeRecord
  simp only
  split
  · rw [State.alert_eq]; exact ⟨_, _, _, rfl⟩
  · exact ⟨_, _, _, rfl⟩

/-- A record is written or held. -/
theorem State.record_frame (s : State) (r : FaultRec) : ∃ fa pl o se,
    s.record r = { s with faults := fa, plumb := pl, out := o, sectors := se } := by
  unfold State.record
  simp only
  split
  · obtain ⟨fa, pl, o, h⟩ := s.writeRecord_frame { r with time := s.deviceTime, detail := [] }
    exact ⟨fa, pl, o, _, h⟩
  · split
    · split <;> exact ⟨_, _, _, _, rfl⟩
    · obtain ⟨fa, pl, o, h⟩ := s.writeRecord_frame { r with time := s.deviceTime }
      exact ⟨fa, pl, o, _, h⟩

/-- A completion record: the queue and the outputs. -/
theorem State.writeCompletion_frame (s : State) (f j : Nat) (d : Desc) (st de : Nat) (t : DWord) :
    ∃ q o, s.writeCompletion f j d st de t = { s with queues := q, out := o } := by
  unfold State.writeCompletion
  simp only
  split <;> exact ⟨_, _, rfl⟩

theorem State.complete_frame (s : State) (f j : Nat) (d : Desc) (st de : Nat) :
    ∃ q o n, s.complete f j d st de = { s with queues := q, out := o, freeCtr := n } := by
  unfold State.complete
  split
  · obtain ⟨q, o, h⟩ := s.writeCompletion_frame f j d st de d.tStart
    exact ⟨q, o, _, h⟩
  · obtain ⟨q, o, h⟩ := State.writeCompletion_frame { s with freeCtr := s.freeCtr + 1 } f j d st de
      (Config.free 64 s.freeCtr)
    exact ⟨q, o, _, h⟩

theorem State.scrambleRange_ctxs (s : State) (a n : Nat) : (s.scrambleRange a n).ctxs = s.ctxs := by
  have hs : ∀ (t : State) (b : Nat), (t.settle b).ctxs = t.ctxs := fun t b => by
    obtain ⟨m, c, u, p, z, h⟩ := t.settle_frame b; rw [h]
  unfold State.scrambleRange
  split
  · refine foldl_keeps (·.ctxs) _ (fun t p => ?_) _ _
    have e : ∀ (u : State) lo hi, (u.scramble lo hi).ctxs = u.ctxs := fun _ _ _ => rfl
    rw [e]
    exact foldl_keeps (·.ctxs) _ (fun u i => hs u _) _ t
  · have e : ∀ (u : State) lo hi, (u.scramble lo hi).ctxs = u.ctxs := fun _ _ _ => rfl
    rw [e]
    exact foldl_keeps (·.ctxs) _ (fun t p => hs t _) _ s

theorem State.completeAll_ctxs (s : State) (k : Nat) (st : Desc → Nat) :
    (s.completeAll k st).ctxs = s.ctxs := by
  unfold State.completeAll
  refine (foldl_keeps (·.ctxs) _ (fun s q => ?_) _ _).trans ?_
  · refine foldl_keeps (·.ctxs) _ (fun s d => ?_) _ _
    obtain ⟨q, o, n, h⟩ := s.complete_frame _ _ d (st d) (s.detailOf d)
    rw [h]
  · refine foldl_keeps (·.ctxs) _ (fun s r => ?_) _ _
    unfold State.scrambleDst
    split
    · split
      · rfl
      · exact State.scrambleRange_ctxs _ _ _
    · rfl

theorem State.sendSyn_ctxs (s : State) (p : Nat) (m : SynMsg) : (s.sendSyn p m).ctxs = s.ctxs := by
  unfold State.sendSyn; split <;> rfl

theorem State.sendAbort_ctxs (s : State) (job : Word) (e : Half) :
    (s.sendAbort job e).ctxs = s.ctxs := by
  unfold State.sendAbort
  refine foldl_keeps (·.ctxs) _ (fun s g => ?_) _ _
  simp only [State.modFabric_ctxs]
  exact foldl_keeps (·.ctxs) _ (fun s p => s.sendSyn_ctxs p _) _ _

theorem State.skipDrawn_ctxs (s : State) (p : Nat → Bool) : (s.skipDrawn p).ctxs = s.ctxs := by
  have h : ∀ (t : State) q f, (t.modCores q f).ctxs = t.ctxs := fun _ _ _ => rfl
  simp only [State.skipDrawn, h]
  exact foldl_keeps (·.ctxs) _ (fun (s : State) e => (rfl : (s.modSector _ _).ctxs = s.ctxs)) _ _

theorem State.skipSamples_ctxs (s : State) (k : Nat) : (s.skipSamples k).ctxs = s.ctxs :=
  s.skipDrawn_ctxs _

theorem State.abortFlush_ctxs (s : State) (k : Nat) :
    (s.abortFlush k).ctxs = Tab.set s.ctxs k (s.ctx k).flush := by
  have h1 : ∀ t : State, (t.dropEngines k).ctxs = t.ctxs := fun _ => rfl
  have h2 : ∀ t : State, (t.dropReplay k).ctxs = t.ctxs := fun _ => rfl
  have h3 : ∀ t : State, (t.dropFabric k).ctxs = t.ctxs := fun _ => rfl
  have h4 : ∀ t : State, (t.skipSamples k).ctxs = t.ctxs := fun t => t.skipSamples_ctxs k
  have h5 : ∀ (t : State) p f, (t.modCores p f).ctxs = t.ctxs := fun _ _ _ => rfl
  have h6 : ∀ (t : State) p f, (t.modTiles p f).ctxs = t.ctxs := fun _ _ _ => rfl
  simp only [State.abortFlush, State.modCtx_eq, State.setCtx_ctxs, State.ctx, h1, h2, h3, h4, h5, h6]

/-- An abort of a context that is not dead: ABORTED, a new generation, the epoch one higher for a
context with a job or as the beacon says; every other context stays (12 Table 12.7). -/
theorem State.abortCtx_ctx (s : State) (k j : Nat) (epoch : Option Half)
    (h : (s.ctx k).dead = false) : (s.abortCtx k epoch).ctx j =
    if j = k then Ctx.flush { s.ctx k with
        st := .aborted
        epoch := match epoch with
          | some e => e
          | none => if (s.ctx k).job = 0 then (s.ctx k).epoch else (s.ctx k).epoch + 1
        gen := (s.ctx k).gen + 1, probeSince := none, progressed := false
        aborts := satAdd 0xFFFF (s.ctx k).aborts 1 }
    else s.ctx j := by
  have key : ∀ (t : State) (x : Ctx), t.ctxs = (s.setCtx k x).ctxs →
      (t.abortFlush k).ctx j = if j = k then x.flush else s.ctx j := by
    intro t x ht
    unfold State.ctx
    rw [State.abortFlush_ctxs, State.ctx, ht, State.setCtx_ctxs, Tab.get_set, Tab.get_set_same]
    by_cases hj : j = k
    · simp only [if_pos hj]
    · simp only [if_neg hj, Tab.get_set_other _ _ _ _ _ hj]
  unfold State.abortCtx
  simp only [h, Bool.false_eq_true, if_false]
  apply key
  rw [State.completeAll_ctxs]
  split
  · rw [State.sendAbort_ctxs]; rfl
  · rfl

/-- An abort of a dead context changes nothing (12 R430). -/
theorem State.abortCtx_dead (s : State) (k : Nat) (epoch : Option Half)
    (h : (s.ctx k).dead = true) : s.abortCtx k epoch = s := by
  unfold State.abortCtx; simp only [h, if_true]

end Sys2Proof.Machine
end

