-- ==== Sys2Proof/Laws/Reads.lean ====
section
/-! SUPPORT. Reads of device memory after a write: the written byte is read back, and every other byte
of populated memory reads as before. -/
namespace Sys2Proof.Machine

theorem Cells.read_clear (m : List Host.Cell) (lo hi x : Nat) :
    Cells.read (Cells.clear m lo hi) x = if lo ≤ x ∧ x < hi then 0 else Cells.read m x := by
  induction m with
  | nil => simp [Cells.clear, Cells.read]
  | cons c t ih =>
    obtain ⟨j, b⟩ := c
    unfold Cells.clear at ih ⊢
    by_cases hj : lo ≤ j ∧ j < hi
    · have e : (!(decide (lo ≤ j) && decide (j < hi))) = false := by simp [hj.1, hj.2]
      rw [List.filter_cons_of_neg (by simpa using e), ih]
      by_cases hx : lo ≤ x ∧ x < hi
      · simp [hx]
      · rw [if_neg hx, if_neg hx]
        have : ¬ j = x := by omega
        simp [Cells.read, this]
    · have e : (!(decide (lo ≤ j) && decide (j < hi))) = true := by
        rw [Bool.not_eq_true', Bool.and_eq_false_iff, decide_eq_false_iff_not, decide_eq_false_iff_not]
        omega
      rw [List.filter_cons_of_pos (by simpa using e)]
      by_cases hx : j = x
      · subst hx; simp [Cells.read, hj]
      · simp only [Cells.read, if_neg hx]; exact ih

theorem cutScramble_none (lo hi x : Nat) (rs : List Scramble) (hl : lo ≤ x) (hh : x < hi) :
    (cutScramble lo hi rs).find? (fun r => decide (r.lo ≤ x) && decide (x < r.hi)) = none := by
  rw [List.find?_eq_none]
  intro q hq
  obtain ⟨r, -, hr⟩ := List.mem_flatMap.mp hq
  simp only [List.mem_append] at hr
  simp only [Bool.and_eq_true, decide_eq_true_eq]
  rcases hr with hr | hr <;> split at hr <;> simp at hr <;> subst hr <;> simp only <;> omega

/-- What a read depends on: the pending-zero state, the stamp of the scrambled range, the cells. -/
theorem State.readByte_eq (s : State) (a : Nat) : s.readByte a =
    if s.isPending a then 0 else
      match (s.scrambled.find? fun r => decide (r.lo ≤ a) && decide (a < r.hi)).map (·.stamp) with
      | some n => Config.freeByte n a
      | none => Cells.read s.mem a := by
  unfold State.readByte
  split
  · rfl
  · cases s.scrambled.find? fun r => decide (r.lo ≤ a) && decide (a < r.hi) <;> rfl

/-- A cleared range reads zero, every other byte as before. -/
theorem State.readByte_clearBytes (s : State) (lo hi x : Nat) :
    (s.clearBytes lo hi).readByte x = if lo ≤ x ∧ x < hi then 0 else s.readByte x := by
  have hp : (s.clearBytes lo hi).isPending x = s.isPending x := rfl
  rw [State.readByte_eq, State.readByte_eq s, hp, State.clearBytes_scrambled, State.clearBytes_mem]
  by_cases hx : lo ≤ x ∧ x < hi
  · rw [cutScramble_none lo hi x _ hx.1 hx.2, if_pos hx]
    simp only [Option.map_none, Cells.read_clear, if_pos hx, ite_self]
  · rw [cutScramble_find lo hi x _ (by omega), if_neg hx, Cells.read_clear, if_neg hx]

theorem State.isPending_settle_same (s : State) (a : Nat) : (s.settle a).isPending a = false := by
  unfold State.settle
  split
  · split
    · simp only [State.isPending, *, if_true, ISet.mem_remove]
      simp
    · simp only [State.isPending, *, if_false, ISet.mem_remove]
      simp
  · next h => simpa using h

/-- Settling a pending unit changes no read of populated memory. -/
theorem State.readByte_settle (s : State) (a x : Nat) (ha : populated a) (hx : populated x) :
    (s.settle a).readByte x = s.readByte x := by
  unfold State.settle
  split
  case isFalse => rfl
  case isTrue hpa =>
  have hs : spadBase % 0x400000 = 0 := by decide
  split
  case isTrue hsa =>
    simp only
    generalize hlo : spadAddr ((a - spadBase) / 0x400000) ((a - spadBase) % 0x400000 / 1024 * 1024) = lo
    generalize hu : spadUnit ((a - spadBase) / 0x400000) ((a - spadBase) % 0x400000) = u
    have hrd := s.readByte_clearBytes lo (lo + 1024) x
    by_cases hsx : spadBase ≤ x
    · have hin : (lo ≤ x ∧ x < lo + 1024) ↔
          spadUnit ((x - spadBase) / 0x400000) ((x - spadBase) % 0x400000) = u := by
        subst hlo; subst hu
        unfold populated at ha hx
        simp only [spadAddr, spadUnit, spadBase] at *
        omega
      rw [State.readByte_eq] at hrd ⊢
      have hq : (s.clearBytes lo (lo + 1024)).isPending x = s.isPending x := rfl
      rw [hq] at hrd
      have hp : ({ s.clearBytes lo (lo + 1024) with spadPz := ISet.remove u (u + 1) s.spadPz } : State).isPending x
          = (s.isPending x && !decide (lo ≤ x ∧ x < lo + 1024)) := by
        simp only [State.isPending, if_pos hsx, ISet.mem_remove, hin]
        congr 2
        rw [Bool.eq_iff_iff]; simp; omega
      rw [hp]
      by_cases hr : lo ≤ x ∧ x < lo + 1024
      · have hz : s.readByte x = 0 := by
          rw [State.readByte_eq, if_pos]
          have := hin.mp hr
          simp only [State.isPending, if_pos hsa, if_pos hsx] at hpa ⊢
          rw [hu] at hpa; rw [this]; exact hpa
        have hd : (decide (lo ≤ x ∧ x < lo + 1024)) = true := by simpa using hr
        rw [hz, hd]
        simp only [Bool.not_true, Bool.and_false, Bool.false_eq_true, if_false]
        show (match ((s.clearBytes lo (lo + 1024)).scrambled.find? _).map _ with
          | some n => Config.freeByte n x
          | none => Cells.read (s.clearBytes lo (lo + 1024)).mem x) = 0
        rw [State.clearBytes_scrambled, State.clearBytes_mem, cutScramble_none _ _ _ _ hr.1 hr.2]
        simp only [Option.map_none, Cells.read_clear, if_pos hr]
      · have hd : (decide (lo ≤ x ∧ x < lo + 1024)) = false := by simpa using hr
        rw [hd]
        simp only [Bool.not_false, Bool.and_true]
        rw [if_neg hr] at hrd
        exact hrd
    · have hr : ¬ (lo ≤ x ∧ x < lo + 1024) := by
        subst hlo; simp only [spadAddr, spadBase] at *; omega
      rw [if_neg hr] at hrd
      rw [← hrd, State.readByte_eq, State.readByte_eq]
      have hp : ({ s.clearBytes lo (lo + 1024) with spadPz := ISet.remove u (u + 1) s.spadPz } : State).isPending x
          = (s.clearBytes lo (lo + 1024)).isPending x := by
        simp only [State.isPending, if_neg hsx, State.clearBytes_tierPz]
      rw [hp]
  case isFalse hsa =>
    generalize hlo : a / 4096 * 4096 = lo
    have hrd := s.readByte_clearBytes lo (lo + 4096) x
    by_cases hsx : spadBase ≤ x
    · have hr : ¬ (lo ≤ x ∧ x < lo + 4096) := by
        subst hlo; simp only [spadBase] at *; omega
      rw [if_neg hr] at hrd
      rw [← hrd, State.readByte_eq, State.readByte_eq]
      have hp : ({ s.clearBytes lo (lo + 4096) with
            tierPz := ISet.remove (a / 4096) (a / 4096 + 1) s.tierPz
            poison := ISet.remove (a / 4096 * 32) (a / 4096 * 32 + 32) s.poison } : State).isPending x
          = (s.clearBytes lo (lo + 4096)).isPending x := by
        simp only [State.isPending, if_pos hsx, State.clearBytes_spadPz]
      rw [hp]
    · have hin : (lo ≤ x ∧ x < lo + 4096) ↔ x / 4096 = a / 4096 := by subst hlo; omega
      rw [State.readByte_eq] at hrd ⊢
      have hq : (s.clearBytes lo (lo + 4096)).isPending x = s.isPending x := rfl
      rw [hq] at hrd
      have hp : ({ s.clearBytes lo (lo + 4096) with
            tierPz := ISet.remove (a / 4096) (a / 4096 + 1) s.tierPz
            poison := ISet.remove (a / 4096 * 32) (a / 4096 * 32 + 32) s.poison } : State).isPending x
          = (s.isPending x && !decide (lo ≤ x ∧ x < lo + 4096)) := by
        simp only [State.isPending, if_neg hsx, ISet.mem_remove, hin]
        congr 2
        rw [Bool.eq_iff_iff]; simp; omega
      rw [hp]
      by_cases hr : lo ≤ x ∧ x < lo + 4096
      · have hz : s.readByte x = 0 := by
          rw [State.readByte_eq, if_pos]
          have := hin.mp hr
          simp only [State.isPending, if_neg hsa, if_neg hsx] at hpa ⊢
          rw [this]; exact hpa
        have hd : (decide (lo ≤ x ∧ x < lo + 4096)) = true := by simpa using hr
        rw [hz, hd]
        simp only [Bool.not_true, Bool.and_false, Bool.false_eq_true, if_false]
        show (match ((s.clearBytes lo (lo + 4096)).scrambled.find? _).map _ with
          | some n => Config.freeByte n x
          | none => Cells.read (s.clearBytes lo (lo + 4096)).mem x) = 0
        rw [State.clearBytes_scrambled, State.clearBytes_mem, cutScramble_none _ _ _ _ hr.1 hr.2]
        simp only [Option.map_none, Cells.read_clear, if_pos hr]
      · have hd : (decide (lo ≤ x ∧ x < lo + 4096)) = false := by simpa using hr
        rw [hd]
        simp only [Bool.not_false, Bool.and_true]
        rw [if_neg hr] at hrd
        exact hrd

theorem State.readByte_endReservations (s : State) (a x : Nat) :
    (s.endReservations a).readByte x = s.readByte x := by
  obtain ⟨t, h⟩ := s.endReservations_frame a
  rw [h]; rfl

/-- A byte written is the byte read. -/
theorem State.readByte_writeByte_same (s : State) (a : Nat) (b : Byte) (h : Cells.wf s.mem = true) :
    (s.writeByte a b).readByte a = b := by
  have hp : (s.writeByte a b).isPending a = false := by
    have := s.isPending_settle_same a
    obtain ⟨t, ht⟩ := (s.settle a).endReservations_frame a
    simp only [State.writeByte, ht]; exact this
  rw [State.readByte_eq, hp]
  simp only [Bool.false_eq_true, if_false]
  have e : (s.writeByte a b).scrambled
      = cutScramble a (a + 1) ((s.settle a).endReservations a).scrambled := rfl
  rw [e, cutScramble_none a (a + 1) a _ (Nat.le_refl a) (Nat.lt_succ_self a)]
  exact Cells.read_write_same _ 0 a b (by rw [State.endReservations_mem]; exact s.settle_wf a h)

/-- Every other byte of populated memory reads as before. -/
theorem State.readByte_writeByte_other (s : State) (a x : Nat) (b : Byte) (hne : x ≠ a)
    (ha : populated a) (hx : populated x) : (s.writeByte a b).readByte x = s.readByte x := by
  rw [← s.readByte_settle a x ha hx, ← State.readByte_endReservations (s.settle a) a x]
  have hp : (s.writeByte a b).isPending x = ((s.settle a).endReservations a).isPending x := rfl
  rw [State.readByte_eq, State.readByte_eq, hp]
  have e1 : (s.writeByte a b).scrambled
      = cutScramble a (a + 1) ((s.settle a).endReservations a).scrambled := rfl
  have e2 : (s.writeByte a b).mem = Cells.write ((s.settle a).endReservations a).mem a b := rfl
  rw [e1, e2, cutScramble_find a (a + 1) x _ (by omega), Cells.read_write_other _ _ _ _ hne]

/-- A write of bytes leaves every populated byte outside it as it was. -/
theorem State.readByte_writeBytes_other (bs : List Byte) (s : State) (a x : Nat)
    (hne : x < a ∨ a + bs.length ≤ x) (ha : ∀ i, i < bs.length → populated (a + i))
    (hx : populated x) : (s.writeBytes a bs).readByte x = s.readByte x := by
  induction bs generalizing s a with
  | nil => rfl
  | cons b bs ih =>
    simp only [List.length_cons] at hne ha
    have h1 := ih (s.writeByte a b) (a + 1) (by omega)
      (fun i hi => by have := ha (i + 1) (by omega); rwa [Nat.add_comm i 1, ← Nat.add_assoc] at this)
    exact h1.trans (s.readByte_writeByte_other a x b (by omega) (ha 0 (by omega)) hx)

/-- The bytes written are the bytes read. -/
theorem State.readBytes_writeBytes (bs : List Byte) (s : State) (a : Nat) (h : Cells.wf s.mem = true)
    (ha : ∀ i, i < bs.length → populated (a + i)) :
    (s.writeBytes a bs).readBytes a bs.length = bs := by
  induction bs generalizing s a with
  | nil => rfl
  | cons b bs ih =>
    simp only [List.length_cons] at ha
    have ha' : ∀ i, i < bs.length → populated (a + 1 + i) := fun i hi => by
      have := ha (i + 1) (by omega); rwa [Nat.add_comm i 1, ← Nat.add_assoc] at this
    have h0 : (s.writeBytes a (b :: bs)).readByte a = b :=
      (State.readByte_writeBytes_other bs (s.writeByte a b) (a + 1) a (by omega) ha'
        (ha 0 (by omega))).trans (s.readByte_writeByte_same a b h)
    have h1 := ih (s.writeByte a b) (a + 1) (s.writeByte_wf a b h) ha'
    unfold State.readBytes at h1 ⊢
    rw [List.length_cons, List.range_succ_eq_map, List.map_cons, List.map_map]
    have h0' : (s.writeBytes a (b :: bs)).readByte (a + 0) = b := h0
    rw [h0']
    congr 1
    refine Eq.trans (List.map_congr_left fun i _ => ?_) h1
    show (s.writeBytes a (b :: bs)).readByte (a + (i + 1)) = _
    rw [show a + (i + 1) = a + 1 + i by omega]
    rfl

end Sys2Proof.Machine
end

