-- ==== Sys2Proof/Tests/Examples.lean ====
section
/-! SUPPORT. What the files of hypotheses share: a small state, picks from lists of examples, and lemmas for hypotheses over every number. -/
open Sys2Proof Sys2Proof.Machine
namespace Sys2Proof.Tests
/-- The element of a list of examples. -/
def pick {α : Type} : List (String × α) → Nat → α → α
  | [], _, d => d
  | x :: _, 0, _ => x.2
  | _ :: l, n + 1, d => pick l n d
def ns {α : Type} (l : List α) : List (String × α) := l.map fun x => ("", x)
def goes : Plan → Bool
  | .go _ _ _ _ _ => true
  | _ => false
def runCtx (secs : BitVec 16) (gen job : Nat) : Ctx :=
  { st := .running, sectors := secs, gen := BitVec.ofNat 12 gen, epoch := 7, fn := 0, job := BitVec.ofNat 32 job, placed := true,
    periodUs := 10, tileRecs := [0,1] }
def upSector (o : Option Nat) : Sector := { st := .up, enabled := true, usable := 32, owner := o }
def rc : Core := { run := .running, csr := { mtvec := 0x100 }, kept := { hasImage := true } }
def base : State := {
  State.reset with
  deviceTime := 1000000000000
  plumb := { gaffer := .running }
  cores := [(0, rc), (1, rc), (5, rc), (513, rc)]
  ctxs := [(0, runCtx 1 3 77), (1, { runCtx 2 4 78 with fn := 1 })]
  sectors := [(0, upSector (some 0)), (1, upSector (some 1)), (2, upSector none), (3, upSector none)]
  boot := { auxOn := true, railsOk := true, regulators := true, perst := false }
}
def at0 : At := { core := 0, pc := 0x40 }
def at5 : At := { core := 5, pc := 0x80 }
def at513 : At := { core := 513, pc := 0x40 }
def mkReq (op : Nat) (payload : List Byte) (flags : Nat := 0) (seq : Nat := 5) : List Byte :=
  fit 256 (leBytes 2 op ++ leBytes 2 flags ++ leBytes 4 seq ++ leBytes 2 payload.length ++ [0,0] ++ leBytes 4 (crc32c payload).toNat ++ payload)
def withReq (src : Src) (req : List Byte) (s : State) : State :=
  match src with
  | .mailbox f => (s.modMailbox f fun m => { m with buf := some req, state := 1, doneEn := true }).modDelash fun d => { d with order := [src] }
  | .bmc => s.modDelash fun d => { d with order := [src], bmcBuf := some req }
def bs (l : List (Nat × Nat)) : List Byte := l.flatMap fun (n, v) => leBytes n v
/-- a descriptor of bytes given by (offset,size,value) -/
def dsc (id type : Nat) (fs : List (Nat × Nat × Nat)) (tag : Nat := 0x1234) : Desc :=
  { id, bytes := fs.foldl (fun b f => patch b f.1 (leBytes f.2.1 f.2.2)) (fit 64 (leBytes 1 type ++ [0] ++ leBytes 2 tag)), gen := 3, period := 2, sqHead := 4 }
def hq (ctx : Nat) (ds : List Desc) : HostQueue := { present := true, ctx, cqEntries := 16, sqEntries := 16, cqAddr := 0x1000, sqAddr := 0x8000, cqTail := 5, sqTail := 7, sqHead := 4, descs := ds }
/-- What stands in a slot of a list of examples that has no such element. -/
def dCtl : CtlPacket := {}
def dBulk : BulkPacket := {}
def dLink : LinkPacket := {}
def dHeld : HeldRgn := { reg := .base, value := 0, privileged := false }
def dClaim : Claim := { id := 0, words := 0, who := .spill 0 }
def dDesc : Desc := { id := 0, bytes := [], gen := 0, period := 0, sqHead := 0 }
def dFlight : InFlight := { id := 0, op := .vcvt 0 0 false }
def dEntry : Entry := { words := [], nw := 0, tag := 0, port := 0, param := 0, src := 0, bind := 0, seq := 0 }
def dMs : MsEntry := { actor := 0, tag := 0, tokens := [] }
def dTransit : Transit := { net := .control, at_ := 0, pkt := .control {} }
def dCol : Collective := { f := 0, slot := 0, desc := 0, group := 0, seq := 0, op := 0, digest := 0 }
def dStore : StoreRequest := { ctx := 0, gen := 0, addr := 0 }
/-- The control packets a state's network holds. -/
def ctlOf (t : State) : List CtlPacket :=
  (t.net.sources ++ t.net.slots).filterMap (fun x => match x.pkt with | .control p => some p | _ => none) ++ t.net.ejected
/-- What a table holds at every key, from what its entries and its default hold. -/
theorem get_all {α : Type} {p : α → Prop} {d : α} {l : List (Nat × α)} {k : Nat}
    (h : ∀ x ∈ l, p x.2) (hd : p d) : p (Tab.get d l k) := by
  induction l with
  | nil => exact hd
  | cons x l ih =>
    obtain ⟨j, v⟩ := x
    simp only [Tab.get]
    split
    · exact h _ (List.mem_cons_self ..)
    · exact ih fun y hy => h y (List.mem_cons_of_mem _ hy)
/-- A property of every number from `a` on below `a + n`. -/
theorem between {P : Nat → Prop} {a n x : Nat} (h : ∀ k < n, P (a + k)) (h1 : a ≤ x) (h2 : x < a + n) : P x := by
  have e := h (x - a) (by omega); rwa [Nat.add_sub_cancel' h1] at e
/-- A property of every way to take a list apart at an element. -/
theorem splits {α : Type} {l : List α} {P : List α → α → Prop} (h : ∀ x ∈ (List.range l.length).zip l, P (l.take x.1) x.2)
    (a : List α) (g : α) (b : List α) (e : l = a ++ g :: b) : P a g := by
  have hm : (a.length, g) ∈ (List.range l.length).zip l := by
    rw [List.mem_iff_getElem?]; exact ⟨a.length, by subst e; simp⟩
  have := h _ hm
  subst e; simpa using this
theorem isError_of {ε α : Type} [DecidableEq ε] {r : Except ε α} {x : ε}
    (h : (match r with | .error e => decide (e = x) | .ok _ => false) = true) : r = .error x := by
  cases r <;> simp_all
theorem isOk_of {ε α : Type} [DecidableEq α] {r : Except ε α} {x : α}
    (h : (match r with | .ok e => decide (e = x) | .error _ => false) = true) : r = .ok x := by
  cases r <;> simp_all
end Sys2Proof.Tests
end

