-- ==== Sys2Proof/Tests/Arithmetic.lean ====
section
/-! SUPPORT. Arithmetic: for the obligations about it, states and operands that meet the hypotheses of each clause. -/
open Sys2Proof Sys2Proof.Machine
namespace Sys2Proof.Tests.Arithmetic
set_option Elab.async false
/-! Hypotheses of `Obligations.HeartbeatCountsWhileServed`. -/
namespace HeartbeatCountsWhileServed
theorem witness_HeartbeatCountsWhileServed_1 :
    let s : State := base
    (s.plumb.gaffer = .running ∨ s.plumb.gaffer = .waitHost) := by decide +kernel
theorem witness_HeartbeatCountsWhileServed_2 :
    let s : State := ({base with plumb := {base.plumb with gaffer := .boot}} : State)
    s.plumb.gaffer ≠ .running ∧
    s.plumb.gaffer ≠ .waitHost := by decide +kernel
end HeartbeatCountsWhileServed
/-! Hypotheses of `Obligations.ExactAdditionSaturates`. -/
namespace ExactAdditionSaturates
def smpBitVec128 : List (String × (BitVec 128)) := ns ([0,1,2^127-1,2^127-5,2^127,2^127+1,2^127+2,2^128-1].map (BitVec.ofNat 128))
theorem witness_ExactAdditionSaturates_1 :
    let el : BitVec 128 := pick smpBitVec128 0 0
    let u : Int := 0
    el ≠ nanMarker ∧
    -(2 ^ 127 - 1) ≤ el.toInt + u ∧
    el.toInt + u ≤ 2 ^ 127 - 1 := by decide +kernel
theorem witness_ExactAdditionSaturates_2 :
    let el : BitVec 128 := pick smpBitVec128 0 0
    let u : Int := (-(2^127) : Int)
    el ≠ nanMarker ∧
    el.toInt + u < -(2 ^ 127 - 1) := by decide +kernel
theorem witness_ExactAdditionSaturates_3 :
    let el : BitVec 128 := pick smpBitVec128 0 0
    let u : Int := (2^127 : Int)
    el ≠ nanMarker ∧
    let w : Int := (-1 : Int)
    2 ^ 127 - 1 < el.toInt + u ∧
    w < 0 ∧
    -(2 ^ 127) < w := by decide +kernel
end ExactAdditionSaturates
/-! Hypotheses of `Obligations.ExactSumsAreExactInAnyOrder`. -/
namespace ExactSumsAreExactInAnyOrder
theorem witness_ExactSumsAreExactInAnyOrder_1 :
    let anchor : BitVec 8 := 0
    let l : List (Int × Int) := [(1, -88), (3, 0), (-7, -50)]
    let l' : List (Int × Int) := [(3, 0), (1, -88), (-7, -50)]
    (l.Perm l' ∧
      (∀ t ∈ l, anchor.toInt - 88 ≤ t.2) ∧
      (∀ t ∈ l, (termUnits anchor t).natAbs < 2 ^ 127)) ∧
    (∀ k, (((l'.take k).map (termUnits anchor)).sum).natAbs < 2 ^ 127) :=
  ⟨by decide +kernel, fun k => match k with
    | 0 | 1 | 2 => by decide +kernel
    | k + 3 => by rw [List.take_of_length_le (Nat.le_add_left 3 k)]; decide +kernel⟩
end ExactSumsAreExactInAnyOrder
/-! Hypotheses of `Obligations.RoundsToNearestEven`. -/
namespace RoundsToNearestEven
def smpNat : List (String × (Nat)) := ns ((List.range 20))
theorem witness_RoundsToNearestEven_1 :
    let m : Nat := pick smpNat 1 0
    let d : Nat := pick smpNat 1 0
    1 ≤ d ∧
    let k : Nat := m / 2 ^ d
    let n : Nat := (if roundsUp .rne k (m % 2 ^ d) d then k + 1 else k)
    2 * ((m : Int) - n * 2 ^ d).natAbs = 2 ^ d := by decide +kernel
end RoundsToNearestEven
/-! Hypotheses of `Obligations.FiniteElementsConvertToThemselves`. -/
namespace FiniteElementsConvertToThemselves
def smpNat : List (String × (Nat)) := ns ((List.range 257)++[120,126,127,128,255,0x7BFF,0x7F7F,0xFF7F,0x7F800000,0x7F7FFFFF,0x80000001,0x8001])
theorem witness_FiniteElementsConvertToThemselves_1 :
    let fmt : Nat := pick smpNat 1 0
    let v : Nat := pick smpNat 0 0
    ∃ f, floatFmt fmt = some f ∧
      v < 2 ^ (1 + f.ew + f.mw) ∧
      v % 2 ^ (f.mw + f.ew) ≤ f.maxCode := by decide +kernel
end FiniteElementsConvertToThemselves
end Sys2Proof.Tests.Arithmetic
end

