-- ==== Sys2Proof/Tests/Boot.lean ====
section
/-! SUPPORT. Boot: for the obligations about it, states and operands that meet the hypotheses of each clause. -/
open Sys2Proof Sys2Proof.Machine
namespace Sys2Proof.Tests.Boot
set_option Elab.async false
def RQ (rs : List (List Byte)) (s : State) : List (String × State) := rs.flatMap fun r => [("m0",withReq (.mailbox 0) r s)]
def lic (s : State) : State := {s with boot := {s.boot with licence := {tier := 2, sectorMask := 0xFFFF}}, lifecycle := 2}
def rich : State := {lic base with tiles := [(0,{misroute := 4}),(40,{misroute := 5})], mem := [(spadBase+5,4),(spadBase+32*0x400000,4)], fabric := {ports := [(0,{st := .up, enabled := true})]}}
def bt (f : Boot → Boot) (s : State) : State := {s with boot := f s.boot}
/-! Hypotheses of `Obligations.ResetsAndBringup` (ModuleResetsAndBoots). -/
namespace ModuleResetsAndBoots
def fl (a b : Bool) (s : State) : State := {s with flash := {s.flash with slotA := {s.flash.slotA with authentic := a}, slotB := {s.flash.slotA with authentic := b, major := 7}}}
def b0 := rich
def sts := [b0, bt (fun b => {b with auxOn := false, railsOk := false}) b0, bt (fun b => {b with perst := true}) b0, bt (fun b => {b with auxOn := false}) b0, bt (fun b => {b with auxOn := false, perst := true}) b0, bt (fun b => {b with railsOk := false}) b0,bt (fun b => {b with railsOk := false, perst := true}) b0, bt (fun b => {b with perst := true}) (fl false true b0),bt (fun b => {b with perst := true}) (fl false false b0), bt (fun b => {b with perst := true}) (fl true true b0)]
def smpState : List (String × (State)) := sts.map fun s => ("",s)
theorem witness_ModuleResetsAndBoots_1 :
    let s : State := pick smpState 0 base
    s.boot.perst = false ∧
    s.boot.auxOn = true := by decide +kernel
theorem witness_ModuleResetsAndBoots_2 :
    let s : State := pick smpState 6 base
    s.boot.perst = true ∧
    s.boot.auxOn = true ∧
    s.faults.thermTrip = false ∧
    s.plumb.gaffer ≠ .halted ∧
    s.boot.railsOk = false := by decide +kernel
theorem witness_ModuleResetsAndBoots_3 :
    let s : State := pick smpState 2 base
    s.boot.perst = true ∧
    s.boot.auxOn = true ∧
    s.faults.thermTrip = false ∧
    s.plumb.gaffer ≠ .halted ∧
    s.boot.railsOk = true ∧
    s.flash.accepts s.flash.slotA = true := by decide +kernel
theorem witness_ModuleResetsAndBoots_4 :
    let s : State := pick smpState 7 base
    s.boot.perst = true ∧
    s.boot.auxOn = true ∧
    s.faults.thermTrip = false ∧
    s.plumb.gaffer ≠ .halted ∧
    s.boot.railsOk = true ∧
    s.flash.accepts s.flash.slotA = false ∧
    s.flash.accepts s.flash.slotB = true := by decide +kernel
theorem witness_ModuleResetsAndBoots_5 :
    let s : State := pick smpState 8 base
    s.boot.perst = true ∧
    s.boot.auxOn = true ∧
    s.faults.thermTrip = false ∧
    s.plumb.gaffer ≠ .halted ∧
    s.boot.railsOk = true ∧
    s.flash.accepts s.flash.slotA = false ∧
    s.flash.accepts s.flash.slotB = false := by decide +kernel
theorem witness_ModuleResetsAndBoots_6 :
    let s : State := pick smpState 4 base
    s.boot.auxOn = false ∧
    s.boot.perst = true ∧
    s.power.pwrbrk = false := by decide +kernel
theorem witness_ModuleResetsAndBoots_7 :
    let s : State := pick smpState 1 base
    s.boot.auxOn = false ∧
    s.boot.perst = false ∧
    s.faults.thermTrip = false ∧
    s.boot.railsOk = false ∧
    s.power.pwrbrk = false ∧
    s.plumb.gaffer ≠ .halted := by decide +kernel
theorem witness_ModuleResetsAndBoots_8 :
    let s : State := pick smpState 5 base
    s.boot.auxOn = true ∧
    s.boot.railsOk = false ∧
    s.boot.bootWaits = false := by decide +kernel
/-- PERST# released without the auxiliary supply, after a trip, and with the Gaffer halted. -/
theorem witness_ModuleResetsAndBoots_9 :
    let on : State := pick smpState 2 base
    ∀ s ∈ [pick smpState 4 base, { on with faults := { on.faults with thermTrip := true } },
        { on with plumb := { on.plumb with gaffer := .halted } }],
      s.boot.perst = true ∧ (s.boot.auxOn = false ∨ s.faults.thermTrip = true ∨ s.plumb.gaffer = .halted) := by
  decide +kernel
/-- PWRBRK# asserted while the supply is away: PERST# asserted, or the rails down. -/
theorem witness_ModuleResetsAndBoots_10 :
    ∀ i ∈ [4, 1], let u : State := pick smpState i base
      let s : State := { u with power := { u.power with pwrbrk := true } }
      s.boot.auxOn = false ∧ s.power.pwrbrk = true ∧ (s.boot.perst = true ∨ s.boot.railsOk = false) := by
  decide +kernel
end ModuleResetsAndBoots
/-! Hypotheses of `Obligations.ResetsAndBringup` (SectorsTrainAndAreReleased). -/
namespace SectorsTrainAndAreReleased
def few (s : State) (n : Nat) : State := (List.range n).foldl (fun s i => s.modPhy (physOfLocal 0 i) fun x => {x with cad := .cullet, index := none}) s
def bo (s : State) : State := bt (fun b => {b with begun := true}) {s with plumb := {s.plumb with gaffer := .boot}}
def en (s : State) : State := (List.range 6).foldl (fun s n => s.modSector n fun x => {x with enabled := true, st := .resetting}) s
def b1 := bo (en {rich with sectors := []})
def sts := [rich, bo rich, b1, bt (fun b => {b with trained := 0x2F, failed := 0x10}) b1, few (bt (fun b => {b with trained := 0x2F, failed := 0x10, released := 2}) b1) 5, bt (fun b => {b with trained := 0x3F, released := 0x3F}) b1, few (bt (fun b => {b with trained := 0x2F, failed := 0x10, released := 2}) b1) 15, (bt (fun b => {b with trained := 0x2F, failed := 0x10, released := 2}) b1).modPhy 3 fun x => {x with cad := .lehr}]
def smpState : List (String × (State)) := sts.map fun s => ("",s)
theorem witness_SectorsTrainAndAreReleased_1 :
    let n : SectorId := 0
    let s : State := pick smpState 0 base
    (s.plumb.gaffer ≠ .boot ∨ s.boot.begun = false ∨ s.boot.perst = true ∨ (s.sector n).enabled = false ∨
      s.boot.trained.getLsbD n = true ∨ s.boot.failed.getLsbD n = true) := by decide +kernel
theorem witness_SectorsTrainAndAreReleased_2 :
    let n : SectorId := 0
    let failures : Nat := 0
    let s : State := pick smpState 1 base
    s.plumb.gaffer = .boot ∧
    s.boot.begun = true ∧
    s.boot.perst = false ∧
    (s.sector n).enabled = true ∧
    s.boot.trained.getLsbD n = false ∧
    s.boot.failed.getLsbD n = false ∧
    failures < 2 := by decide +kernel
theorem witness_SectorsTrainAndAreReleased_3 :
    let n : SectorId := 0
    let failures : Nat := 2
    let s : State := pick smpState 1 base
    s.plumb.gaffer = .boot ∧
    s.boot.begun = true ∧
    s.boot.perst = false ∧
    (s.sector n).enabled = true ∧
    s.boot.trained.getLsbD n = false ∧
    s.boot.failed.getLsbD n = false ∧
    2 ≤ failures := by decide +kernel
def wave (s : State) : List Nat := ((s.enabledSectors.filter fun n => s.boot.trained.getLsbD n && !s.boot.released.getLsbD n
  && !s.boot.failed.getLsbD n).take 4)
/-- A wave in the wrong state of the module, before the boot has begun, with a LEHR tile that no test names, and with
one that is hot. -/
theorem witness_SectorsTrainAndAreReleased_4 :
    let u : State := pick smpState 7 base
    let t0 : TileTest := { tile := 3, misr := [] }
    ∀ x ∈ [(pick smpState 0 base, []), (bt (fun b => { b with begun := false }) u, [t0]), (u, []),
        (u.modPhy 3 fun p => { p with thermLevel := 2 }, [t0])],
      let s : State := x.1
      let tests : List TileTest := x.2
      (s.plumb.gaffer ≠ .boot ∨ s.boot.begun = false ∨ s.boot.perst = true ∨ s.waveOpen = false ∨
        (∃ n ∈ s.enabledSectors, (s.boot.trained ||| s.boot.failed).getLsbD n = false) ∨
        (∃ n ∈ wave s, ∃ p ∈ physOfSector n, (s.phy p).cad = .lehr ∧
          (2 ≤ (s.phy p).thermLevel ∨ ∀ x ∈ tests, x.tile.val ≠ p))) := by decide +kernel
theorem witness_SectorsTrainAndAreReleased_5 :
    let s : State := pick smpState 3 base
    s.plumb.gaffer = .boot ∧
    s.boot.begun = true ∧
    s.boot.perst = false ∧
    s.waveOpen = true ∧
    (∀ n ∈ s.enabledSectors, (s.boot.trained ||| s.boot.failed).getLsbD n = true) ∧
    wave s = [0, 1, 2, 3] ∧
    (∀ n ∈ wave s, ∀ p ∈ physOfSector n, (s.phy p).cad ≠ .lehr) := by decide +kernel
/-- A wave with one LEHR tile, all of whose runs pass. -/
theorem witness_SectorsTrainAndAreReleased_6 :
    let s : State := pick smpState 7 base
    let n : Nat := 0
    let p : PhysId := 3
    (s.plumb.gaffer = .boot ∧
    s.boot.begun = true ∧
    s.boot.perst = false ∧
    s.waveOpen = true ∧
    (∀ n ∈ s.enabledSectors, (s.boot.trained ||| s.boot.failed).getLsbD n = true) ∧
    n ∈ wave s ∧
    sectorOfPhys p = n ∧
    (∀ m ∈ wave s, ∀ q ∈ physOfSector m, (s.phy q).cad = .lehr → q = p.val) ∧
    (s.phy p).cad = .lehr ∧
    (s.phy p).thermLevel ≤ 1 ∧
    twoWithinDay (s.phy p).mismatchAt = false ∧
    s.boot.rebuild.getLsbD n = false) ∧
    ∃ tests b, tests = [{ tile := p, misr := b : TileTest }] ∧ b = [0, 0, 1, 1, 2, 2, 3, 3].map Config.benchmark :=
  ⟨by decide +kernel, _, _, rfl, rfl⟩
/-- Training reported before the boot has begun. -/
theorem witness_SectorsTrainAndAreReleased_7 :
    let s : State := bt (fun b => { b with begun := false }) (pick smpState 1 base)
    s.plumb.gaffer = .boot ∧ s.boot.begun = false := by decide +kernel
end SectorsTrainAndAreReleased
/-! Hypotheses of `Obligations.ResetsAndBringup` (SequencerStepsRunAndEnd). -/
namespace SequencerStepsRunAndEnd
def w (l : Nat) (f : Boot → Boot) : State := bt (fun b => f {b with seqActive := true, seqSectors := 3, seqPorts := 3, seqLast := BitVec.ofNat 4 l, seqMask := 3}) ({ ((rich.modSector 0 (fun x => {x with enabled := true, st := .resetting})).modSector 1 (fun x => {x with enabled := true, st := .resetting})) with plumb := {rich.plumb with gaffer := .waitHost}, fabric := {ports := [(0,{st := .down,enabled:= true}),(1,{st := .training, enabled := true})]}})
def sts := [w 0 id, w 0 (fun b => {b with seqBusy := true}), w 0 (fun b => {b with seqActive := false}), w 0 (fun b => {b with seqSectors := 0, seqPorts := 0, imageDone := 3}), w 0 (fun b => {b with trained := 3}), w 0 (fun b => {b with trained := 3, released := 3, imageDone := 0xF}),
 w 1 (fun b => {b with seqBusy := true}), w 2 (fun b => {b with seqBusy := true, trained := 3}), w 3 (fun b => {b with seqBusy := true, trained := 3, released := 3}), w 4 (fun b => {b with seqBusy := true}), w 15 (fun b => {b with seqBusy := true, imageDone := 0xF})]
def smpState : List (String × (State)) := sts.map fun s => ("",s)
theorem witness_SequencerStepsRunAndEnd_1 :
    let step : Nat := 1
    let s : State := pick smpState 1 base
    (step = 1 ∨ step = 2 ∨ step = 3 ∨ step = 4 ∨ step = 15) ∧
    (s.boot.seqBusy = true ∨ s.boot.seqActive = false ∨ s.seqReady step = false) := by decide +kernel
theorem witness_SequencerStepsRunAndEnd_2 :
    let step : Nat := 1
    let s : State := pick smpState 3 base
    (step = 1 ∨ step = 2 ∨ step = 3 ∨ step = 4 ∨ step = 15) ∧
    s.boot.seqBusy = false ∧
    s.boot.seqActive = true ∧
    s.seqReady step = true ∧
    step ≠ 15 ∧
    ((if step = 4 then s.boot.seqPorts else s.boot.seqSectors) = 0) := by decide +kernel
theorem witness_SequencerStepsRunAndEnd_3 :
    let step : Nat := 4
    let s : State := pick smpState 0 base
    (step = 1 ∨ step = 2 ∨ step = 3 ∨ step = 4 ∨ step = 15) ∧
    s.boot.seqBusy = false ∧
    s.boot.seqActive = true ∧
    s.seqReady step = true ∧
    (step = 15 ∨ (if step = 4 then s.boot.seqPorts else s.boot.seqSectors) ≠ 0) ∧
    step = 4 := by decide +kernel
theorem witness_SequencerStepsRunAndEnd_4 :
    let s : State := pick smpState 6 base
    s.boot.seqBusy = true ∧
    s.plumb.gaffer ≠ .halted ∧
    s.boot.seqLast = 1 := by decide +kernel
theorem witness_SequencerStepsRunAndEnd_5 :
    let s : State := pick smpState 7 base
    s.boot.seqBusy = true ∧
    s.plumb.gaffer ≠ .halted ∧
    s.boot.seqLast = 2 ∧
    (∀ n ∈ setBits s.boot.seqMask, s.testsEnded [] n = true) := by decide +kernel
theorem witness_SequencerStepsRunAndEnd_6 :
    let s : State := pick smpState 8 base
    s.boot.seqBusy = true ∧
    s.plumb.gaffer ≠ .halted ∧
    s.boot.seqLast = 3 := by decide +kernel
theorem witness_SequencerStepsRunAndEnd_7 :
    let s : State := pick smpState 9 base
    s.boot.seqBusy = true ∧
    s.plumb.gaffer ≠ .halted ∧
    s.boot.seqLast = 4 := by decide +kernel
theorem witness_SequencerStepsRunAndEnd_8 :
    let s : State := pick smpState 10 base
    s.boot.seqBusy = true ∧
    s.plumb.gaffer ≠ .halted ∧
    s.boot.seqLast = 15 := by decide +kernel
/-- No step that runs, a halted Gaffer, and a release that lacks the test of a LEHR tile. -/
theorem witness_SequencerStepsRunAndEnd_9 :
    let u : State := pick smpState 7 base
    ∀ s ∈ [pick smpState 0 base, { u with plumb := { u.plumb with gaffer := .halted } },
        u.modPhy 3 fun p => { p with cad := .lehr }],
      (s.boot.seqBusy = false ∨ s.plumb.gaffer = .halted ∨ (s.boot.seqLast = 2 ∧ ∃ n ∈ setBits s.boot.seqMask,
        ∃ p ∈ physOfSector n, (s.phy p).cad = .lehr ∧ ∀ x ∈ ([] : List TileTest), x.tile.val ≠ p)) := by
  decide +kernel
/-- FINISH that ends while the Gaffer restarts. -/
theorem witness_SequencerStepsRunAndEnd_10 :
    let u : State := pick smpState 10 base
    let s : State := { u with plumb := { u.plumb with gaffer := .restarting } }
    s.boot.seqBusy = true ∧ s.plumb.gaffer ≠ .halted ∧ s.boot.seqLast = 15 ∧ s.plumb.gaffer ≠ .waitHost := by
  decide +kernel
end SequencerStepsRunAndEnd
/-! Hypotheses of `Obligations.FlashContents` (FirmwareIsStagedAndActivated). -/
namespace FirmwareIsStagedAndActivated
def fu (op n off a : Nat) := mkReq 0xA01 (bs [(1,op),(3,0),(4,n),(4,off),(4,0),(8,a)])
def rqs := [fu 0 0 0 0, fu 0 255 0 0, fu 0 256 0 0, fu 0 16777217 0 0, fu 1 4 0 0, fu 1 4 8 0, fu 1 4 252 0, fu 1 4 254 0, fu 2 0 0 0, fu 3 0 0 0, fu 4 0 0 0]
def ss (o : Option FwSession) (c : Bool) (b : FwSlot) : State := {rich with flash := {rich.flash with session := o, copied := c, slotB := b, svnFloor := 2}}
def x : FwSession := {length := 256}
def sts := [ss none true {}, ss none false {}, ss (some x) true {}, ss (some {x with written := 8}) true {bytes := [1,2,3,4,5,6,7,8]}, ss (some {x with written := 252}) true {}, ss (some {x with written := 254}) true {}, ss (some {x with written := 256}) true {svn := 1, authentic := true}, ss (some {x with written := 256}) true {svn := 2, authentic := true}, ss (some {x with written := 256}) true {svn := 2}, ss (some {x with written := 256, committed := true}) true {svn := 2, authentic := true},ss (some {x with written := 256, activating := true}) true {svn := 2, authentic := true}]
def pr (b : Bool) (t : DWord) (r : Bool) (a : Bool) : State := {rich with plumb := {rich.plumb with fwSlotB := b}, flash := {rich.flash with svnFloor := 1, runningSince := t, activated := a, copied := false, slotB := {svn := 4, raiseFloor := r, major := 9}}}
def prs := [pr false 5 true true, pr true 5 true true, pr true 5 false true, pr true 940000000000 true true, pr true 940000000001 true true,pr true 5 true false]
def smpListByte : List (String × (List Byte)) := (rqs.map fun r => ("",r)) ++ [("",[9,8,7,6])]
def smpState : List (String × (State)) := (sts.flatMap fun s => RQ rqs s) ++ prs.map fun s => ("",s)
theorem witness_FirmwareIsStagedAndActivated_1 :
    let src : Src := .mailbox 0
    let req : List Byte := pick smpListByte 1 ([])
    let s : State := pick smpState 1 base
    Fronts s src 0x0A01 req ∧
    let n : Nat := rq req 4 4
    (s.opsOf (srcFn src)).length < 8 ∧
    rq req 0 1 = 0 ∧
    n ≠ 0 ∧
    (n < 256 ∨ 16777216 < n) := by decide +kernel
theorem witness_FirmwareIsStagedAndActivated_2 :
    let src : Src := .mailbox 0
    let req : List Byte := pick smpListByte 0 ([])
    let s : State := pick smpState 11 base
    Fronts s src 0x0A01 req ∧
    let n : Nat := rq req 4 4
    (s.opsOf (srcFn src)).length < 8 ∧
    rq req 0 1 = 0 ∧
    (n = 0 ∨ (256 ≤ n ∧ n ≤ 16777216)) ∧
    (s.flash.session.isSome = true ∨ s.flash.copied = false) := by decide +kernel
theorem witness_FirmwareIsStagedAndActivated_3 :
    let src : Src := .mailbox 0
    let req : List Byte := pick smpListByte 0 ([])
    let s : State := pick smpState 0 base
    Fronts s src 0x0A01 req ∧
    let n : Nat := rq req 4 4
    (s.opsOf (srcFn src)).length < 8 ∧
    rq req 0 1 = 0 ∧
    n = 0 ∧
    s.flash.session = none ∧
    s.flash.copied = true := by decide +kernel
theorem witness_FirmwareIsStagedAndActivated_4 :
    let src : Src := .mailbox 0
    let req : List Byte := pick smpListByte 2 ([])
    let s : State := pick smpState 2 base
    Fronts s src 0x0A01 req ∧
    let n : Nat := rq req 4 4
    (s.opsOf (srcFn src)).length < 8 ∧
    rq req 0 1 = 0 ∧
    256 ≤ n ∧
    n ≤ 16777216 ∧
    s.flash.session = none ∧
    s.flash.copied = true := by decide +kernel
theorem witness_FirmwareIsStagedAndActivated_5 :
    let src : Src := .mailbox 0
    let req : List Byte := pick smpListByte 4 ([])
    let s : State := pick smpState 4 base
    Fronts s src 0x0A01 req ∧
    (s.opsOf (srcFn src)).length < 8 ∧
    rq req 0 1 = 1 ∧
    (∀ x, s.flash.session = some x → x.activating = true) := by decide +kernel
theorem witness_FirmwareIsStagedAndActivated_6 :
    let src : Src := .mailbox 0
    let req : List Byte := pick smpListByte 4 ([])
    let s : State := pick smpState 37 base
    Fronts s src 0x0A01 req ∧
    let n : Nat := rq req 4 4
    (s.opsOf (srcFn src)).length < 8 ∧
    rq req 0 1 = 1 ∧
    ∃ x, s.flash.session = some x ∧
      x.activating = false ∧
      (rq req 8 4 ≠ x.written ∨ x.length < x.written + n ∨ 0x100000 < n) := by decide +kernel
theorem witness_FirmwareIsStagedAndActivated_7 :
    let src : Src := .mailbox 0
    let host : Option (List Byte) := none
    let req : List Byte := pick smpListByte 4 ([])
    let s : State := pick smpState 26 base
    Fronts s src 0x0A01 req ∧
    let n : Nat := rq req 4 4
    (s.opsOf (srcFn src)).length < 8 ∧
    rq req 0 1 = 1 ∧
    ∃ x, s.flash.session = some x ∧
      x.activating = false ∧
      rq req 8 4 = x.written ∧
      x.written + n ≤ x.length ∧
      n ≤ 0x100000 ∧
      n ≠ 0 ∧
      host = none := by decide +kernel
theorem witness_FirmwareIsStagedAndActivated_8 :
    let src : Src := .mailbox 0
    let host : Option (List Byte) := (some [9,8,7,6] : Option (List Byte))
    let req : List Byte := pick smpListByte 4 ([])
    let s : State := pick smpState 26 base
    Fronts s src 0x0A01 req ∧
    let n : Nat := rq req 4 4
    (s.opsOf (srcFn src)).length < 8 ∧
    rq req 0 1 = 1 ∧
    ∃ x, s.flash.session = some x ∧
      x.activating = false ∧
      rq req 8 4 = x.written ∧
      x.written + n ≤ x.length ∧
      n ≤ 0x100000 ∧
      n ≠ 0 ∧
      ∃ h, host = some h ∧
        h.length = n := by decide +kernel
theorem witness_FirmwareIsStagedAndActivated_9 :
    let src : Src := .mailbox 0
    let req : List Byte := pick smpListByte 8 ([])
    let s : State := pick smpState 8 base
    Fronts s src 0x0A01 req ∧
    (s.opsOf (srcFn src)).length < 8 ∧
    rq req 0 1 = 2 ∧
    (∀ x, s.flash.session = some x → x.activating = true) := by decide +kernel
theorem witness_FirmwareIsStagedAndActivated_10 :
    let src : Src := .mailbox 0
    let req : List Byte := pick smpListByte 8 ([])
    let s : State := pick smpState 30 base
    Fronts s src 0x0A01 req ∧
    (s.opsOf (srcFn src)).length < 8 ∧
    rq req 0 1 = 2 ∧
    ∃ x, s.flash.session = some x ∧
      x.activating = false ∧
      (x.written ≠ x.length ∨ s.flash.slotB.svn < s.flash.svnFloor) := by decide +kernel
theorem witness_FirmwareIsStagedAndActivated_11 :
    let src : Src := .mailbox 0
    let req : List Byte := pick smpListByte 8 ([])
    let s : State := pick smpState 96 base
    Fronts s src 0x0A01 req ∧
    (s.opsOf (srcFn src)).length < 8 ∧
    rq req 0 1 = 2 ∧
    ∃ x, s.flash.session = some x ∧
      x.activating = false ∧
      x.written = x.length ∧
      s.flash.svnFloor ≤ s.flash.slotB.svn ∧
      s.flash.slotB.authentic = false := by decide +kernel
theorem witness_FirmwareIsStagedAndActivated_12 :
    let src : Src := .mailbox 0
    let req : List Byte := pick smpListByte 8 ([])
    let s : State := pick smpState 85 base
    Fronts s src 0x0A01 req ∧
    (s.opsOf (srcFn src)).length < 8 ∧
    rq req 0 1 = 2 ∧
    ∃ x, s.flash.session = some x ∧
      x.activating = false ∧
      x.written = x.length ∧
      s.flash.svnFloor ≤ s.flash.slotB.svn ∧
      s.flash.slotB.authentic = true := by decide +kernel
theorem witness_FirmwareIsStagedAndActivated_13 :
    let src : Src := .mailbox 0
    let req : List Byte := pick smpListByte 9 ([])
    let s : State := pick smpState 9 base
    Fronts s src 0x0A01 req ∧
    (s.opsOf (srcFn src)).length < 8 ∧
    rq req 0 1 = 3 ∧
    (∀ x, s.flash.session = some x → (x.committed = false ∧ x.activating = false) ∨
      (x.activating = true ∧ ∃ o ∈ s.delash.ops, o.work = .activate ∧ o.final = none)) := by decide +kernel
theorem witness_FirmwareIsStagedAndActivated_14 :
    let src : Src := .mailbox 0
    let req : List Byte := pick smpListByte 9 ([])
    let s : State := pick smpState 108 base
    Fronts s src 0x0A01 req ∧
    (s.opsOf (srcFn src)).length < 8 ∧
    rq req 0 1 = 3 ∧
    ∃ x, s.flash.session = some x ∧
      x.committed = true ∧
      x.activating = false ∧
      s.flashBusy = false := by decide +kernel
theorem witness_FirmwareIsStagedAndActivated_15 :
    let src : Src := .mailbox 0
    let req : List Byte := pick smpListByte 10 ([])
    let s : State := pick smpState 32 base
    Fronts s src 0x0A01 req ∧
    (s.opsOf (srcFn src)).length < 8 ∧
    rq req 0 1 = 4 ∧
    ∃ x, s.flash.session = some x ∧ x.activating = false := by decide +kernel
theorem witness_FirmwareIsStagedAndActivated_16 :
    let src : Src := .mailbox 0
    let req : List Byte := pick smpListByte 10 ([])
    let s : State := pick smpState 10 base
    Fronts s src 0x0A01 req ∧
    (s.opsOf (srcFn src)).length < 8 ∧
    rq req 0 1 = 4 ∧
    (∀ x, s.flash.session = some x → x.activating = true) := by decide +kernel
def op1 : LongOp := { fn := 0, id := 9, opcode := 0x0A01, work := .flash 0 [1] }
/-- Flash work of an earlier GO stands. -/
def busy (s : State) : State := s.modDelash fun d => { d with ops := [op1] }
/-- No promotion: from slot A, too early, with flash work, with a session, with a slot B that is not accepted, and with
an image that no ACTIVATE named. -/
theorem witness_FirmwareIsStagedAndActivated_17 :
    let u : State := pick smpState 122 base
    let a (s : State) (x : FwSlot) : State := { s with flash := { s.flash with slotA := x } }
    let good : FwSlot := { svn := 4, authentic := true }
    ∀ s ∈ [pick smpState 0 base, pick smpState 124 base, busy u, { u with flash := { u.flash with session := some x } },
        { u with flash := { u.flash with slotB := { svn := 4 } } },
        a { u with flash := { u.flash with activated := false } } good],
      (s.plumb.gaffer ≠ .running ∨ s.plumb.fwSlotB = false ∨
        s.deviceTime.toNat < s.flash.runningSince.toNat + 60000000000 ∨ s.flashBusy = true ∨
        s.flash.session.isSome = true ∨ s.flash.accepts s.flash.slotB = false ∨
        (s.flash.activated = false ∧ s.flash.accepts s.flash.slotA = true)) := by decide +kernel
/-- A promotion after an activated image, and after a fall back to B. -/
theorem witness_FirmwareIsStagedAndActivated_18 :
    ∀ x ∈ [(true, true), (false, false), (false, true)],
      let u : State := pick smpState 122 base
      let s : State := { u with flash := { u.flash with activated := x.1, slotA := { svn := 4, authentic := x.1 }
                                                        slotB := { svn := 4, authentic := true, raiseFloor := x.2 } } }
      s.plumb.gaffer = .running ∧
      s.plumb.fwSlotB = true ∧
      s.flashBusy = false ∧
      s.flash.session = none ∧
      s.flash.accepts s.flash.slotB = true ∧
      (s.flash.activated = true ∨ s.flash.accepts s.flash.slotA = false) ∧
      s.flash.runningSince.toNat + 60000000000 ≤ s.deviceTime.toNat := by decide +kernel
/-- A WRITE of no bytes. -/
theorem witness_FirmwareIsStagedAndActivated_19 :
    let src : Src := .mailbox 0
    let req : List Byte := fu 1 0 0 0
    let s : State := withReq src req (ss (some x) true {})
    Fronts s src 0x0A01 req ∧
    let n : Nat := rq req 4 4
    (s.opsOf (srcFn src)).length < 8 ∧
    rq req 0 1 = 1 ∧
    ∃ x, s.flash.session = some x ∧ x.activating = false ∧ rq req 8 4 = x.written ∧ x.written ≤ x.length ∧ n = 0 := by
  decide +kernel
/-- WRITE, COMMIT and CANCEL once ACTIVATE has been answered, and ACTIVATE while its restart waits. -/
theorem witness_FirmwareIsStagedAndActivated_20 :
    ∀ op ∈ [1, 2, 3, 4],
      let src : Src := .mailbox 0
      let req : List Byte := fu op 4 0 0
      let act : LongOp := { op1 with work := .activate }
      let s : State := (withReq src req (pick smpState 110 base)).modDelash fun d => { d with ops := [op1, act] }
      Fronts s src 0x0A01 req ∧ (s.opsOf (srcFn src)).length < 8 ∧ rq req 0 1 = op ∧
      s.flash.session.isSome = true ∧ (∀ x, s.flash.session = some x → x.activating = true) ∧
      ∃ o ∈ s.delash.ops, o.work = .activate ∧ o.final = none := by decide +kernel
/-- A committed image, with flash work of an earlier GO, and every operation behind such work. -/
theorem witness_FirmwareIsStagedAndActivated_21 :
    ∀ op ∈ [0, 1, 2, 3, 4],
      let src : Src := .mailbox 0
      let req : List Byte := fu op 0 256 0
      let s : State := busy (withReq src req (pick smpState 108 base))
      Fronts s src 0x0A01 req ∧ (s.opsOf (srcFn src)).length < 8 ∧ rq req 0 1 = op ∧ s.flashBusy = true ∧
      ∃ x, s.flash.session = some x ∧ x.committed = true ∧ x.activating = false := by decide +kernel
end FirmwareIsStagedAndActivated
/-! Hypotheses of `Obligations.FlashContents` (LicencesAndBlocksGoToFlash). -/
namespace LicencesAndBlocksGoToFlash
def li (n : Nat) := mkReq 0xA02 (bs [(4,n),(4,0),(8,0)])
def cw (k n : Nat) := mkReq 0xA03 (bs [(1,k),(3,0),(4,n),(4,0),(4,0)])
def rqs := [li 0, li 255, li 256, cw 0 0, cw 2 0, cw 2 63, cw 2 64, cw 0 64]
def crcd (b : List Byte) : List Byte := b ++ leBytes 4 (crc32c b).toNat
def pat (n : Nat) (fs : List (Nat × Nat × Nat)) : List Byte := fs.foldl (fun b f => patch b f.1 (leBytes f.2.1 f.2.2)) (fit n [])
def prof (g : Nat) := crcd (pat 60 [(0,4,0x4C465250),(4,2,1),(8,4,g),(12,1,1)])
def licb := crcd (pat 252 [(0,4,0x43494C42),(4,2,1),(6,1,0),(0x10,4,1),(0x14,2,0xFF)])
def hosts : List (List Byte) := [licb, List.replicate 256 0, prof 0, prof 1, List.replicate 64 0]
def fls : List State := [rich, {rich with flash := {rich.flash with prof0 := prof 5, prof1 := prof 6}, boot := {rich.boot with profGen := 6}}, {rich with flash := {rich.flash with prof0 := prof 7, prof1 := prof 6}, boot := {rich.boot with profGen := 7}}]
def smpListByte : List (String × (List Byte)) := (rqs ++ hosts).map fun r => ("",r)
def smpState : List (String × (State)) := (fls.flatMap fun s => RQ rqs s)
def smpOptionListByte : List (String × (Option (List Byte))) := [("",none)] ++ hosts.map fun h => ("",some h)
set_option maxRecDepth 100000 in
theorem witness_LicencesAndBlocksGoToFlash_1 :
    let src : Src := .mailbox 0
    let req : List Byte := pick smpListByte 0 ([])
    let s : State := pick smpState 0 base
    Fronts s src 0x0A02 req ∧
    (s.opsOf (srcFn src)).length < 8 ∧
    rq req 0 4 = 0 := by decide +kernel
set_option maxRecDepth 100000 in
theorem witness_LicencesAndBlocksGoToFlash_2 :
    let src : Src := .mailbox 0
    let host : Option (List Byte) := pick smpOptionListByte 0 none
    let req : List Byte := pick smpListByte 1 ([])
    let s : State := pick smpState 1 base
    Fronts s src 0x0A02 req ∧
    (s.opsOf (srcFn src)).length < 8 ∧
    rq req 0 4 ≠ 0 ∧
    (rq req 0 4 ≠ 256 ∨ host = none) := by decide +kernel
set_option maxRecDepth 100000 in
theorem witness_LicencesAndBlocksGoToFlash_3 :
    let src : Src := .mailbox 0
    let req : List Byte := pick smpListByte 2 []
    let s : State := pick smpState 2 base
    let b : List Byte := List.replicate 256 0
    Fronts s src 0x0A02 req ∧
    (s.opsOf (srcFn src)).length < 8 ∧
    rq req 0 4 = 256 ∧
    b.length = 256 ∧
    licenceSigned b = false := by decide +kernel
set_option maxRecDepth 100000 in
/-- A licence whose checksum is right and whose fields are wrong: the signature check is uninterpreted. -/
theorem witness_LicencesAndBlocksGoToFlash_9 :
    let b : List Byte := crcd (List.replicate 252 0)
    (b.length = 256 ∧ licenceFields b = false) ∧ licenceSigned b = Config.licenceSignature b := by
  have h : crcOk (crcd (List.replicate 252 0)) = true := by decide +kernel
  exact ⟨by decide +kernel, by rw [licenceSigned, h, Bool.true_and]⟩
def licGood : List Byte := crcd (pat 252 [(0,4,0x43494C42),(4,2,1),(6,1,1),(7,1,tierFeatures 1),(0x10,4,1),(0x14,2,0xFFF)])
set_option maxRecDepth 100000 in
/-- A licence that no stored licence outdates, for a module of serial number 0 (the serial number and
the signature check are uninterpreted). -/
theorem witness_LicencesAndBlocksGoToFlash_10 (serial : Config.serial = 0) :
    let src : Src := .mailbox 0
    let req : List Byte := pick smpListByte 2 []
    let s : State := pick smpState 2 base
    (Fronts s src 0x0A02 req ∧ rq req 0 4 = 256 ∧ licGood.length = 256) ∧
    licenceFields licGood = true ∧
    licenceSigned licGood = Config.licenceSignature licGood ∧
    (∀ o, chooseLicence s.flash.lic0 s.flash.lic1 = some o → licSeq o < licSeq licGood) := by
  have h : crcOk licGood = true := by decide +kernel
  have e : chooseLicence (pick smpState 2 base).flash.lic0 (pick smpState 2 base).flash.lic1 = none := by decide +kernel
  exact ⟨by decide +kernel, by unfold licenceFields; rw [serial]; decide +kernel, by rw [licenceSigned, h, Bool.true_and],
    fun o h => by rw [e] at h; exact nomatch h⟩
set_option maxRecDepth 100000 in
theorem witness_LicencesAndBlocksGoToFlash_4 :
    let src : Src := .mailbox 0
    let req : List Byte := pick smpListByte 3 ([])
    let s : State := pick smpState 3 base
    Fronts s src 0x0A03 req ∧
    (s.opsOf (srcFn src)).length < 8 ∧
    rq req 4 4 = 0 := by decide +kernel
set_option maxRecDepth 100000 in
theorem witness_LicencesAndBlocksGoToFlash_5 :
    let src : Src := .mailbox 0
    let host : Option (List Byte) := pick smpOptionListByte 0 none
    let req : List Byte := pick smpListByte 5 ([])
    let s : State := pick smpState 5 base
    Fronts s src 0x0A03 req ∧
    (s.opsOf (srcFn src)).length < 8 ∧
    let k : Block := blockOf (rq req 0 1)
    rq req 4 4 ≠ 0 ∧
    (rq req 4 4 ≠ k.size ∨ host = none) := by decide +kernel
set_option maxRecDepth 100000 in
theorem witness_LicencesAndBlocksGoToFlash_6 :
    let src : Src := .mailbox 0
    let host : Option (List Byte) := pick smpOptionListByte 5 none
    let req : List Byte := pick smpListByte 6 ([])
    let s : State := pick smpState 6 base
    Fronts s src 0x0A03 req ∧
    (s.opsOf (srcFn src)).length < 8 ∧
    let k : Block := blockOf (rq req 0 1)
    rq req 4 4 = k.size ∧
    ∃ b, host = some b ∧
      b.length = k.size ∧
      crcOk b = false := by decide +kernel
set_option maxRecDepth 100000 in
theorem witness_LicencesAndBlocksGoToFlash_7 :
    let src : Src := .mailbox 0
    let host : Option (List Byte) := pick smpOptionListByte 4 none
    let req : List Byte := pick smpListByte 6 ([])
    let s : State := pick smpState 6 base
    Fronts s src 0x0A03 req ∧
    (s.opsOf (srcFn src)).length < 8 ∧
    let k : Block := blockOf (rq req 0 1)
    rq req 4 4 = k.size ∧
    ∃ b, host = some b ∧
      b.length = k.size ∧
      crcOk b = true ∧
      (k.fields b = false ∨ genOf b ≠ 0) := by decide +kernel
set_option maxRecDepth 100000 in
theorem witness_LicencesAndBlocksGoToFlash_8 :
    let src : Src := .mailbox 0
    let host : Option (List Byte) := pick smpOptionListByte 3 none
    let req : List Byte := pick smpListByte 6 ([])
    let s : State := pick smpState 6 base
    Fronts s src 0x0A03 req ∧
    (s.opsOf (srcFn src)).length < 8 ∧
    let k : Block := blockOf (rq req 0 1)
    rq req 4 4 = k.size ∧
    ∃ b, host = some b ∧
      b.length = k.size ∧
      crcOk b = true ∧
      k.fields b = true ∧
      genOf b = 0 := by decide +kernel
end LicencesAndBlocksGoToFlash
/-! Hypotheses of `Obligations.PowerAndThermal` (PowerCapFollowsTheLimit). -/
namespace PowerCapFollowsTheLimit
def pw (f : Power → Power) (s : State) : State := {s with power := f s.power}
def mx (s : State) : State := {pw (fun p => {p with maxProfile := 2, requested := 2, ceil := 1650}) s with plumb := {s.plumb with profile := 2, pins := 2}}
def sts := [rich, mx rich, pw (fun p => {p with ceil := 500, gate := 16}) (mx rich), pw (fun p => {p with ceil := 400, gate := 1}) (mx rich), pw (fun p => {p with ceil := 400, gate := 9}) (mx rich), pw (fun p => {p with ceil := 450, calm := 9}) (mx rich), pw (fun p => {p with ceil := 425, calm := 8,recovering := true}) (mx rich), pw (fun p => {p with pwrbrk := true}) (mx rich), pw (fun p => {p with limitW := 700}) (mx rich), bt (fun b => {b with auxOn := false}) rich, pw (fun p => {p with pinForce := 1}) (mx rich),pw (fun p => {p with pinForce := 2}) (mx rich),pw (fun p => {p with pinForce := 3}) (mx rich)]
def smpState : List (String × (State)) := sts.map fun s => ("",s)
def smpNat : List (String × (Nat)) := ns ([0,500,679,700,701,735,736,1600,1000,970,969,1050,1051,1500,70000] ++ (sts.flatMap fun s => let l := s.powerLimit; [l, l+1, l*97/100, l*97/100+1, l*105/100,l*105/100+1]))
theorem witness_PowerCapFollowsTheLimit_1 :
    let s : State := pick smpState 9 base
    s.boot.auxOn = false := by decide +kernel
theorem witness_PowerCapFollowsTheLimit_2 :
    let pins : BitVec 2 := 0
    let s : State := pick smpState 0 base
    s.boot.auxOn = true ∧
    (pinProfile s.power.pinForce).toNat ≤ (pinProfile pins).toNat := by decide +kernel
theorem witness_PowerCapFollowsTheLimit_3 :
    let pins : BitVec 2 := 0
    let s : State := pick smpState 10 base
    s.boot.auxOn = true ∧
    (pinProfile pins).toNat < (pinProfile s.power.pinForce).toNat := by decide +kernel
theorem witness_PowerCapFollowsTheLimit_4 :
    let w : Nat := pick smpNat 4 0
    let s : State := pick smpState 8 base
    s.boot.auxOn = true ∧
    s.powerLimit < w ∧
    w * 100 ≤ s.powerLimit * 105 ∧
    425 ≤ s.power.ceil := by decide +kernel
theorem witness_PowerCapFollowsTheLimit_5 :
    let w : Nat := pick smpNat 2 0
    let s : State := pick smpState 7 base
    s.boot.auxOn = true ∧
    s.powerLimit < w ∧
    s.powerLimit * 105 < w * 100 ∧
    500 ≤ s.power.ceil := by decide +kernel
theorem witness_PowerCapFollowsTheLimit_6 :
    let w : Nat := pick smpNat 14 0
    let s : State := pick smpState 3 base
    s.boot.auxOn = true ∧
    s.powerLimit < w ∧
    s.power.ceil ≤ 400 := by decide +kernel
theorem witness_PowerCapFollowsTheLimit_7 :
    let w : Nat := pick smpNat 1 0
    let s : State := pick smpState 7 base
    s.boot.auxOn = true ∧
    w ≤ s.powerLimit ∧
    s.powerLimit * 97 ≤ w * 100 := by decide +kernel
theorem witness_PowerCapFollowsTheLimit_8 :
    let w : Nat := pick smpNat 0 0
    let s : State := pick smpState 3 base
    s.boot.auxOn = true ∧
    w * 100 < s.powerLimit * 97 ∧
    s.power.gate < 16 := by decide +kernel
theorem witness_PowerCapFollowsTheLimit_9 :
    let w : Nat := pick smpNat 0 0
    let s : State := pick smpState 0 base
    s.boot.auxOn = true ∧
    w * 100 < s.powerLimit * 97 ∧
    s.power.gate = 16 ∧
    s.power.recovering = false := by decide +kernel
theorem witness_PowerCapFollowsTheLimit_10 :
    let s : State := pick smpState 7 base
    s.power.pwrbrk = true := by decide +kernel
theorem witness_PowerCapFollowsTheLimit_11 :
    let s : State := pick smpState 0 base
    s.power.pwrbrk = false ∧
    s.boot.auxOn = true := by decide +kernel
/-- The recovery from PWRBRK#. -/
theorem witness_PowerCapFollowsTheLimit_12 :
    let w : Nat := 0
    let s : State := pick smpState 6 base
    s.boot.auxOn = true ∧ w * 100 < s.powerLimit * 97 ∧ s.power.gate = 16 ∧ s.power.recovering = true := by decide +kernel
/-- PWRBRK# without the auxiliary supply. -/
theorem witness_PowerCapFollowsTheLimit_13 :
    let s : State := pick smpState 9 base
    let u : State := pw (fun p => { p with pwrbrk := true }) s
    s.power.pwrbrk = false ∧ s.boot.auxOn = false ∧ u.power.pwrbrk = true ∧ u.boot.auxOn = false := by decide +kernel
end PowerCapFollowsTheLimit
/-! Hypotheses of `Obligations.PowerAndThermal` (TemperaturesDroopsAndRails). -/
namespace TemperaturesDroopsAndRails
def ph (f : Phys → Phys) (s : State) : State := s.modPhy 4 f
def sts := [rich, ph (fun x => {x with thermLevel := 1, temp := 95, powered := true}) rich, ph (fun x => {x with thermLevel := 2, peak := 120, powered := true, droopEvent := 0xFFFF}) rich, ph (fun x => {x with thermLevel := 3,powered := true, droopMark := 100, droopMv := 38}) rich,  ph (fun x => {x with droopMark := 99, droopMv := 38, lastDroop := 999000000001}) rich, ph (fun x => {x with droopMark := 99, droopMv := 38, lastDroop := 999000000000}) rich, ph (fun x => {x with droopMark := 99, droopMv := 3, lastDroop := 999000000000}) rich, bt (fun b => {b with auxOn := false}) rich, bt (fun b => {b with railsOk := false}) rich,bt (fun b => {b with regulators := false}) rich]
def smpState : List (String × (State)) := sts.map fun s => ("",s)
theorem witness_TemperaturesDroopsAndRails_1 :
    let c : Nat := 105
    let s : State := pick smpState 0 base
    s.boot.auxOn = true ∧
    c < 115 ∧
    105 ≤ c := by decide +kernel
theorem witness_TemperaturesDroopsAndRails_2 :
    let c : Nat := 0
    let s : State := pick smpState 0 base
    s.boot.auxOn = true ∧
    c < 115 ∧
    c < 92 := by decide +kernel
theorem witness_TemperaturesDroopsAndRails_3 :
    let c : Nat := 95
    let s : State := pick smpState 0 base
    s.boot.auxOn = true ∧
    c < 115 ∧
    95 ≤ c ∧
    c < 97 := by decide +kernel
theorem witness_TemperaturesDroopsAndRails_4 :
    let c : Nat := 92
    let s : State := pick smpState 0 base
    s.boot.auxOn = true ∧
    c < 115 ∧
    92 ≤ c ∧
    c < 95 := by decide +kernel
theorem witness_TemperaturesDroopsAndRails_5 :
    let c : Nat := 575
    let s : State := pick smpState 0 base
    s.boot.auxOn = true ∧
    115 ≤ c ∧
    s.faults.thermTrip = false := by decide +kernel
theorem witness_TemperaturesDroopsAndRails_6 :
    let s : State := pick smpState 7 base
    s.boot.auxOn = false := by decide +kernel
theorem witness_TemperaturesDroopsAndRails_7 :
    let p : PhysId := 4
    let s : State := pick smpState 0 base
    (s.phy p).powered = false := by decide +kernel
theorem witness_TemperaturesDroopsAndRails_8 :
    let p : PhysId := 4
    let s : State := pick smpState 1 base
    (s.phy p).powered = true := by decide +kernel
theorem witness_TemperaturesDroopsAndRails_9 :
    let p : PhysId := 4
    let s : State := pick smpState 3 base
    100 ≤ (s.phy p).droopMark := by decide +kernel
theorem witness_TemperaturesDroopsAndRails_10 :
    let p : PhysId := 4
    let s : State := pick smpState 0 base
    (s.phy p).droopMark < 100 ∧
    (s.phy p).lastDroop.toNat + 1000000000 ≤ s.deviceTime.toNat := by decide +kernel
theorem witness_TemperaturesDroopsAndRails_11 :
    let p : PhysId := 4
    let s : State := pick smpState 4 base
    (s.phy p).droopMark < 100 ∧
    s.deviceTime.toNat < (s.phy p).lastDroop.toNat + 1000000000 := by decide +kernel
theorem witness_TemperaturesDroopsAndRails_12 :
    let s : State := pick smpState 8 base
    s.boot.railsOk = false := by decide +kernel
theorem witness_TemperaturesDroopsAndRails_13 :
    let s : State := pick smpState 0 base
    s.boot.railsOk = true ∧
    s.boot.regulators = true := by decide +kernel
/-- The values where the clauses of Table 14.3 meet, at every level. -/
theorem witness_TemperaturesDroopsAndRails_14 :
    ∀ c ∈ [91, 92, 94, 95, 96, 97, 99, 100, 101, 102, 104, 105, 114], ∀ l ∈ [0, 1, 2, 3],
      let p : PhysId := 4
      let s : State := ph (fun x => { x with thermLevel := l }) rich
      s.boot.auxOn = true ∧ c < 115 ∧ (s.phy p).thermLevel = l ∧
      ([decide (105 ≤ c), decide (c < 92), decide (95 ≤ c ∧ c < 97), decide (92 ≤ c ∧ c < 95), decide (97 ≤ c ∧ c < 100),
        decide (100 ≤ c ∧ c < 102), decide (102 ≤ c ∧ c < 105)].filter id).length = 1 := by decide +kernel
/-- A visit that waits for its tile to cool. -/
theorem witness_TemperaturesDroopsAndRails_15 :
    let p : PhysId := 4
    let v : Visit := { waits := true }
    let s : State := ph (fun x => { x with thermLevel := 2, visit := some v }) rich
    s.boot.auxOn = true ∧ (s.phy p).visit = some v ∧ v.waits = true := by decide +kernel
/-- A rail that leaves its range with the regulators off. -/
theorem witness_TemperaturesDroopsAndRails_16 :
    let s : State := pick smpState 9 base
    s.boot.railsOk = true ∧ s.boot.regulators = false := by decide +kernel
end TemperaturesDroopsAndRails
end Sys2Proof.Tests.Boot
end

