-- ==== Sys2Proof/Tests/Contexts.lean ====
section
/-! SUPPORT. Contexts: for the obligations about it, states and operands that meet the hypotheses of each clause. -/
open Sys2Proof Sys2Proof.Machine
namespace Sys2Proof.Tests.Contexts
set_option Elab.async false
def RQ (rs : List (List Byte)) (s : State) : List (String × State) := rs.flatMap fun r => [("m0",withReq (.mailbox 0) r s)]
def d1 (fs : List (Nat × Nat × Nat)) (id : Nat := 9) (type : Nat := 1) : Desc := dsc id type fs
/-! Hypotheses of `Obligations.ContextsAreMadeAndFreed` (CtxCreateMakesContexts). -/
namespace CtxCreateMakesContexts
def cr (n fl mask job : Nat) : List Byte := mkReq 0x0201 (bs [(1,n),(1,fl),(2,mask),(4,job),(8,0x1234),(4,500)])
def rqs := [cr 2 0 0 99, cr 1 0 8 0, cr 1 0 1 0, cr 3 0 0 0, cr 1 0 0 77, cr 0 0 0 0, cr 2 0 8 5]
def st : State := { base with tiles := [(64,{regions := [(3,{size := 5})]}),(100,{regions := [(3,{size := 5})]})], cores := base.cores ++ [(1030,rc),(1700,rc)] }
def full : State := { st with ctxs := (List.range 16).map fun k => (k, runCtx 0 1 (k + 200)) }
def smpListByte : List (String × (List Byte)) := rqs.map fun r => ("",r)
def smpState : List (String × (State)) := RQ rqs st ++ RQ [cr 0 0 0 0] full
theorem witness_CtxCreateMakesContexts_1 :
    let src : Src := .mailbox 0
    let req : List Byte := pick smpListByte 4 ([])
    let s : State := pick smpState 4 base
    Fronts s src 0x0201 req ∧
    bits (rq req 1 1) 2 1 = 0 ∧
    s.jobHeld (BitVec.ofNat 32 (rq req 4 4)) = true := by decide +kernel
theorem witness_CtxCreateMakesContexts_2 :
    let src : Src := .mailbox 0
    let req : List Byte := pick smpListByte 5 ([])
    let s : State := pick smpState 5 base
    Fronts s src 0x0201 req ∧
    let mask : BitVec 16 := BitVec.ofNat 16 (rq req 2 2)
    bits (rq req 1 1) 2 1 = 0 ∧
    s.jobHeld (BitVec.ofNat 32 (rq req 4 4)) = false ∧
    (mask = 0 ∨ popCount mask = rq req 0 1) ∧
    rq req 0 1 = 0 ∧
    (∃ k : Fin 16, (s.ctx k).st = .free) := by decide +kernel
theorem witness_CtxCreateMakesContexts_3 :
    let src : Src := .mailbox 0
    let req : List Byte := pick smpListByte 5 ([])
    let s : State := pick smpState 7 base
    Fronts s src 0x0201 req ∧
    let mask : BitVec 16 := BitVec.ofNat 16 (rq req 2 2)
    bits (rq req 1 1) 2 1 = 0 ∧
    s.jobHeld (BitVec.ofNat 32 (rq req 4 4)) = false ∧
    (mask = 0 ∨ popCount mask = rq req 0 1) ∧
    (∀ k : Fin 16, (s.ctx k).st ≠ .free) := by decide +kernel
theorem witness_CtxCreateMakesContexts_4 :
    let src : Src := .mailbox 0
    let req : List Byte := pick smpListByte 2 []
    let s : State := pick smpState 2 base
    (Fronts s src 0x0201 req ∧
      bits (rq req 1 1) 2 1 = 0 ∧
      s.jobHeld (BitVec.ofNat 32 (rq req 4 4)) = false ∧
      (BitVec.ofNat 16 (rq req 2 2) = (0 : BitVec 16) ∨ popCount (BitVec.ofNat 16 (rq req 2 2)) = rq req 0 1)) ∧
    s.pickSectors (rq req 0 1) (BitVec.ofNat 16 (rq req 2 2)) = .error stNoResource :=
  ⟨by decide +kernel, isError_of (by decide +kernel)⟩
theorem witness_CtxCreateMakesContexts_5 :
    let src : Src := .mailbox 0
    let req : List Byte := pick smpListByte 0 []
    let s : State := pick smpState 0 base
    (Fronts s src 0x0201 req ∧
      bits (rq req 1 1) 2 1 = 0 ∧
      s.jobHeld (BitVec.ofNat 32 (rq req 4 4)) = false ∧
      (BitVec.ofNat 16 (rq req 2 2) = (0 : BitVec 16) ∨ popCount (BitVec.ofNat 16 (rq req 2 2)) = rq req 0 1) ∧
      rq req 0 1 ≠ 0 ∧
      (List.range 16).find? (fun k => (s.ctx k).st == .free) = some 2) ∧
    s.pickSectors (rq req 0 1) (BitVec.ofNat 16 (rq req 2 2)) = .ok [2, 3] :=
  ⟨by decide +kernel, isOk_of (by decide +kernel)⟩
end CtxCreateMakesContexts
/-! Hypotheses of `Obligations.QueuesAndDescriptors` (QueuesAndDoorbells). -/
namespace QueuesAndDoorbells
def qc (k j sq cq v sa ca : Nat) := mkReq 0x0301 (bs [(1,k),(1,j),(2,sq),(2,cq),(2,v),(8,sa),(8,ca)])
def qd (j : Nat) := mkReq 0x0302 (bs [(1,j)])
def rqs := [qc 0 1 16 32 2 0x1000 0x2000, qc 0 1 16 32 2 0x1010 0x2000, qc 0 2 16 32 2 0x1000 0x2000, qc 0 1 0 32 2 0x1000 0x2000, qd 2, qd 0, qd 3]
def st : State := { base with queues := [(0,{hq 0 [] with unreturned := 3, cqHead := 14}),(2,hq 0 [])] }
def smpListByte : List (String × (List Byte)) := (rqs ++ [[0,0,0,0]]).map fun r => ("",r)
def smpState : List (String × (State)) := RQ rqs st
theorem witness_QueuesAndDoorbells_1 :
    let src : Src := .mailbox 0
    let req : List Byte := pick smpListByte 2 ([])
    let s : State := pick smpState 2 base
    Fronts s src 0x0301 req ∧
    let k : Nat := rq req 0 1
    let j : Nat := rq req 1 1
    ((s.ctx k).st = .ready ∨ (s.ctx k).st = .running ∨ (s.ctx k).st = .drained) ∧
    (s.queue (srcFn src) j).present = true := by decide +kernel
theorem witness_QueuesAndDoorbells_2 :
    let src : Src := .mailbox 0
    let req : List Byte := pick smpListByte 3 ([])
    let s : State := pick smpState 3 base
    Fronts s src 0x0301 req ∧
    let k : Nat := rq req 0 1
    let j : Nat := rq req 1 1
    ((s.ctx k).st = .ready ∨ (s.ctx k).st = .running ∨ (s.ctx k).st = .drained) ∧
    (s.queue (srcFn src) j).present = false ∧
    (rq req 2 2 = 0 ∨ rq req 4 2 = 0) := by decide +kernel
theorem witness_QueuesAndDoorbells_3 :
    let src : Src := .mailbox 0
    let req : List Byte := pick smpListByte 0 ([])
    let s : State := pick smpState 0 base
    Fronts s src 0x0301 req ∧
    let k : Nat := rq req 0 1
    let j : Nat := rq req 1 1
    ((s.ctx k).st = .ready ∨ (s.ctx k).st = .running ∨ (s.ctx k).st = .drained) ∧
    (s.queue (srcFn src) j).present = false ∧
    rq req 2 2 ≠ 0 ∧
    rq req 4 2 ≠ 0 := by decide +kernel
theorem witness_QueuesAndDoorbells_4 :
    let src : Src := .mailbox 0
    let req : List Byte := pick smpListByte 1 ([])
    let s : State := pick smpState 1 base
    s.delash.order = [src] ∧
    s.request src = some req ∧
    rqOpcode req = 0x0301 ∧
    rqPoll req = false ∧
    s.gafferUp = true ∧
    (rq req 8 8 % 64 ≠ 0 ∨ rq req 16 8 % 32 ≠ 0) := by decide +kernel
theorem witness_QueuesAndDoorbells_5 :
    let src : Src := .mailbox 0
    let req : List Byte := pick smpListByte 6 ([])
    let s : State := pick smpState 6 base
    Fronts s src 0x0302 req ∧
    (∀ o ∈ s.delash.ops, o.work ≠ .qDestroy (srcFn src) (rq req 0 1)) ∧
    (s.queue (srcFn src) (rq req 0 1)).present = false := by decide +kernel
theorem witness_QueuesAndDoorbells_6 :
    let src : Src := .mailbox 0
    let req : List Byte := pick smpListByte 4 ([])
    let s : State := pick smpState 4 base
    Fronts s src 0x0302 req ∧
    (∀ o ∈ s.delash.ops, o.work ≠ .qDestroy (srcFn src) (rq req 0 1)) ∧
    (s.queue (srcFn src) (rq req 0 1)).present = true ∧
    (s.queue (srcFn src) (rq req 0 1)).descs = [] := by decide +kernel
theorem witness_QueuesAndDoorbells_7 :
    let f : FnId := 0
    let slot : SlotId := 0
    let v : Word := 16
    let s : State := pick smpState 0 base
    let q : HostQueue := s.queue f slot
    let h : Nat := v.toNat % 65536
    (q.present = false ∨ q.sqEntries ≤ h) := by decide +kernel
theorem witness_QueuesAndDoorbells_8 :
    let f : FnId := 0
    let slot : SlotId := 0
    let v : Word := 0
    let s : State := pick smpState 0 base
    let q : HostQueue := s.queue f slot
    let h : Nat := v.toNat % 65536
    q.present = true ∧
    h < q.sqEntries := by decide +kernel
theorem witness_QueuesAndDoorbells_9 :
    let f : FnId := 0
    let slot : SlotId := 0
    let v : Word := 2
    let s : State := pick smpState 0 base
    let q : HostQueue := s.queue f slot
    let h : Nat := v.toNat % 65536
    let n := (if h = q.cqHead ∧ q.unreturned = q.cqEntries then q.cqEntries
        else (h + q.cqEntries - q.cqHead) % q.cqEntries)
    (q.present = false ∨ q.cqEntries ≤ h ∨ q.unreturned < n) := by decide +kernel
theorem witness_QueuesAndDoorbells_10 :
    let f : FnId := 0
    let slot : SlotId := 0
    let v : Word := 0
    let s : State := pick smpState 0 base
    let q : HostQueue := s.queue f slot
    let h : Nat := v.toNat % 65536
    let n := (if h = q.cqHead ∧ q.unreturned = q.cqEntries then q.cqEntries
        else (h + q.cqEntries - q.cqHead) % q.cqEntries)
    q.present = true ∧
    h < q.cqEntries ∧
    n ≤ q.unreturned := by decide +kernel
end QueuesAndDoorbells
/-! Hypotheses of `Obligations.QueuesAndDescriptors` (FetchChecksDescriptors). -/
namespace FetchChecksDescriptors
def f64 (type fl : Nat) (gen : Nat) (fs : List (Nat × Nat × Nat)) : List Byte := (dsc 0 type ([(1,1,fl),(4,2,gen)] ++ fs)).bytes
def bss := [f64 1 0 0 [(0x10,4,0x40),(0x14,2,0),(0x16,2,0)], f64 1 0 0 [(0x10,4,0x40),(0x14,2,0),(0x16,2,2)], f64 1 2 9 [(0x10,4,0x40),(0x14,2,0),(0x16,2,2)], f64 1 2 3 [(0x10,4,0x42),(0x14,2,0),(0x16,2,2)], f64 2 0 0 [], f64 8 0 0 [(0x20,1,5)]]
def st : State := { base with queues := [(0,{hq 0 [] with}),(1,{hq 0 [] with sqHead := 15, sqTail := 0}),(2,{hq 2 [] with})], fetchCtr := 7, ctxs := base.ctxs ++ [(2,{st := .aborted, gen := 5})] }
def st2 : State := st.modDelash fun x => {x with servedCtx := 0}
def smpListByte : List (String × (List Byte)) := bss.map fun r => ("",r)
def smpDesc : List (String × (Desc)) := bss.flatMap fun b => [("",{id := 7, bytes := b, gen := 3, period := 0, sqHead := 0}),("",{id := 7, bytes := b, gen := 5, period := 0, sqHead := 0})]
theorem witness_FetchChecksDescriptors_1 :
    let f : FnId := 0
    let slot : SlotId := 0
    let bytes : List Byte := pick smpListByte 0 ([])
    let s : State := st2
    bytes.length = 64 ∧
    s.canFetch f slot = false := by decide +kernel
theorem witness_FetchChecksDescriptors_2 :
    let f : FnId := 0
    let slot : SlotId := 2
    let bytes : List Byte := pick smpListByte 0 ([])
    let s : State := st2
    let q : HostQueue := s.queue f slot
    let x : Ctx := s.ctx q.ctx
    bytes.length = 64 ∧
    s.canFetch f slot = true ∧
    (∀ d ∈ q.descs, d.id < s.fetchCtr) ∧
    let d : Desc := pick smpDesc 1 dDesc
    d.bytes = bytes ∧
    d.id = s.fetchCtr ∧
    d.gen = x.gen ∧
    d.dispatched = false ∧
    (x.st = .aborted ∨ x.st = .teardown) := by decide +kernel
theorem witness_FetchChecksDescriptors_3 :
    let f : FnId := 0
    let slot : SlotId := 0
    let bytes : List Byte := pick smpListByte 2 ([])
    let s : State := st
    let q : HostQueue := s.queue f slot
    let x : Ctx := s.ctx q.ctx
    bytes.length = 64 ∧
    s.canFetch f slot = true ∧
    (∀ d ∈ q.descs, d.id < s.fetchCtr) ∧
    let d : Desc := pick smpDesc 4 dDesc
    d.bytes = bytes ∧
    d.id = s.fetchCtr ∧
    d.gen = x.gen ∧
    d.dispatched = false ∧
    x.st = .running ∧
    bits d.flags 1 1 = 1 ∧
    field bytes 4 2 % 2 ^ 12 ≠ x.gen.toNat := by decide +kernel
theorem witness_FetchChecksDescriptors_4 :
    let f : FnId := 0
    let slot : SlotId := 0
    let bytes : List Byte := pick smpListByte 5 ([])
    let s : State := st
    let q : HostQueue := s.queue f slot
    let x : Ctx := s.ctx q.ctx
    bytes.length = 64 ∧
    s.canFetch f slot = true ∧
    (∀ d ∈ q.descs, d.id < s.fetchCtr) ∧
    let d : Desc := pick smpDesc 10 dDesc
    d.bytes = bytes ∧
    d.id = s.fetchCtr ∧
    d.gen = x.gen ∧
    d.dispatched = false ∧
    x.st = .running ∧
    bits d.flags 1 1 = 0 ∧
    descFieldsOk d = false := by decide +kernel
theorem witness_FetchChecksDescriptors_5 :
    let f : FnId := 0
    let slot : SlotId := 0
    let bytes : List Byte := pick smpListByte 0 ([])
    let s : State := st
    let q : HostQueue := s.queue f slot
    let x : Ctx := s.ctx q.ctx
    bytes.length = 64 ∧
    s.canFetch f slot = true ∧
    (∀ d ∈ q.descs, d.id < s.fetchCtr) ∧
    let d : Desc := pick smpDesc 0 dDesc
    d.bytes = bytes ∧
    d.id = s.fetchCtr ∧
    d.gen = x.gen ∧
    d.dispatched = false ∧
    x.st = .running ∧
    bits d.flags 1 1 = 0 ∧
    descFieldsOk d = true ∧
    d.type = 1 ∧
    s.kernelOk q.ctx d = true ∧
    knCount d = 0 := by decide +kernel
theorem witness_FetchChecksDescriptors_6 :
    let f : FnId := 0
    let slot : SlotId := 0
    let bytes : List Byte := pick smpListByte 1 ([])
    let s : State := st
    let q : HostQueue := s.queue f slot
    let x : Ctx := s.ctx q.ctx
    bytes.length = 64 ∧
    s.canFetch f slot = true ∧
    (∀ d ∈ q.descs, d.id < s.fetchCtr) ∧
    let d : Desc := pick smpDesc 2 dDesc
    d.bytes = bytes ∧
    d.id = s.fetchCtr ∧
    d.gen = x.gen ∧
    d.dispatched = false ∧
    x.st = .running ∧
    bits d.flags 1 1 = 0 ∧
    descFieldsOk d = true ∧
    (d.type ≠ 1 ∨ (s.kernelOk q.ctx d = true ∧ knCount d ≠ 0)) := by decide +kernel
end FetchChecksDescriptors
/-! Hypotheses of `Obligations.KernelCalls` (KernelEnqueuesCalls). -/
namespace KernelEnqueuesCalls
def d := d1 [(0x10,4,0x40),(0x14,2,0),(0x16,2,2),(0x18,4,5)]
def st : State := { base with queues := [(0,hq 0 [d])] }
theorem witness_KernelEnqueuesCalls_1 :
    let f : FnId := 0
    let slot : SlotId := 0
    let id : Nat := 9
    let d : Desc := d
    let s : State := (st.modCore 1 fun x => {x with krn := {calls := [⟨0,[],1⟩,⟨0,[],1⟩,⟨0,[],1⟩,⟨0,[],1⟩]}} : State)
    Undispatched s f slot id 1 d ∧
    (s.ctx (s.queue f slot).ctx).st = .running ∧
    ∃ cs, s.targets (s.queue f slot).ctx d = some cs ∧
      (∃ c ∈ cs, 4 ≤ (s.core c).krn.calls.length) := by decide +kernel
theorem witness_KernelEnqueuesCalls_2 :
    let f : FnId := 0
    let slot : SlotId := 0
    let id : Nat := 9
    let s : State := st
    let cs : List Nat := [0, 1]
    (Undispatched s f slot id 1 d ∧ (s.ctx (s.queue f slot).ctx).st = .running ∧
      s.targets (s.queue f slot).ctx d = some cs ∧
      (∀ c ∈ cs, (s.core c).krn.calls.length < 4) ∧ cs.Nodup) ∧
    (∀ c ∈ cs, ∀ rd, (s.core c).wait ≠ some (.krnNext rd)) := by
  have h : ∀ c ∈ [0, 1], (st.core c).wait = none := by decide +kernel
  exact ⟨by decide +kernel, fun c hc rd => by rw [h c hc]; exact fun e => nomatch e⟩
end KernelEnqueuesCalls
/-! Hypotheses of `Obligations.QueuesAndDescriptors` (QueueDescriptorsWaitAndComplete). -/
namespace QueueDescriptorsWaitAndComplete
def ds := [d1 [(0x10,2,6)] 9 5, d1 [(0x10,2,2)] 9 5, d1 [(0x10,2,16)] 9 5, d1 [(0x10,1,3),(0x14,4,7)] 9 6, d1 [(0x10,1,3),(0x14,4,0)] 9 6, d1 [(0x10,1,3),(0x14,4,7)] 9 7, d1 [(0x10,1,3),(0x14,4,8)] 9 7, d1 [] 9 8]
def st (d : Desc) (o : List Desc) (o2 : List Desc) : State := { base.modCtx 0 (fun k => {k with events := [(3,7)]}) with queues := [(0,hq 0 (o ++ [d])),(1,hq 0 o2),(2,hq 0 [])] }
def e1 (n : Nat) : Desc := {d1 [] n 2 with dispatched := true}
def smpDesc : List (String × (Desc)) := ds.map fun d => ("",d)
def smpState : List (String × (State)) := ds.flatMap fun d => [("",st d [] []),("o",st d [e1 4] []),("o2",st d [] [e1 4]),("o3",st d [] [e1 10]),("ap",(st d [] []).modCtx 0 fun k => {k with periodUs := 0})]
theorem witness_QueueDescriptorsWaitAndComplete_1 :
    let f : FnId := 0
    let slot : SlotId := 0
    let id : Nat := 9
    let d : Desc := pick smpDesc 2 (d1 [])
    let s : State := pick smpState 10 base
    let k : Nat := (s.queue f slot).ctx
    Undispatched s f slot id 5 d ∧
    s.barrierQueues f slot k d = none := by decide +kernel
theorem witness_QueueDescriptorsWaitAndComplete_2 :
    let f : FnId := 0
    let slot : SlotId := 0
    let id : Nat := 9
    let d : Desc := pick smpDesc 0 (d1 [])
    let s : State := pick smpState 0 base
    let k : Nat := (s.queue f slot).ctx
    Undispatched s f slot id 5 d ∧
    ∃ js, s.barrierQueues f slot k d = some js ∧
      (∀ j ∈ js, ∀ x ∈ (s.queue f j).descs, id ≤ x.id) := by decide +kernel
theorem witness_QueueDescriptorsWaitAndComplete_3 :
    let f : FnId := 0
    let slot : SlotId := 0
    let id : Nat := 9
    let d : Desc := pick smpDesc 0 (d1 [])
    let s : State := pick smpState 1 base
    let k : Nat := (s.queue f slot).ctx
    Undispatched s f slot id 5 d ∧
    ∃ js, s.barrierQueues f slot k d = some js ∧
      (∃ j ∈ js, ∃ x ∈ (s.queue f j).descs, x.id < id) := by decide +kernel
theorem witness_QueueDescriptorsWaitAndComplete_4 :
    let f : FnId := 0
    let slot : SlotId := 0
    let id : Nat := 9
    let d : Desc := pick smpDesc 3 (d1 [])
    let s : State := pick smpState 15 base
    Undispatched s f slot id 6 d ∧
    (evValue d = 0 ∨ ∀ x ∈ (s.queue f slot).descs, id ≤ x.id) := by decide +kernel
theorem witness_QueueDescriptorsWaitAndComplete_5 :
    let f : FnId := 0
    let slot : SlotId := 0
    let id : Nat := 9
    let d : Desc := pick smpDesc 3 (d1 [])
    let s : State := pick smpState 16 base
    Undispatched s f slot id 6 d ∧
    evValue d ≠ 0 ∧
    (∃ x ∈ (s.queue f slot).descs, x.id < id) := by decide +kernel
theorem witness_QueueDescriptorsWaitAndComplete_6 :
    let f : FnId := 0
    let slot : SlotId := 0
    let id : Nat := 9
    let d : Desc := pick smpDesc 5 (d1 [])
    let s : State := pick smpState 25 base
    let k : Nat := (s.queue f slot).ctx
    Undispatched s f slot id 7 d ∧
    evValue d ≤ (Tab.get (0 : Word) (s.ctx k).events (evEvent d)).toNat := by decide +kernel
theorem witness_QueueDescriptorsWaitAndComplete_7 :
    let f : FnId := 0
    let slot : SlotId := 0
    let id : Nat := 9
    let d : Desc := pick smpDesc 6 (d1 [])
    let s : State := pick smpState 30 base
    let k : Nat := (s.queue f slot).ctx
    Undispatched s f slot id 7 d ∧
    (Tab.get (0 : Word) (s.ctx k).events (evEvent d)).toNat < evValue d := by decide +kernel
theorem witness_QueueDescriptorsWaitAndComplete_8 :
    let f : FnId := 0
    let slot : SlotId := 0
    let id : Nat := 9
    let d : Desc := pick smpDesc 7 (d1 [])
    let s : State := pick smpState 39 base
    let k : Nat := (s.queue f slot).ctx
    Undispatched s f slot id 8 d ∧
    (s.ctx k).periodUs = 0 := by decide +kernel
theorem witness_QueueDescriptorsWaitAndComplete_9 :
    let f : FnId := 0
    let slot : SlotId := 0
    let id : Nat := 9
    let d : Desc := pick smpDesc 7 (d1 [])
    let s : State := pick smpState 35 base
    let k : Nat := (s.queue f slot).ctx
    Undispatched s f slot id 8 d ∧
    (s.ctx k).periodUs ≠ 0 := by decide +kernel
end QueueDescriptorsWaitAndComplete
/-! Hypotheses of `Obligations.PeriodsAndAborts` (PeriodsBeginAndEnd). -/
namespace PeriodsBeginAndEnd
def sp (k p start : Nat) := mkReq 0x0204 (bs [(1,k),(1,0),(2,0),(4,p),(8,start)])
def rqs := [sp 0 100 0, sp 0 200 5, sp 0 100 1000000000000,sp 0 100 2000000000000]
def lic (s : State) : State := {s with boot := {s.boot with licence := {tier := 2, sectorMask := 0xFFFF}}}
def st : State := lic (base.modCtx 0 fun k => {k with periodUs := 0})
def rich : Core := {rc with pc := 9, kept := {hasImage := true, startPc := 0x100}, queues := [(1,{vis := [dEntry], early := [dEntry]})], srseq := 5, btx := [dFlight], wait := some .wfi, krn := {pc := 4}, df := {ms := [dMs]}}
def st2 : State := (((base.setCore 0 rich).setCore 1 {rich with kept := {}}).setTile 0 {bcnt := [(1,{count := 4})], barArrived := [(1,3)], regions := [(1, {size := 9, pClaims := [{id := 1, words := 2, who := .spill 0}]})]}).modCtx 0 fun k => {k with events := [(1,2)], nextBoundary := 1000000000000, nextPeriodUs := 25}
def smpListByte : List (String × (List Byte)) := rqs.map fun r => ("",r)
def smpState : List (String × (State)) := RQ rqs st ++ [("b",st2),("c",st2.modCtx 0 fun k => {k with nextBoundary := 1000000000001})]
theorem witness_PeriodsBeginAndEnd_1 :
    let src : Src := .mailbox 0
    let req : List Byte := pick smpListByte 1 ([])
    let s : State := pick smpState 1 base
    Fronts s src 0x0204 req ∧
    let k : Nat := rq req 0 1
    let p : Nat := rq req 4 4
    p ≠ 0 ∧
    (s.ctx k).st = .running ∧
    (s.ctx k).periodUs = 0 ∧
    rq req 8 8 ≠ 0 ∧
    rq req 8 8 < s.deviceTime.toNat := by decide +kernel
theorem witness_PeriodsBeginAndEnd_2 :
    let src : Src := .mailbox 0
    let req : List Byte := pick smpListByte 0 ([])
    let s : State := pick smpState 0 base
    Fronts s src 0x0204 req ∧
    let k : Nat := rq req 0 1
    let p : Nat := rq req 4 4
    p ≠ 0 ∧
    (s.ctx k).st = .running ∧
    (s.ctx k).periodUs = 0 ∧
    rq req 8 8 = 0 := by decide +kernel
theorem witness_PeriodsBeginAndEnd_3 :
    let src : Src := .mailbox 0
    let req : List Byte := pick smpListByte 2 ([])
    let s : State := pick smpState 2 base
    Fronts s src 0x0204 req ∧
    let k : Nat := rq req 0 1
    let p : Nat := rq req 4 4
    p ≠ 0 ∧
    (s.ctx k).st = .running ∧
    (s.ctx k).periodUs = 0 ∧
    rq req 8 8 ≠ 0 ∧
    s.deviceTime.toNat ≤ rq req 8 8 := by decide +kernel
theorem witness_PeriodsBeginAndEnd_4 :
    let k : CtxId := 0
    let s : State := pick smpState 5 base
    let x : Ctx := s.ctx k
    x.periodUs ≠ 0 ∧
    x.st = .running ∧
    s.deviceTime.toNat < x.nextBoundary.toNat := by decide +kernel
theorem witness_PeriodsBeginAndEnd_5 :
    let k : CtxId := 0
    let s : State := pick smpState 4 base
    let x : Ctx := s.ctx k
    x.periodUs ≠ 0 ∧
    x.st = .running ∧
    x.nextBoundary.toNat ≤ s.deviceTime.toNat ∧
    (∀ n ∈ s.sectorsOf k, s.swapIsDue n = false ∨ (s.sector n).deferred ≠ 9) := by decide +kernel
/-- A swap is due and was deferred before; the tile has a claim and a queue a descriptor. -/
theorem witness_PeriodsBeginAndEnd_6 :
    let k : CtxId := 0
    let s : State := { (st2.modSector 0 fun x => { x with usable := 34, swapDue := true, lastStep := 5, deferred := 8 }) with
      lifecycle := 2, queues := [(0, hq 0 [d1 []])] }
    (s.ctx k).periodUs ≠ 0 ∧ (s.ctx k).st = .running ∧ (s.ctx k).nextBoundary.toNat ≤ s.deviceTime.toNat ∧
    (∀ n ∈ s.sectorsOf k, s.swapIsDue n = false ∨ (s.sector n).deferred ≠ 9) ∧ s.swapIsDue 0 = true ∧
    (s.region 0 1).pClaims ≠ [] ∧ (s.queue 0 0).present = true ∧ (s.queue 0 0).ctx = k ∧ (s.queue 0 0).descs ≠ [] := by
  decide +kernel
end PeriodsBeginAndEnd
/-! Hypotheses of `Obligations.ContextsAreMadeAndFreed` (TeardownFreesTheContext). -/
namespace TeardownFreesTheContext
def rqs := [mkReq 0x0202 (bs [(1,0)]), mkReq 0x0202 (bs [(1,1)])]
def st : State := { base with queues := [(0,hq 0 [d1 []]),(3,hq 1 [])] }
def td (s : State) (m : Nat) : State := s.modCtx 0 fun k => {k with st := .teardown, tdStep := 4, sectors := BitVec.ofNat 16 m, dropped := 4}
def pk : CtlPacket := { route := { ctx := 0 } }
def smpListByte : List (String × (List Byte)) := rqs.map fun r => ("",r)
def smpState : List (String × (State)) := RQ rqs st ++ [("a",{td base 1 with mem := [(spadBase+9,3)]}),("b",{td base 0 with net := {sources := [{ dTransit with pkt := .control pk }, { dTransit with pkt := .control { pk with route := { ctx := 1 } } }]}}),("c",{td base 1 with net := {ejected := [pk]}})]
theorem witness_TeardownFreesTheContext_1 :
    let src : Src := .mailbox 0
    let req : List Byte := pick smpListByte 0 ([])
    let s : State := pick smpState 0 base
    Fronts s src 0x0202 req ∧
    let k : Nat := rq req 0 1
    (s.ctx k).st ≠ .free ∧
    (s.ctx k).st ≠ .teardown ∧
    s.teardownOp k = none ∧
    (s.opsOf (srcFn src)).length < 8 := by decide +kernel
theorem witness_TeardownFreesTheContext_2 :
    let k : CtxId := 0
    let s : State := pick smpState 4 base
    (s.ctx k).st = .teardown ∧
    (s.ctx k).tdStep = 4 ∧
    s.txn k ≠ 0 := by decide +kernel
theorem witness_TeardownFreesTheContext_3 :
    let k : CtxId := 0
    let s : State := pick smpState 2 base
    (s.ctx k).st = .teardown ∧
    (s.ctx k).tdStep = 4 ∧
    s.txn k = 0 := by decide +kernel
theorem witness_TeardownFreesTheContext_4 :
    let k : CtxId := 0
    let s : State := pick smpState 3 base
    (s.ctx k).st = .teardown ∧
    (s.ctx k).tdStep = 4 ∧
    s.sectorsOf k = [] ∧ ∃ y ∈ s.net.sources, (routeOf y.pkt).ctx = k.val := by decide +kernel
theorem witness_TeardownFreesTheContext_5 :
    let k : CtxId := 0
    let s : State := pick smpState 2 base
    (s.ctx k).st = .teardown ∧
    (s.ctx k).tdStep = 4 ∧
    let n : Nat := 0
    s.sectorsOf k = [n] ∧
    (s.sector n).st = .up ∧
    (s.sector n).reset = none ∧
    s.plumb.outOfService = false := by decide +kernel
end TeardownFreesTheContext
/-! Hypotheses of `Obligations.PeriodsAndAborts` (AbortsEndAContext). -/
namespace AbortsEndAContext
def rqs := [mkReq 0x0203 (bs [(1,0)]), mkReq 0x0203 (bs [(1,1)]), mkReq 0x0203 (bs [(1,2)])]
def kd : Desc := {d1 [] with dispatched := true, tStart := 999999000000, drainedNs := 5}
def st : State := { base with queues := [(0,hq 0 [kd]),(3,hq 1 [])], ctxs := base.ctxs ++ [(2,{st := .aborted, job := 5, epoch := 2})] }
def w (n : Nat) : State := st.modCtx 0 fun k => {k with watchdogMs := n}
def smpListByte : List (String × (List Byte)) := rqs.map fun r => ("",r)
def smpState : List (String × (State)) := RQ rqs st ++ RQ rqs (st.modCtx 0 fun k => {k with job := 0}) ++ [("w1",w 1),("w",(w 1).modQueue 0 0 fun q => {q with descs := [{kd with tStart := 999998999995}]})]
theorem witness_AbortsEndAContext_1 :
    let src : Src := .mailbox 0
    let req : List Byte := pick smpListByte 2 ([])
    let s : State := pick smpState 2 base
    Fronts s src 0x0203 req ∧
    let k : Nat := rq req 0 1
    (s.ctx k).dead = true := by decide +kernel
theorem witness_AbortsEndAContext_2 :
    let src : Src := .mailbox 0
    let req : List Byte := pick smpListByte 0 ([])
    let s : State := pick smpState 0 base
    Fronts s src 0x0203 req ∧
    let k : Nat := rq req 0 1
    (s.ctx k).dead = false := by decide +kernel
theorem witness_AbortsEndAContext_3 :
    let f : FnId := 0
    let slot : SlotId := 0
    let id : Nat := 9
    let s : State := pick smpState 6 base
    ∃ d, s.desc f slot id = some d ∧
      let x : Ctx := s.ctx (s.queue f slot).ctx
      s.gafferUp = true ∧
      d.type = 1 ∧
      d.dispatched = true ∧
      x.watchdogMs ≠ 0 ∧
      x.st = .running ∧
      s.deviceTime.toNat < d.tStart.toNat + (x.watchdogMs * 1000000 + d.drainedNs) := by decide +kernel
theorem witness_AbortsEndAContext_4 :
    let f : FnId := 0
    let slot : SlotId := 0
    let id : Nat := 9
    let s : State := pick smpState 7 base
    ∃ d, s.desc f slot id = some d ∧
      let x : Ctx := s.ctx (s.queue f slot).ctx
      s.gafferUp = true ∧
      d.type = 1 ∧
      d.dispatched = true ∧
      x.watchdogMs ≠ 0 ∧
      x.st = .running ∧
      d.tStart.toNat + (x.watchdogMs * 1000000 + d.drainedNs) ≤ s.deviceTime.toNat := by decide +kernel
end AbortsEndAContext
/-! Hypotheses of `Obligations.SectorStoreAndZeroing` (BackgroundZeroingIsInvisible). -/
namespace BackgroundZeroingIsInvisible
end BackgroundZeroingIsInvisible
end Sys2Proof.Tests.Contexts
end

