-- ==== Sys2Proof/Tests/Dataflow.lean ====
section
/-! SUPPORT. Dataflow: for the obligations about it, states and operands that meet the hypotheses of each clause. -/
open Sys2Proof Sys2Proof.Machine
namespace Sys2Proof.Tests.Dataflow
set_option Elab.async false
def en (nw port param src bind seq tag : Nat) : Entry := { words := ([0x11,0x22,0x3f800000,0x44] : List Word).take nw, nw, tag := BitVec.ofNat 16 tag, port := BitVec.ofNat 3 port, param := BitVec.ofNat 5 param, src, bind, seq := BitVec.ofNat 8 seq, uid := seq }
def me (actor tag : Nat) (ready : Option Nat) (fired inTurn : Bool) (tokens : List Token) : MsEntry := { actor, tag := BitVec.ofNat 16 tag, tokens, ready, fired, inTurn }
def tl : Tile := { regions := [(3, { base := 8192, size := 104, owner := 0xFFFF, circular := true}), (4, { base := 8192, size := 100, owner := 0xFFFF, circular := true}), (5, { base := 8192, size := 0, owner := 0xFFFF, circular := true}), (6, { base := 8192, size := 104, owner := 0xFFFF, circular := true, ctx := 5 }), (7, { base := 8192, size := 104, owner := 0xFFFE, circular := true }), (8, { base := 8192, size := 104, owner := 0xFFFF })] }
def dfA : Dataflow := { act := [(0, 0x10003), (1, 0x1000C), (2, 0x800010)] }
def stA : State := (base.modCore 0 fun x => { x with df := { dfA with ms := [me 0 9 (some 4) false false [], me 1 3 (some 4) false false [], me 2 3 none false false []]}, queues := [(0, {vis := [en 1 2 3 5 6 7 8, en 1 2 3 5 6 8 8]})] }).setTile 0 tl
def blk : Core := { run := .running, wait := some (.fire 5) }
def full : Core := { run := .running, wait := some (.send 0x20), binds := [(0,{word := 0x2000000, avail := 0})] }
def s1 : State := { base with cores := [(0,blk),(5,blk)] }
/-! Hypotheses of `Obligations.ActorsSpillAndDeadlock` (ActorWriteCompletes). -/
namespace ActorWriteCompletes
def stE : State := stA.modCore 0 fun x => { x with wait := some (.inmask 3 0x10020), pc := 0x30 }
def stF : State := stA.modCore 0 fun x => { x with df := { dfA with ms := [me 0 9 none false false []]}, wait := some (.fire 5), pc := 0x30 }
theorem witness_ActorWriteCompletes_1 :
    let c : CoreId := 0
    let n : ActorId := 0
    let v : Word := 0x80010003
    let s : State := stA
    (s.core c).wait = none ∧
    (popCount (v.setWidth 16) ≤ 4 ∧ ∀ k, k < 16 → k ≠ n.val →
        (s.core c).inmask k &&& v.setWidth 16 = 0) ∧
    ((s.core c).inmask n = v.setWidth 16 ∨ ∀ e ∈ (s.core c).df.ms, e.actor ≠ n.val) := by decide +kernel
theorem witness_ActorWriteCompletes_2 :
    let c : CoreId := 0
    let n : ActorId := 0
    let v : Word := 0x80010003
    let s : State := stF
    let rd : XReg := 5
    (s.core c).run = .running ∧
    (s.core c).wait = some (.fire rd) ∧
    (∀ e ∈ (s.core c).df.ms, e.fired = false) ∧
    (popCount (v.setWidth 16) ≤ 4 ∧ ∀ k, k < 16 → k ≠ n.val → (s.core c).inmask k &&& v.setWidth 16 = 0) ∧
    ((s.core c).inmask n = v.setWidth 16 ∨ ∀ e ∈ (s.core c).df.ms, e.actor ≠ n.val) := by decide +kernel
theorem witness_ActorWriteCompletes_3 :
    let c : CoreId := 0
    let n : ActorId := 0
    let v : Word := 0x1F
    let s : State := stA
    (4 < popCount (v.setWidth 16) ∨ ∃ k, k < 16 ∧ k ≠ n.val ∧
        (s.core c).inmask k &&& v.setWidth 16 ≠ 0) := by decide +kernel
theorem witness_ActorWriteCompletes_4 :
    let c : CoreId := 0
    let n : ActorId := 0
    let v : Word := 0x80000000
    let s : State := stA
    (popCount (v.setWidth 16) ≤ 4 ∧ ∀ k, k < 16 → k ≠ n.val →
        (s.core c).inmask k &&& v.setWidth 16 = 0) ∧
    (s.core c).inmask n ≠ v.setWidth 16 ∧
    (∃ e ∈ (s.core c).df.ms, e.actor = n.val) := by decide +kernel
theorem witness_ActorWriteCompletes_5 :
    let c : CoreId := 0
    let n : ActorId := 3
    let v : Word := 0x10020
    let s : State := stE
    (s.core c).run = .running ∧
    (s.core c).wait = some (.inmask n v) ∧
    (∀ e ∈ (s.core c).df.ms, e.actor ≠ n.val) := by decide +kernel
/-- The own store of a core: taken, refused and held. -/
theorem witness_ActorWriteCompletes_6 :
    let c : CoreId := 0
    let n : ActorId := 0
    let s : State := stA
    let fits := fun (v : Word) => popCount (v.setWidth 16) ≤ 4 ∧ ∀ k, k < 16 → k ≠ n.val →
      (s.core c).inmask k &&& v.setWidth 16 = 0
    let free := fun (v : Word) => (s.core c).inmask n = v.setWidth 16 ∨ ∀ e ∈ (s.core c).df.ms, e.actor ≠ n.val
    at0.core = c ∧ (s.core c).canIssue = true ∧ (fits 0x80010003 ∧ free 0x80010003) ∧ (¬ fits 0x1F) ∧
    fits 0x80000000 ∧ ¬ free 0x80000000 := by decide +kernel
end ActorWriteCompletes
/-! Hypotheses of `Obligations.ActorsSpillAndDeadlock` (SpillConfigAndSnapshotComplete). -/
namespace SpillConfigAndSnapshotComplete
theorem witness_SpillConfigAndSnapshotComplete_1 :
    let c : CoreId := 0
    let v : Word := 0x80010003
    let s : State := stA
    let r : Region := s.region (tileOf c) (bits v.toNat 4 0)
    (v.getLsbD 5 = false ∨ (r.circular = true ∧ some r.ctx = s.ownerOfCore c ∧
        r.owner.getLsbD (c.val % 16) = true ∧ r.size ≠ 0 ∧ r.size % 8 = 0)) := by decide +kernel
theorem witness_SpillConfigAndSnapshotComplete_2 :
    let c : CoreId := 0
    let v : Word := 0x7F
    let s : State := stA
    let r : Region := s.region (tileOf c) (bits v.toNat 4 0)
    v.getLsbD 5 = true ∧
    (r.circular = false ∨ r.size = 0 ∨ r.size % 8 ≠ 0) := by decide +kernel
theorem witness_SpillConfigAndSnapshotComplete_3 :
    let v : Word := 0x80010003
    v.getLsbD 0 = true ∧
    let g : Agent := .net
    (g = .net ∨ g = .firmware) := by decide +kernel
theorem witness_SpillConfigAndSnapshotComplete_4 :
    let c : CoreId := 0
    let v : Word := 0x80010003
    let s : State := stA
    v.getLsbD 0 = true ∧
    let a : At := at0
    (s.core a.core).canIssue = true ∧
    a.core = c := by decide +kernel
/-- A region that is taken, and one refused for each reason: 4 whole records, 5 size, 6 context, 7 owner, 8 mode. -/
theorem witness_SpillConfigAndSnapshotComplete_5 :
    let c : CoreId := 0
    let s : State := stA
    (s.core c).canIssue = true ∧
    bits 0x23 4 0 = 3 ∧ (s.region (tileOf c) 3).circular = true ∧ some (s.region (tileOf c) 3).ctx = s.ownerOfCore c ∧
    (s.region (tileOf c) 3).owner.getLsbD (c.val % 16) = true ∧ (s.region (tileOf c) 3).size ≠ 0 ∧
    (s.region (tileOf c) 3).size % 8 = 0 ∧
    (s.region (tileOf c) 4).size % 8 ≠ 0 ∧ (s.region (tileOf c) 5).size = 0 ∧
    some (s.region (tileOf c) 6).ctx ≠ s.ownerOfCore c ∧ (s.region (tileOf c) 7).owner.getLsbD (c.val % 16) = false ∧
    (s.region (tileOf c) 8).circular = false := by decide +kernel
end SpillConfigAndSnapshotComplete
/-! Hypotheses of `Obligations.ActorFiring` (FiringCompletes). -/
namespace FiringCompletes
def stB : State := stA.modCore 0 fun x => { x with df := { dfA with ms := [me 2 9 none false false []]}, wait := none }
def stC : State := stA.modCore 0 fun x => { x with df := { dfA with ms := [me 2 9 (some 1) true true []]}}
theorem witness_FiringCompletes_1 :
    let a : At := at0
    let s : State := stA
    (s.core a.core).canIssue = true ∧
    (∀ m ∈ (s.core a.core).df.ms, m.fired = false) ∧
    (∃ m ∈ (s.core a.core).df.ms, m.ready.isSome) := by decide +kernel
theorem witness_FiringCompletes_2 :
    let a : At := at0
    let s : State := stB
    (s.core a.core).canIssue = true ∧
    (∀ m ∈ (s.core a.core).df.ms, m.fired = false) ∧
    (∀ m ∈ (s.core a.core).df.ms, m.ready = none) := by decide +kernel
theorem witness_FiringCompletes_3 :
    let a : At := at0
    let v : Word := 0x1F
    let s : State := stA
    (s.core a.core).canIssue = true ∧
    v.getLsbD 31 = false := by decide +kernel
theorem witness_FiringCompletes_4 :
    let a : At := at0
    let v : Word := 0x80010003
    let s : State := stC
    (s.core a.core).canIssue = true ∧
    v.getLsbD 31 = true ∧
    (s.core a.core).df.unindexed = [] ∧
    ∃ e, (s.core a.core).df.ms.head? = some e ∧
      (s.core a.core).df.ms = [e] ∧
      e.fired = true ∧
      e.tokens = [] := by decide +kernel
end FiringCompletes
/-! Hypotheses of `Obligations.ActorFiring` (FireRetireTakesOperands). -/
namespace FireRetireTakesOperands
def tk (q src bind seq : Nat) (o : Bool := false) : Token := { queue := q, uid := seq, tag := 7, words := [5], tagOnly := o }
def stD : State := stA.modCore 0 fun x => { x with df := { dfA with ms := [me 0 9 (some 1) true true [tk 0 5 6 7]]}}
theorem witness_FireRetireTakesOperands_1 :
    let a : At := at0
    let v : Word := 0x80010003
    let s : State := stD
    let m : MsEntry := (me 0 9 (some 1) true true [tk 0 5 6 7] : MsEntry)
    let k : Token := (tk 0 5 6 7 : Token)
    let e : Entry := (en 1 2 3 5 6 7 8 : Entry)
    let rest : List Entry := ([en 1 2 3 5 6 8 8] : List Entry)
    (s.core a.core).canIssue = true ∧
    v.getLsbD 31 = true ∧
    (s.core a.core).df.ms = [m] ∧
    m.fired = true ∧
    m.tokens = [k] ∧
    k.tagOnly = false ∧
    ((s.core a.core).queue k.queue).vis = e :: rest ∧
    e.uid = k.uid ∧
    (∀ f ∈ rest, f.uid ≠ k.uid) ∧
    e.spill = none ∧
    ∃ ctx, s.ownerOfCore a.core = some ctx ∧
      (s.core a.core).df.unindexed = [] := by decide +kernel
end FireRetireTakesOperands
/-! Hypotheses of `Obligations.ActorsSpillAndDeadlock` (ProbeRoundWatchesForQuiet). -/
namespace ProbeRoundWatchesForQuiet
theorem witness_ProbeRoundWatchesForQuiet_1 :
    let k : CtxId := 0
    let s : State := base
    (s.ctx k).st = .running ∧
    (s.ctx k).placed = true ∧
    ((s.ctx k).progressed = true ∨ (∃ c ∈ s.listedCores k, (s.core c).prog = true) ∨
          ∃ c ∈ s.listedCores k, s.coreBlocked c = false) := by decide +kernel
theorem witness_ProbeRoundWatchesForQuiet_2 :
    let k : CtxId := 0
    let s : State := s1
    (s.ctx k).st = .running ∧
    (s.ctx k).placed = true ∧
    (s.ctx k).progressed = false ∧
    (∀ c ∈ s.listedCores k, (s.core c).prog = false ∧
          s.coreBlocked c = true) ∧
    (s.ctx k).probeSince = none := by decide +kernel
theorem witness_ProbeRoundWatchesForQuiet_3 :
    let k : CtxId := 0
    let s : State := (s1.modCtx 0 fun x => {x with probeSince := some 5} : State)
    (s.ctx k).st = .running ∧
    (s.ctx k).placed = true ∧
    (s.ctx k).progressed = false ∧
    (∀ c ∈ s.listedCores k, (s.core c).prog = false ∧
          s.coreBlocked c = true) ∧
    (∀ c ∈ s.listedCores k, s.coreFull c = false) := by decide +kernel
/-- A full wait, but not yet T_Q long. -/
theorem witness_ProbeRoundWatchesForQuiet_4 :
    let k : CtxId := 0
    let s : State := (s1.modCtx 0 fun x => { x with probeSince := some 999999999999, quiesceUs := 20 }).setCore 5 full
    let t0 : DWord := 999999999999
    (s.ctx k).st = .running ∧ (s.ctx k).placed = true ∧ (s.ctx k).progressed = false ∧
    (∀ c ∈ s.listedCores k, (s.core c).prog = false ∧ s.coreBlocked c = true) ∧
    (s.ctx k).probeSince = some t0 ∧ s.deviceTime.toNat < t0.toNat + (s.ctx k).quiesceUs * 1000 := by decide +kernel
end ProbeRoundWatchesForQuiet
/-! Hypotheses of `Obligations.ActorsSpillAndDeadlock` (UnresolvedDeadlockAborts). -/
namespace UnresolvedDeadlockAborts
theorem witness_UnresolvedDeadlockAborts_1 :
    let k : CtxId := 0
    let s : State := (s1.modCtx 0 fun x => {x with probeSince := some 5}).setCore 5 full
    let t0 : DWord := 5
    ((s.ctx k).st = .running ∧
      (s.ctx k).placed = true ∧
      (s.ctx k).progressed = false ∧
      (∀ c ∈ s.listedCores k, (s.core c).prog = false ∧ s.coreBlocked c = true) ∧
      (∃ c ∈ s.listedCores k, s.coreFull c = true) ∧
      (s.ctx k).probeSince = some t0 ∧
      t0.toNat + (s.ctx k).quiesceUs * 1000 ≤ s.deviceTime.toNat) ∧
    (∀ p, s.spillFits (s.waitSet k) p = false) :=
  ⟨by decide +kernel, fun p => by
    have h : (((s1.modCtx 0 fun x => {x with probeSince := some 5}).setCore 5 full).core p).df.spillCfg.getLsbD 5 = false :=
      get_all (α := Core) (p := fun x => x.df.spillCfg.getLsbD 5 = false) (by decide +kernel) rfl
    simp only [State.spillFits, h, Bool.false_and]⟩
/-- Its host queue has a descriptor. -/
theorem witness_UnresolvedDeadlockAborts_2 :
    let s : State := (((s1.modCtx 0 fun x => {x with probeSince := some 5}).setCore 5 full).modQueue 0 2 fun _ => hq 0 [dsc 1 1 []])
    (s.queue 0 2).present = true ∧ (s.queue 0 2).ctx = 0 ∧ (s.queue 0 2).descs ≠ [] := by decide +kernel
end UnresolvedDeadlockAborts
/-! Hypotheses of `Obligations.ActorsSpillAndDeadlock` (StuckContextsSpill). -/
namespace StuckContextsSpill
def recv : Core := { blk with df := { spillCfg := 0x23 }, queues := [(3, { vis := [en 1 2 3 5 6 7 8, en 4 0 0 5 0 8 9], early := [en 1 1 1 5 0 10 9] })] }
def st1 : State := ((({ s1 with cores := [(0, recv), (5, { full with binds := [(0, { word := 0x2006000, avail := 0 })] })] }).modCtx 0 fun x => { x with probeSince := some 5 })).setTile 0
  { tl with regions := [(3, { base := 8192, size := 104, owner := 0xFFFF, circular := true, head := ⟨96, false⟩, rhead := ⟨96, false⟩, tail := ⟨40, false⟩, rtail := ⟨40, false⟩ })] }
theorem witness_StuckContextsSpill_1 :
    let k : CtxId := 0
    let s : State := st1
    let t0 : DWord := 5
    let c : CoreId := 0
    let q : QueueId := 3
    let r : Region := s.region (tileOf c) (s.core c).spillRegion
    Stuck s k t0 ∧ s.waitSet k = [(c.val, q.val)] ∧ s.spillFits [(c.val, q.val)] c = true ∧ s.coreIn k c = true ∧
    ((s.core c).queue q).present.length = 3 ∧ (((s.core c).queue q).present.map (·.1.uid)).Nodup ∧
    r.held = [] ∧ r.pClaims = [] ∧ r.rhead.off < r.size ∧ r.base + r.size ≤ 786432 ∧ Cells.wf s.mem = true := by
  decide +kernel
end StuckContextsSpill
end Sys2Proof.Tests.Dataflow
end

