-- ==== Sys2Proof/Tests/Engines.lean ====
section
/-! SUPPORT. Engines: for the obligations about it, states and operands that meet the hypotheses of each clause. -/
open Sys2Proof Sys2Proof.Machine
namespace Sys2Proof.Tests.Engines
set_option Elab.async false
def fp (core kind : Nat) (hdr : Nat := 0) (ctx : Nat := 0) (gen : Nat := 3) : CtlPacket := { route := { destTile := BitVec.ofNat 9 (core/16), ctx := BitVec.ofNat 4 ctx, gen := BitVec.ofNat 12 gen}, header := BitVec.ofNat 48 (core%16+kind*2^4+hdr)}
def sA : State := { (base.modCtx 0 fun k => {k with homed := [(5,9)]}) with mem := (List.range 40).map fun i => (5*2097152+3*i, BitVec.ofNat 8 (i+1)) }
def ta : Nat := 5*2097152
/-! Hypotheses of `Obligations.DmaAndTilefeed` (DmaRowMovesAndCompletes). -/
namespace DmaRowMovesAndCompletes
def sp : Nat := spadAddr 1 128
def d1 : Desc := dsc 9 2 [(0x10,8,ta), (0x18,8,sp), (0x20,4,128),(0x24,4,1),(0x30,1,7)]
def d2 : Desc := dsc 9 2 [(0x10,8,ta), (0x18,8,ta+0x1000), (0x20,4,128),(0x24,4,1),(0x30,1,7)]
def d3 : Desc := dsc 9 2 [(0x10,8,sp), (0x18,8,ta+0x1000), (0x20,4,128),(0x24,4,1),(0x30,1,7)]
def t1 : Tile := { regions := [(2, {base := 0, size := 4096, ctx := 0}), (3, {base := 8192, size := 1000, ctx := 0, circular := true})], bcnt := [(7,{count := 3})] }
def sD (d : Desc) : State := { sA.setTile 1 t1 with queues := [(0, hq 0 [d])] }
def dd : Desc := { d1 with dispatched := true }
def sAck : State := { sD dd with engines := [(0, {p0 := {desc := some (0,0,9), unacked := 128, writes := [1], pkt := 1}})] }
theorem witness_DmaRowMovesAndCompletes_1 :
    let f : FnId := 0
    let slot : SlotId := 0
    let id : Nat := 9
    let s : State := sD d1
    ∃ d, s.desc f slot id = some d ∧
      let n : Nat := dmRowBytes d
      let a : Nat := dmSrc d
      let e : Nat := 0
      let i : Nat := 0
      TakesPlace s f slot id 2 d e i ∧
      s.dmaOk (s.queue f slot).ctx d = true ∧
      dmRows d = 1 ∧
      0 < n ∧
      dmFlags d = 0 ∧
      let t : Nat := 1
      let off : Nat := 128
      (s.addrKind a).isTier = true ∧
      a % 512 + n ≤ 512 ∧
      s.homeFenced a = false ∧
      s.isHomed (s.queue f slot).ctx (s.loc a) = true ∧
      s.isPoisoned a n = false ∧
      dmDst d = spadAddr t off ∧
      t < 512 ∧
      off + n ≤ 0x300000 ∧
      off % 512 + n ≤ 512 := by decide +kernel
theorem witness_DmaRowMovesAndCompletes_2 :
    let f : FnId := 0
    let slot : SlotId := 0
    let id : Nat := 9
    let s : State := sD d2
    ∃ d, s.desc f slot id = some d ∧
      let n : Nat := dmRowBytes d
      let a : Nat := dmSrc d
      let e : Nat := 0
      let i : Nat := 0
      TakesPlace s f slot id 2 d e i ∧
      s.dmaOk (s.queue f slot).ctx d = true ∧
      dmRows d = 1 ∧
      0 < n ∧
      dmFlags d = 0 ∧
      (s.addrKind a).isTier = true ∧
      a % 512 + n ≤ 512 ∧
      s.homeFenced a = false ∧
      s.isHomed (s.queue f slot).ctx (s.loc a) = true ∧
      s.isPoisoned a n = false ∧
      (s.addrKind (dmDst d)).isTier = true ∧
      dmDst d % 512 + n ≤ 512 ∧
      s.homeSector (dmDst d) = s.homeSector a ∧
      s.isHomed (s.queue f slot).ctx (s.loc (dmDst d)) = true ∧
      (dmDst d + n ≤ a ∨ a + n ≤ dmDst d) ∧
      Cells.wf s.mem = true := by decide +kernel
theorem witness_DmaRowMovesAndCompletes_3 :
    let f : FnId := 0
    let slot : SlotId := 0
    let id : Nat := 9
    let s : State := sD d3
    ∃ d, s.desc f slot id = some d ∧
      let n : Nat := dmRowBytes d
      let a : Nat := dmSrc d
      let e : Nat := 0
      let i : Nat := 0
      TakesPlace s f slot id 2 d e i ∧
      s.dmaOk (s.queue f slot).ctx d = true ∧
      dmRows d = 1 ∧
      0 < n ∧
      dmFlags d = 0 ∧
      let t : Nat := 1
      let off : Nat := 128
      a = spadAddr t off ∧
      t < 512 ∧
      off + n ≤ 0x300000 ∧
      off % 512 + n ≤ 512 ∧
      (s.addrKind (dmDst d)).isTier = true ∧
      dmDst d % 512 + n ≤ 512 := by decide +kernel
theorem witness_DmaRowMovesAndCompletes_4 :
    let p : CtlPacket := (fp 0 5 (128 * 2^16 % 2^23 + 2^23) : CtlPacket)
    let s : State := sAck
    let e : Nat := 0
    let i : Nat := 0
    let n : Nat := ackBytes p.header.toNat
    IsAck s p e i n ∧
    let f : Nat := 0
    let j : Nat := 0
    let id : Nat := 9
    (s.place e i).desc = some (f, j, id) ∧
    ∃ d, s.desc f j id = some d ∧
      LastAckDue s e i f j id d n ∧
      d.type = 2 ∧
      dmaOverlaps d = false ∧
      dmFlags d = 0 ∧
      (s.place e i).claims = [] := by decide +kernel
end DmaRowMovesAndCompletes
/-! Hypotheses of `Obligations.DmaAndTilefeed` (BulkWriteIsPerformed). -/
namespace BulkWriteIsPerformed
def t1 : Tile := { regions := [(2, {base := 0, size := 4096, ctx := 0})], bcnt := [(7,{count := 3})] }
def wp : BulkPacket := { route := { destTile := 1, px := BitVec.ofNat 5 (physX 1), py := BitVec.ofNat 5 (physY 1), ctx := 0, gen := 3 }, kind := 0, nflits := 1, bytes := 8, addr := BitVec.ofNat 48 (spadAddr 1 128), raddr := BitVec.ofNat 48 (stagingAddr 3 1), bcnt := 7, last := true, data := [1,2,3,4,5,6,7,8] }
def wt : Transit := { net := .bulk, at_ := 1, via := some .e, pkt := .bulk wp }
def sW : State := { (sA.setTile 1 t1).modPhy 1 fun p => { p with cad := .good, index := some 1 } with net := { trans := [(1,{phys := 1})], slots := [wt] } }
theorem witness_BulkWriteIsPerformed_1 :
    let p : PhysId := 1
    let b : BulkPacket := wp
    let s : State := sW
    let x : Transit := wt
    let off : Nat := 128
    s.net.fencedRouters.contains p.val = false ∧
    s.net.escapeHold = none ∧
    s.headers .bulk p = [x] ∧
    x ∈ s.net.slots ∧
    x.pkt = .bulk b ∧
    destOf x.pkt = p.val ∧
    b.route.memPort = false ∧
    let t : Nat := b.route.destTile.toNat
    s.logicalOf p = some t ∧
    b.kind = 0 ∧
    b.cast = 0 ∧
    b.status = 0 ∧
    b.addr.toNat = spadAddr t off ∧
    off + b.data.length ≤ 0x300000 ∧
    b.bytes.toNat = b.data.length ∧
    inStaging b.raddr.toNat = true ∧
    s.fate b.route = .deliver ∧
    s.runReaches b.route.ctx.toNat t off b.data.length = true ∧
    s.tileFenced t = false ∧
    Cells.wf s.mem = true := by decide +kernel
end BulkWriteIsPerformed
/-! Hypotheses of `Obligations.DmaAndTilefeed` (TilefeedDeliversStrips). -/
namespace TilefeedDeliversStrips
def d1 : Desc := dsc 9 3 [(0x10,8,ta), (0x20,4,8),(0x24,4,24),(0x2C,2,1),(0x2E,2,1),(0x30,2,1),(0x32,1,1),(0x34,1,3),(0x36,1,7)]
def d2 : Desc := dsc 9 3 [(0x10,8,ta), (0x18,8,ta+300), (0x20,4,8),(0x24,4,24),(0x28,4,9),(0x2C,2,2),(0x2E,2,2),(0x30,2,1),(0x32,1,1),(0x33,1,8),(0x34,1,3),(0x35,1,2),(0x36,1,7),(0x3C,2,1)]
def dd : Desc := { d1 with dispatched := true }
def dd2 : Desc := { d2 with dispatched := true }
def r0 : Region := {base := 8192, size := 64, ctx := 0, circular := true, head := ⟨40,false⟩, rhead := ⟨40,false⟩, tail := ⟨30,false⟩, rtail := ⟨30,false⟩}
def k0 : Claim := { id := 4, words := 32, start := ⟨40,false⟩, who := .engine 0 0 }
def t1 : Tile := { regions := [(2, {base := 0, size := 4096, ctx := 0}), (3, r0)], bcnt := [(7,{count := 3})] }
def t2 : Tile := { t1 with regions := [(3, { r0 with pClaims := [k0], rhead := ⟨8,true⟩ })] }
def s1 : State := { sA.setTile 1 t1 with queues := [(0, hq 0 [d1])] }
def s2 : State := { sA.setTile 1 t1 with queues := [(0, hq 0 [dd2])], engines := [(1,{p0 := {desc := some (0,0,9), row := 3, unacked := 100, strips := [(1,40)], scaleDue := some (3, ⟨40,false⟩)}, p1 := {desc := some (0,0,9), row := 1, scaleDue := some (1, ⟨40,false⟩)}}), (0,{p0 := {desc := some (0,0,9), row := 1, scaleDue := some (1, ⟨40,false⟩)}})] }
def c0 : ClaimRef := { tile := 1, region := 3, side := .producer, id := 4 }
def sAck : State := { sA.setTile 1 t2 with queues := [(0, hq 0 [dd])], engines := [(0, {p0 := {desc := some (0,0,9), unacked := 128, writes := [1], pkt := 16, claims := [c0]}})] }
theorem witness_TilefeedDeliversStrips_1 :
    let f : FnId := 0
    let slot : SlotId := 0
    let id : Nat := 9
    let e : Nat := 0
    let i : Nat := 0
    let s : State := s1
    let d : Desc := d1
    let n : Nat := tfRowBytes d
    let r : Region := s.region (tfFirst d) (tfRegion d)
    (s.desc f slot id = some d ∧
      TakesPlace s f slot id 3 d e i ∧
      s.feedOk (s.queue f slot).ctx d = true ∧
      tfMb d = 1 ∧
      tfNb d = 1 ∧
      tfTiles d = 1 ∧
      tfFlags d = 0 ∧
      0 < n ∧
      r.circular = true ∧
      r.pClaims = [] ∧
      r.pWait = [] ∧
      r.held = [] ∧
      4 * n + fill r.size r.rhead r.tail ≤ r.size ∧
      r.rhead.off < r.size ∧
      r.base + r.size ≤ 786432 ∧
      s.poison = []) ∧
    (∀ q, q < 16 → ∀ x, tfSrc d + q * tfSrcStride d ≤ x → x < tfSrc d + q * tfSrcStride d + n →
      s.homeFenced x = false ∧ s.homeSector x = e / 2 ∧ s.isHomed (s.queue f slot).ctx (s.loc x) = true) :=
  ⟨by decide +kernel,
    fun q hq x h1 h2 => between (P := fun x => s1.homeFenced x = false ∧ s1.homeSector x = 0 ∧
      s1.isHomed (s1.queue 0 0).ctx (s1.loc x) = true)
      ((by decide +kernel : ∀ q < 16, ∀ k < tfRowBytes d1, s1.homeFenced (tfSrc d1 + q * tfSrcStride d1 + k) = false ∧
        s1.homeSector (tfSrc d1 + q * tfSrcStride d1 + k) = 0 ∧
        s1.isHomed (s1.queue 0 0).ctx (s1.loc (tfSrc d1 + q * tfSrcStride d1 + k)) = true) q hq) h1 h2⟩
theorem witness_TilefeedDeliversStrips_2 :
    let p : CtlPacket := (fp 0 5 (128 * 2^16 % 2^23 + 2^23) : CtlPacket)
    let s : State := sAck
    let e : Nat := 0
    let i : Nat := 0
    let n : Nat := ackBytes p.header.toNat
    IsAck s p e i n ∧
    let f : Nat := 0
    let j : Nat := 0
    let id : Nat := 9
    (s.place e i).desc = some (f, j, id) ∧
    ∃ d, s.desc f j id = some d ∧
      let c : ClaimRef := c0
      let k : Claim := k0
      LastAckDue s e i f j id d n ∧
      d.type = 3 ∧
      tfFlags d = 0 ∧
      (s.place e i).claims = [c] ∧
      c.tile = tfTile d (s.place e i).row ∧
      c.region = tfRegion d ∧
      c.side = .producer ∧
      (s.region c.tile c.region).pClaims = [k] ∧
      k.id = c.id := by decide +kernel
theorem witness_TilefeedDeliversStrips_3 :
    let e : EngineId := 1
    let i : Fin 2 := 0
    let s : State := s2
    ∃ kd, s.placeDesc e i = some kd ∧
      let d : Desc := kd.2
      let v : Nat := 3
      let start : Ptr := (⟨40,false⟩ : Ptr)
      d.type = 3 ∧
      (s.place e i).paused = false ∧
      (s.place e i).rowsDone = false ∧
      (s.place e i).scaleDue = some (v, start) ∧
      (s.place e i).row < rowCount d ∧
      s.scaleFree e i d v = false := by decide +kernel
theorem witness_TilefeedDeliversStrips_4 :
    let e : EngineId := 0
    let i : Fin 2 := 0
    let s : State := s2
    let k : Nat := 0
    let d : Desc := dd2
    let v : Nat := 1
    let start : Ptr := ⟨40, false⟩
    (s.placeDesc e i = some (k, d) ∧
      d.type = 3 ∧
      (s.place e i).paused = false ∧
      (s.place e i).rowsDone = false ∧
      (s.place e i).scaleDue = some (v, start) ∧
      (s.place e i).row < rowCount d ∧
      s.scaleFree e i d v = true ∧
      (s.place e i).pkt = 0 ∧
      s.outstanding e = 0 ∧
      0 < tfScaleRow d ∧
      s.poison = []) ∧
    (∀ q, q < 16 → ∀ x, tfScaleSrc d + (16 * tfBlock d v + q) * tfScaleStride d ≤ x →
      x < tfScaleSrc d + (16 * tfBlock d v + q) * tfScaleStride d + tfScaleRow d →
      (s.addrKind x).isTier = true ∧ s.homeFenced x = false ∧ s.homeSector x = e / 2 ∧
      s.isHomed k (s.loc x) = true) :=
  ⟨by decide +kernel,
    fun q hq x h1 h2 => between (P := fun x => (s2.addrKind x).isTier = true ∧ s2.homeFenced x = false ∧
      s2.homeSector x = 0 ∧ s2.isHomed 0 (s2.loc x) = true)
      ((by decide +kernel : ∀ q < 16, ∀ k < tfScaleRow dd2,
        (s2.addrKind (tfScaleSrc dd2 + (16 * tfBlock dd2 1 + q) * tfScaleStride dd2 + k)).isTier = true ∧
        s2.homeFenced (tfScaleSrc dd2 + (16 * tfBlock dd2 1 + q) * tfScaleStride dd2 + k) = false ∧
        s2.homeSector (tfScaleSrc dd2 + (16 * tfBlock dd2 1 + q) * tfScaleStride dd2 + k) = 0 ∧
        s2.isHomed 0 (s2.loc (tfScaleSrc dd2 + (16 * tfBlock dd2 1 + q) * tfScaleStride dd2 + k)) = true) q hq) h1 h2⟩
end TilefeedDeliversStrips
/-! Hypotheses of `Obligations.AtomicUnit` (AtomicUnitIssues). -/
namespace AtomicUnitIssues
def u0 : AtomUnit := { addr := 5*2097152+8, opA := 5, opB := 6, toggles := 1 }
def u1 : AtomUnit := { u0 with last := some ⟨2,true,5*2097152+8,5,6,true⟩ }
def smpWord : List (String × (Word)) := ns ((List.range 32).map fun i => BitVec.ofNat 32 i)
theorem witness_AtomicUnitIssues_1 :
    let a : At := at0
    let v : Word := pick smpWord 0 0
    let s : State := (sA.modCore 0 fun x => {x with atom := u0} : State)
    (s.core a.core).canIssue = true ∧
    let u : AtomUnit := (s.core a.core).atom
    v.toNat % 8 < 8 ∧
    v.getLsbD 4 = false ∧
    u.busy = false ∧
    s.atomRefused a.core u (v.getLsbD 3) = false := by decide +kernel
theorem witness_AtomicUnitIssues_2 :
    let a : At := at0
    let v : Word := pick smpWord 16 0
    let s : State := (sA.modCore 0 fun x => {x with atom := u1} : State)
    (s.core a.core).canIssue = true ∧
    let u : AtomUnit := (s.core a.core).atom
    v.getLsbD 4 = true ∧
    u.busy = false ∧
    ∃ q, u.last = some q ∧ True := by decide +kernel
theorem witness_AtomicUnitIssues_3 :
    let a : At := at0
    let v : Word := pick smpWord 16 0
    let s : State := (sA.modCore 0 fun x => {x with atom := u0} : State)
    (s.core a.core).canIssue = true ∧
    let u : AtomUnit := (s.core a.core).atom
    v.getLsbD 4 = true ∧
    u.busy = false ∧
    u.last = none := by decide +kernel
theorem witness_AtomicUnitIssues_4 :
    let a : At := at0
    let v : Word := pick smpWord 0 0
    let s : State := (sA.modCore 0 fun x => {x with atom := {u1 with busy := true}} : State)
    (s.core a.core).canIssue = true ∧
    let u : AtomUnit := (s.core a.core).atom
    u.busy = true ∧
    v.getLsbD 4 = false := by decide +kernel
end AtomicUnitIssues
/-! Hypotheses of `Obligations.AtomicUnit` (AtomicResponsesAndReissues). -/
namespace AtomicResponsesAndReissues
def u0 : AtomUnit := { addr := 5*2097152+8, opA := 5, opB := 6, toggles := 1, busy := true, last := some ⟨2,true,5*2097152+8,5,6,true⟩ }
def s0 := sA.modCore 5 fun x => {x with atom := u0}
def smpCtlPacket : List (String × (CtlPacket)) := (ctlOf (s0.postAtomRsp 0 0 5 true 0 0x123456789A) ++ ctlOf (s0.postAtomRsp 0 0 5 false 0 0x123456789A)).map fun p => ("",p)
theorem witness_AtomicResponsesAndReissues_1 :
    let p : CtlPacket := pick smpCtlPacket 0 dCtl
    let s : State := s0
    s.fate p.route = .deliver ∧
    hdrKind p = 5 ∧
    bits p.header.toNat 9 7 = 3 ∧
    (s.core (rqCore p.header.toNat)).atom.busy = true ∧
    ∃ q, (s.core (rqCore p.header.toNat)).atom.last = some q ∧
      q.tgl = rqTgl p.header.toNat ∧
      (s.core (rqCore p.header.toNat)).wait = none := by decide +kernel
theorem witness_AtomicResponsesAndReissues_2 :
    let c : CoreId := 5
    let s : State := s0
    (s.core c).atom.busy = true ∧
    ∃ q, (s.core c).atom.last = some q ∧
      (s.core c).wait = none ∧
      (s.core c).atom.tries < 3 := by decide +kernel
theorem witness_AtomicResponsesAndReissues_3 :
    let c : CoreId := 5
    let s : State := (sA.modCore 5 fun x => {x with atom := {u0 with tries := 3}} : State)
    (s.core c).atom.busy = true ∧
    ∃ q, (s.core c).atom.last = some q ∧
      (s.core c).wait = none ∧
      3 ≤ (s.core c).atom.tries := by decide +kernel
end AtomicResponsesAndReissues
/-! Hypotheses of `Obligations.MemoryAtomics` (StoreAtomicsApplyOnce). -/
namespace StoreAtomicsApplyOnce
def mk (op : Nat) (addr : Nat) (a b : Nat) (tgl : Bool) : List CtlPacket :=
  let s := sA.modCore 5 fun x => {x with atom := {addr := BitVec.ofNat 48 addr, opA := BitVec.ofNat 64 a, opB := BitVec.ofNat 64 b, toggles := if tgl then 0 else 0xFFFF}}
  match exec (atomInstr {core := 5, pc := 0} (BitVec.ofNat 32 (op+8)) op) s with | .next t => ctlOf t | _ => []
def mk32 (op addr : Nat) : List CtlPacket :=
  let s := sA.modCore 5 fun x => { x with atom := { addr := BitVec.ofNat 48 addr, opA := 9, opB := 7, toggles := 0 } }
  match exec (atomInstr { core := 5, pc := 0 } (BitVec.ofNat 32 op) op) s with | .next t => ctlOf t | _ => []
def pks : List CtlPacket := (List.range 6).flatMap (fun op => mk op (5*2097152+8) 0xFFFFFFFFFFFFFF00 7 true) ++ mk 1 (5*2097152+16) 0 9 false ++ mk 1 (6*2097152+16) 0 9 false ++ mk 1 (6*2097152+16) 1 9 false
def smpCtlPacket : List (String × (CtlPacket)) := pks.map fun p => ("",p)
theorem witness_StoreAtomicsApplyOnce_1 :
    let p : CtlPacket := pick smpCtlPacket 0 dCtl
    let s : State := sA
    s.fate p.route = .deliver ∧
    let k : Nat := p.route.ctx.toNat
    let sec : Nat := sectorOfTile p.route.destTile.toNat
    let core : Nat := rqCore p.header.toNat
    hdrKind p = 5 ∧
    (s.addrKind (rqAddr p)).isTier = true ∧
    rqAddr p % 8 = 0 ∧
    s.isHomed k (s.loc (rqAddr p)) = true ∧
    ISet.mem s.poison (s.loc (rqAddr p) / 128) = false ∧
    Cells.wf s.mem = true ∧
    (∀ r ∈ s.replay, r.1 = sec * 8192 + core → r.2.tgl ≠ rqTgl p.header.toNat) ∧
    bits p.header.toNat 9 7 = 1 ∧
    bits p.word3.toNat 3 3 = 1 ∧
    bits p.word3.toNat 4 4 = 0 ∧
    p.word3.toNat % 8 < 6 := by decide +kernel
theorem witness_StoreAtomicsApplyOnce_2 :
    let p : CtlPacket := pick smpCtlPacket 1 dCtl
    let s : State := sA
    s.fate p.route = .deliver ∧
    let k : Nat := p.route.ctx.toNat
    let sec : Nat := sectorOfTile p.route.destTile.toNat
    let core : Nat := rqCore p.header.toNat
    hdrKind p = 5 ∧
    (s.addrKind (rqAddr p)).isTier = true ∧
    rqAddr p % 8 = 0 ∧
    s.isHomed k (s.loc (rqAddr p)) = true ∧
    ISet.mem s.poison (s.loc (rqAddr p) / 128) = false ∧
    Cells.wf s.mem = true ∧
    (∀ r ∈ s.replay, r.1 = sec * 8192 + core → r.2.tgl ≠ rqTgl p.header.toNat) ∧
    bits p.header.toNat 9 7 = 2 := by decide +kernel
theorem witness_StoreAtomicsApplyOnce_3 :
    let p : CtlPacket := pick smpCtlPacket 0 dCtl
    let s : State := ({sA with replay := [(5,{tgl := true})]} : State)
    s.fate p.route = .deliver ∧
    let k : Nat := p.route.ctx.toNat
    let sec : Nat := sectorOfTile p.route.destTile.toNat
    let core : Nat := rqCore p.header.toNat
    hdrKind p = 5 ∧
    (s.addrKind (rqAddr p)).isTier = true ∧
    rqAddr p % 8 = 0 ∧
    s.isHomed k (s.loc (rqAddr p)) = true ∧
    ISet.mem s.poison (s.loc (rqAddr p) / 128) = false ∧
    Cells.wf s.mem = true ∧
    ∃ r, s.replay.find? (fun r => r.1 == sec * 8192 + core && r.2.tgl == rqTgl p.header.toNat) = some r ∧
      bits p.header.toNat 9 7 = 1 := by decide +kernel
/-- Operations on 32 bits, in the lower and the upper half of their 8 bytes. -/
theorem witness_StoreAtomicsApplyOnce_4 :
    let s : State := sA
    ∀ x ∈ [((mk32 0 (5*2097152+8)).headD dCtl, 0), ((mk32 3 (5*2097152+12)).headD dCtl, 1)],
      let p := x.1
      let a := rqAddr p + 4 * x.2
      NewRequest s p ∧ (s.addrKind a).isTier = true ∧ s.isHomed p.route.ctx.toNat (s.loc a) = true ∧
      ISet.mem s.poison (s.loc a / 128) = false ∧ Cells.wf s.mem = true ∧ bits p.header.toNat 9 7 = 1 ∧
      p.word3.toNat % 8 < 6 ∧ bits p.word3.toNat 3 3 = 0 ∧ bits p.word3.toNat 4 4 = x.2 := by decide +kernel
/-- A replay of a CAS64. -/
theorem witness_StoreAtomicsApplyOnce_5 :
    let p : CtlPacket := pick smpCtlPacket 1 dCtl
    let s : State := { sA with replay := [(5, { tgl := true, res := 9 })] }
    s.fate p.route = .deliver ∧ hdrKind p = 5 ∧ (s.addrKind (rqAddr p)).isTier = true ∧
    s.isHomed p.route.ctx.toNat (s.loc (rqAddr p)) = true ∧ bits p.header.toNat 9 7 = 2 ∧
    (s.replay.find? (fun r => r.1 == sectorOfTile p.route.destTile.toNat * 8192 + rqCore p.header.toNat
      && r.2.tgl == rqTgl p.header.toNat)).isSome = true := by decide +kernel
end StoreAtomicsApplyOnce
/-! Hypotheses of `Obligations.MemoryAtomics` (EngineAtomicApplies). -/
namespace EngineAtomicApplies
def bp : BulkPacket := { route := (fp 0 0).route, kind := 3, nflits := 1, bytes := 24, addr := BitVec.ofNat 48 (5*2097152+8), raddr := 0xF8000000000, data := leBytes 8 8 ++ leBytes 8 (2^64-3) ++ leBytes 8 0 }
theorem witness_EngineAtomicApplies_1 :
    let p : BulkPacket := bp
    let s : State := sA
    p.kind = 3 ∧
    p.status = 0 ∧
    s.fate p.route = .deliver ∧
    p.nflits = 1 ∧
    p.bytes = 24 ∧
    p.data.length = 24 ∧
    field p.data 0 8 = 8 ∧
    (s.addrKind p.addr.toNat).isTier = true ∧
    p.addr.toNat % 8 = 0 ∧
    s.isHomed p.route.ctx.toNat (s.loc p.addr.toNat) = true ∧
    ISet.mem s.poison (s.loc p.addr.toNat / 128) = false ∧
    Cells.wf s.mem = true := by decide +kernel
theorem witness_EngineAtomicApplies_2 :
    let p : BulkPacket := { bp with status := 1 }
    let s : State := sA
    p.kind = 3 ∧ p.status ≠ 0 ∧ s.fate p.route = .deliver := by decide +kernel
end EngineAtomicApplies
/-! Hypotheses of `Obligations.MemoryAtomics` (ClaimTakesTheNextItem). -/
namespace ClaimTakesTheNextItem
def oa := 5*2097152
/-- A counter with NEXT and FIRST, LIMIT 5 and a lease of 7 us; item 1 is committed, the lease of item 2 ran out. -/
def cnt (next first : Nat) : State := (((((sA.setTierNat oa 4 next).setTierNat (oa+4) 4 5).setTierNat (oa+8) 4 7).setTierNat (oa+0xC) 4 first).setTierNat (oa+0x10) 8 (oa+64)).setTierNat (oa+64+8) 8 (2^63+5) |>.setTierNat (oa+64+16) 8 5
def rqp (op i : Nat) : CtlPacket :=
  let s := sA.modCore 5 fun x => { x with atom := { addr := BitVec.ofNat 48 oa, opA := BitVec.ofNat 64 i, toggles := 0 } }
  match exec (atomInstr { core := 5, pc := 0 } (BitVec.ofNat 32 (op + 8)) op) s with | .next t => (ctlOf t).headD dCtl | _ => dCtl
theorem witness_ClaimTakesTheNextItem_1 :
    ∀ x ∈ [(cnt 2 2, rqp 6 0, 6, 0), (cnt 5 2, rqp 6 0, 6, 0), (cnt 5 5, rqp 6 0, 6, 0), (cnt 4 2, rqp 7 2, 7, 2), (cnt 4 2, rqp 7 1, 7, 1), (cnt 4 2, rqp 7 5, 7, 5)],
      let s := x.1
      let p := x.2.1
      let a := oa
      NewRequest s p ∧ bits p.header.toNat 9 7 = 1 ∧ bits p.word3.toNat 3 3 = 1 ∧ bits p.word3.toNat 4 4 = 0 ∧
      p.word3.toNat % 8 = x.2.2.1 ∧ rqAddr p = a ∧ a % 64 = 0 ∧ a + 64 ≤ tier1Size ∧
      s.allHomed p.route.ctx.toNat a 64 = true ∧ s.counterOk p.route.ctx.toNat a = true ∧ s.tierNat (a + 4) 4 = 5 ∧
      s.tierNat (a + 0x10) 8 + 8 * 5 ≤ tier1Size ∧ a + 64 ≤ s.tierNat (a + 0x10) 8 ∧ s.poison = [] ∧
      Cells.wf s.mem = true ∧ p.word0.toNat + 2 ^ 32 * p.word1.toNat = x.2.2.2 := by decide +kernel
theorem witness_ClaimTakesTheNextItem_2 :
    (cnt 5 2).tierNat oa 4 = 5 ∧ (cnt 5 2).tierNat (oa + 0xC) 4 = 2 ∧ recCommitted ((cnt 5 2).item oa 2) = false ∧
    recExpiry ((cnt 5 2).item oa 2) ≤ (cnt 5 2).deviceTime.toNat ∧ (cnt 5 5).tierNat (oa + 0xC) 4 = 5 ∧
    recCommitted ((cnt 4 2).item oa 2) = false ∧ recCommitted ((cnt 4 2).item oa 1) = true := by decide +kernel
end ClaimTakesTheNextItem
end Sys2Proof.Tests.Engines
end

