-- ==== Sys2Proof/Tests/Faults.lean ====
section
/-! SUPPORT. Faults: for the obligations about it, states and operands that meet the hypotheses of each clause. -/
open Sys2Proof Sys2Proof.Machine
namespace Sys2Proof.Tests.Faults
set_option Elab.async false
def RQ (rs : List (List Byte)) (s : State) : List (String × State) := rs.flatMap fun r => [("m0",withReq (.mailbox 0) r s)]
def lic (s : State) : State := {s with boot := {s.boot with licence := {tier := 2, sectorMask := 0xFFFF}}, lifecycle := 2}
def rich : State := {lic base with tiles := [(0,{misroute := 4}),(40,{misroute := 5})], mem := [(spadBase+5,4),(spadBase+32*0x400000,4)]}
def esc (s : State) : State := {s with faults := {s.faults with escOn := true, escN := 1, escSince := 0, escStarts := [5,999999000000]}}
/-! Hypotheses of `Obligations.SectorResets` (SectorFaultsResetTheSector). -/
namespace SectorFaultsResetTheSector
def rqs := [mkReq 0x901 (bs [(2,3)]), mkReq 0x901 (bs [(2,0)]), mkReq 0x901 (bs [(2,0x8001)]), mkReq 0x901 (bs [(2,8)])]
def rp (a t : Nat) (s : State) : State := s.modSector 0 fun x => {x with st := .resetting, reset := some {attempts := a, trainFails := t, cause := 5}}
def few (s : State) (n : Nat) : State := (List.range n).foldl (fun s i => s.modPhy (physOfLocal 0 i) fun x => {x with cad := .cullet, index := none}) s
def sts := [rich, rp 1 0 rich, rp 3 0 rich, rp 2 1 rich, few (rp 1 0 rich) 5, few (rp 1 0 rich) 20, few (rp 1 0 rich) 4, esc (rp 1 0 rich), rich.modSector 0 (fun x => {x with lastWatchdog := some 999000000000}), rich.modSector 0 (fun x => {x with lastWatchdog := some 9}), rich.modSector 0 (fun x => {x with st := .out}), rich.modPhy 4 fun x => {x with visit := some {}}]
def smpState : List (String × (State)) := RQ rqs rich ++ ((sts).map fun s => ("",s))
def smpListByte : List (String × (List Byte)) := rqs.map fun r => ("",r)
theorem witness_SectorFaultsResetTheSector_1 :
    let n : SectorId := 0
    let s : State := pick smpState 14 base
    s.gafferUp = true ∧
    (s.sector n).st.inService = false := by decide +kernel
theorem witness_SectorFaultsResetTheSector_2 :
    let n : SectorId := 0
    let s : State := pick smpState 6 base
    s.gafferUp = true ∧
    (s.sector n).st.inService = true ∧
    s.plumb.outOfService = false ∧
    ∃ q, (s.sector n).reset = some q ∧
      q.attempts = 3 := by decide +kernel
theorem witness_SectorFaultsResetTheSector_3 :
    let src : Src := .mailbox 0
    let req : List Byte := pick smpListByte 2 ([])
    let s : State := pick smpState 2 base
    Fronts s src 0x0901 req ∧
    let mask : BitVec 16 := BitVec.ofNat 16 (rq req 0 2)
    (∃ n ∈ setBits mask, (s.sector n).st.inService = false) := by decide +kernel
theorem witness_SectorFaultsResetTheSector_4 :
    let src : Src := .mailbox 0
    let req : List Byte := pick smpListByte 1 ([])
    let s : State := pick smpState 1 base
    Fronts s src 0x0901 req ∧
    let mask : BitVec 16 := BitVec.ofNat 16 (rq req 0 2)
    mask = 0 := by decide +kernel
theorem witness_SectorFaultsResetTheSector_5 :
    let src : Src := .mailbox 0
    let req : List Byte := pick smpListByte 0 ([])
    let s : State := pick smpState 0 base
    Fronts s src 0x0901 req ∧
    let mask : BitVec 16 := BitVec.ofNat 16 (rq req 0 2)
    mask ≠ 0 ∧
    (∀ n ∈ setBits mask, (s.sector n).st.inService = true ∧ (s.sector n).reset = none) ∧
    (s.opsOf (srcFn src)).length < 8 ∧
    s.plumb.outOfService = false := by decide +kernel
theorem witness_SectorFaultsResetTheSector_6 :
    let n : SectorId := 0
    let s : State := pick smpState 5 base
    ∃ q, (s.sector n).reset = some q ∧
      s.faults.escOn = false := by decide +kernel
theorem witness_SectorFaultsResetTheSector_7 :
    let n : SectorId := 0
    let s : State := pick smpState 11 base
    ∃ q, (s.sector n).reset = some q ∧
      s.escalates = true := by decide +kernel
theorem witness_SectorFaultsResetTheSector_8 :
    let n : SectorId := 0
    let ch : ChannelId := 0
    let s : State := pick smpState 0 base
    ((s.sector n).reset = none ∨ channelSector ch ≠ n.val) := by decide +kernel
theorem witness_SectorFaultsResetTheSector_9 :
    let n : SectorId := 0
    let ch : ChannelId := 0
    let s : State := pick smpState 5 base
    ∃ q, (s.sector n).reset = some q ∧
      channelSector ch = n.val ∧
      (s.sector n).st.inService = true ∧
      s.plumb.outOfService = false ∧
      q.trainFails = 0 ∧
      q.attempts < 3 := by decide +kernel
theorem witness_SectorFaultsResetTheSector_10 :
    let n : SectorId := 0
    let ch : ChannelId := 0
    let s : State := pick smpState 7 base
    ∃ q, (s.sector n).reset = some q ∧
      channelSector ch = n.val ∧
      (s.sector n).st.inService = true ∧
      s.plumb.outOfService = false ∧
      q.trainFails = 1 := by decide +kernel
theorem witness_SectorFaultsResetTheSector_11 :
    let n : SectorId := 0
    let s : State := pick smpState 0 base
    s.gafferUp = true ∧
    let ok : Bool := false
    let busy : Bool := false
    (s.sector n).st.inService = true ∧
    (s.sector n).reset = none ∧
    s.plumb.outOfService = false ∧
    (ok = false ∨ busy = true ∨ (∃ p ∈ physOfSector n, (s.phy p).visit.isSome = true)) := by decide +kernel
theorem witness_SectorFaultsResetTheSector_12 :
    let n : SectorId := 0
    let s : State := pick smpState 0 base
    (s.gafferUp = true ∧
      (s.sector n).st.inService = true ∧
      (s.sector n).reset = none ∧
      (∀ p ∈ physOfSector n, (s.phy p).visit = none)) ∧
    (∀ t0, (s.sector n).lastWatchdog = some t0 → t0.toNat + 60000000000 < s.deviceTime.toNat) :=
  ⟨by decide +kernel, fun t0 h => by
    have e : ((pick smpState 0 base).sector 0).lastWatchdog = none := by decide +kernel
    rw [show ((0 : SectorId) : Nat) = 0 from rfl, e] at h; exact nomatch h⟩
theorem witness_SectorFaultsResetTheSector_13 :
    let n : SectorId := 0
    let s : State := pick smpState 12 base
    s.gafferUp = true ∧
    (s.sector n).st.inService = true ∧
    (s.sector n).reset = none ∧
    (∀ p ∈ physOfSector n, (s.phy p).visit = none) ∧
    let t0 := ((s.sector n).lastWatchdog).getD 0
    (s.sector n).lastWatchdog = some t0 ∧
    s.deviceTime.toNat ≤ t0.toNat + 60000000000 ∧
    s.plumb.outOfService = false := by decide +kernel
/-- A tier-2 channel without and with a licence. -/
theorem witness_SectorFaultsResetTheSector_14 :
    let s : State := rp 1 0 rich
    let base1 : State := { s with boot := { s.boot with licence := { s.boot.licence with tier := 0 } } }
    channelSector (128 : ChannelId) = 0 ∧ base1.hasTier2 = false ∧ (base1.sector 0).reset.isSome = true ∧ s.hasTier2 = true ∧
    (s.sector 0).reset.isSome = true ∧ (s.sector 0).st.inService = true ∧ s.plumb.outOfService = false := by decide +kernel
end SectorFaultsResetTheSector
/-! Hypotheses of `Obligations.SectorResets` (EscalationIsConfigured). -/
namespace EscalationIsConfigured
def rqs := [mkReq 0x902 (bs [(1,0),(1,0),(2,0),(4,0)]), mkReq 0x902 (bs [(1,1),(1,0),(2,4),(4,50)])]
def smpListByte : List (String × (List Byte)) := rqs.map fun r => ("",r)
def smpState : List (String × (State)) := RQ rqs rich ++ RQ rqs (esc rich)
theorem witness_EscalationIsConfigured_1 :
    let src : Src := .mailbox 0
    let req : List Byte := pick smpListByte 0 ([])
    let s : State := pick smpState 0 base
    Fronts s src 0x0902 req ∧
    rq req 0 1 = 0 := by decide +kernel
theorem witness_EscalationIsConfigured_2 :
    let src : Src := .mailbox 0
    let req : List Byte := pick smpListByte 1 ([])
    let s : State := pick smpState 3 base
    Fronts s src 0x0902 req ∧
    rq req 0 1 ≠ 0 ∧
    s.faults.escOn = true := by decide +kernel
theorem witness_EscalationIsConfigured_3 :
    let src : Src := .mailbox 0
    let req : List Byte := pick smpListByte 1 ([])
    let s : State := pick smpState 1 base
    Fronts s src 0x0902 req ∧
    rq req 0 1 ≠ 0 ∧
    s.faults.escOn = false := by decide +kernel
end EscalationIsConfigured
/-! Hypotheses of `Obligations.GafferAndDeviceFaults` (GafferRestartsAndHalts). -/
namespace GafferRestartsAndHalts
def rqs := [mkReq 0x902 (bs [(1,0),(1,0),(2,0),(4,0)])]
def g (x : GafferState) (l : List DWord) (s : State) : State := {s with plumb := {s.plumb with gaffer := x, heartbeat := 5}, faults := {s.faults with gafferRestarts := l, restartCause := 3}}
def fl (a b : Bool) (s : State) : State := {s with flash := {s.flash with slotA := {s.flash.slotA with authentic := a}, slotB := {s.flash.slotA with authentic := b}}}
def r1 : State := (RQ rqs rich).head?.elim rich (·.2)
def now (s : State) : State := {s with faults := {s.faults with restartAt := 999999000000}}
def sts := [g .running [] r1, g .running [5,6] r1, g .running [999000000000,999000000000,999000000000] r1, g .running [7,6,5] r1, g .waitHost [] r1, g .boot [] r1, g .restarting [] rich, fl false false (g .restarting [] rich), fl true true (g .restarting [] rich), fl false true (g .restarting [] rich), now (g .restarting [] rich), now (fl false false (g .restarting [] rich)), now (fl false true (g .restarting [] rich))]
def smpState : List (String × (State)) := sts.map fun s => ("",s)
theorem witness_GafferRestartsAndHalts_1 :
    let s : State := pick smpState 5 base
    s.gafferUp = false := by decide +kernel
theorem witness_GafferRestartsAndHalts_2 :
    let s : State := pick smpState 0 base
    s.gafferUp = true ∧
    (∀ t0, s.faults.gafferRestarts[2]? = some t0 → t0.toNat + 60000000000 < s.deviceTime.toNat) :=
  ⟨by decide +kernel, fun t0 h => by
    have e : (pick smpState 0 base).faults.gafferRestarts[2]? = none := by decide +kernel
    rw [e] at h; exact nomatch h⟩
theorem witness_GafferRestartsAndHalts_3 :
    let s : State := pick smpState 2 base
    s.gafferUp = true ∧
    let t0 := (s.faults.gafferRestarts[2]?).getD 0
    s.faults.gafferRestarts[2]? = some t0 ∧
    s.deviceTime.toNat ≤ t0.toNat + 60000000000 := by decide +kernel
theorem witness_GafferRestartsAndHalts_4 :
    let s : State := pick smpState 0 base
    s.plumb.gaffer ≠ .restarting := by decide +kernel
theorem witness_GafferRestartsAndHalts_5 :
    let s : State := pick smpState 10 base
    s.plumb.gaffer = .restarting ∧
    s.deviceTime.toNat < s.faults.restartAt.toNat + 1000000000 := by decide +kernel
theorem witness_GafferRestartsAndHalts_6 :
    let s : State := pick smpState 6 base
    s.plumb.gaffer = .restarting ∧
    s.faults.restartAt.toNat + 1000000000 ≤ s.deviceTime.toNat := by decide +kernel
theorem witness_GafferRestartsAndHalts_7 :
    let s : State := pick smpState 6 base
    s.plumb.gaffer = .restarting ∧
    s.faults.restartAt.toNat + 1000000000 < s.deviceTime.toNat := by decide +kernel
theorem witness_GafferRestartsAndHalts_8 :
    let s : State := pick smpState 10 base
    s.plumb.gaffer = .restarting ∧
    s.deviceTime.toNat ≤ s.faults.restartAt.toNat + 1000000000 ∧
    s.flash.accepts s.flash.slotA = true := by decide +kernel
theorem witness_GafferRestartsAndHalts_9 :
    let s : State := pick smpState 7 base
    s.plumb.gaffer = .restarting ∧
    s.flash.accepts s.flash.slotA = false ∧
    s.flash.accepts s.flash.slotB = false := by decide +kernel
/-- Slot B after a promotion, after an activated image, and with a session that is not activated. -/
theorem witness_GafferRestartsAndHalts_10 :
    ∀ x ∈ [(3, false, false, true), (1, true, false, true), (1, true, true, false), (1, false, false, false)],
      let s : State := now (fl true true (g .restarting [] rich))
      let u : State := { s with plumb := { s.plumb with fwSlotB := x.2.1 }, faults := { s.faults with restartCause := x.1 }
                                flash := { s.flash with session := if x.2.2.1 then some { length := 4 } else none } }
      u.plumb.gaffer = .restarting ∧ u.deviceTime.toNat ≤ u.faults.restartAt.toNat + 1000000000 ∧
      u.flash.accepts u.flash.slotA = true ∧ u.faults.dumpDue = none ∧
      ((u.faults.restartCause == 3 || (u.plumb.fwSlotB && u.flash.session.isNone)) && u.flash.accepts u.flash.slotB) = x.2.2.2 := by
  decide +kernel
end GafferRestartsAndHalts
/-! Hypotheses of `Obligations.GafferAndDeviceFaults` (DeviceFaultsTakeTheDeviceOut). -/
namespace DeviceFaultsTakeTheDeviceOut
def P (st : PortState) : Port := { st, width := 8, enabled := true, delayNs := 100 }
def st : State := ({rich with fabric := { ports := [(0,P .up),(1,P .training),(2,P .disabled)]}}.modCtx 5 fun k => {k with st := .teardown}).modCtx 1 fun k => {k with job := 0}
theorem witness_DeviceFaultsTakeTheDeviceOut_1 :
    let s : State := st
    s.plumb.outOfService = false := by decide +kernel
theorem witness_DeviceFaultsTakeTheDeviceOut_2 :
    let s : State := ({st with plumb := {st.plumb with outOfService := true}} : State)
    s.plumb.outOfService = true := by decide +kernel
theorem witness_DeviceFaultsTakeTheDeviceOut_3 :
    let s : State := ({st with faults := {st.faults with abortIn := true}} : State)
    s.faults.abortIn = true := by decide +kernel
theorem witness_DeviceFaultsTakeTheDeviceOut_4 :
    let s : State := st
    s.faults.abortIn = false := by decide +kernel
/-- No port goes down, or a job's group names those that do. -/
theorem witness_DeviceFaultsTakeTheDeviceOut_5 :
    let s : State := { st with fabric := { ports := [(0, P .up), (1, P .down)], syn := [(3, some ⟨some 0, 4, 77, 0⟩)] } }
    s.plumb.outOfService = false ∧ (s.port 0).st = .up ∧
    ∀ p, p < 16 → ((s.port p).st ≠ .up ∧ (s.port p).st ≠ .training) ∨ s.synJobs p ≠ [] := by decide +kernel
end DeviceFaultsTakeTheDeviceOut
/-! Hypotheses of `Obligations.LinkLanesAndState` (LinkRetrainTrainsPorts). -/
namespace LinkRetrainTrainsPorts
def P (st : PortState) : Port := { st, width := 8, enabled := true, delayNs := 100 }
def st : State := {rich with fabric := { ports := [(0,P .up),(1,P .training),(2,P .down),(3,{P .down with heldDown := true}),(4,P .up)]}}
def rqs := [mkReq 0x603 (bs [(2,0)]), mkReq 0x603 (bs [(2,0xF)])]
def smpListByte : List (String × (List Byte)) := rqs.map fun r => ("",r)
def smpState : List (String × (State)) := RQ rqs st
theorem witness_LinkRetrainTrainsPorts_1 :
    let src : Src := .mailbox 0
    let req : List Byte := pick smpListByte 0 ([])
    let s : State := pick smpState 0 base
    Fronts s src 0x0603 req ∧
    let mask : BitVec 16 := BitVec.ofNat 16 (rq req 0 2)
    mask = 0 := by decide +kernel
theorem witness_LinkRetrainTrainsPorts_2 :
    let src : Src := .mailbox 0
    let req : List Byte := pick smpListByte 1 ([])
    let s : State := pick smpState 1 base
    Fronts s src 0x0603 req ∧
    let mask : BitVec 16 := BitVec.ofNat 16 (rq req 0 2)
    mask ≠ 0 ∧
    (s.opsOf (srcFn src)).length < 8 := by decide +kernel
end LinkRetrainTrainsPorts
end Sys2Proof.Tests.Faults
end

