-- ==== Sys2Proof/Tests/Healing.lean ====
section
/-! SUPPORT. Healing: for the obligations about it, states and operands that meet the hypotheses of each clause. -/
open Sys2Proof Sys2Proof.Machine
namespace Sys2Proof.Tests.Healing
set_option Elab.async false
def RQ (rs : List (List Byte)) (s : State) : List (String × State) := rs.flatMap fun r => [("m0",withReq (.mailbox 0) r s)]
def P (l : List (Nat × Phys)) (s : State) : State := {s with phys := l.map fun x => (x.1,some x.2)}
def lic (s : State) : State := {s with boot := {s.boot with licence := {tier := 2, sectorMask := 0xFFFF}}, lifecycle := 2}
def sx (s : State) : State := (lic s).modSector 0 fun x => {x with usable := 36}
/-! Hypotheses of `Obligations.SelfTest` (TraverseAndCrossCheckAreControlled). -/
namespace TraverseAndCrossCheckAreControlled
def tc (op m v : Nat) := mkReq 0x703 (bs [(1,op),(1,0),(2,m),(4,v)])
def xc (op v : Nat) := mkReq 0x704 (bs [(1,op),(1,v)])
def rqs := [tc 0 0 0, tc 1 5 0, tc 2 0xF 0, tc 3 9 200, xc 0 0, xc 1 0, xc 2 0, xc 3 9]
def smpListByte : List (String × (List Byte)) := rqs.map fun r => ("",r)
def smpState : List (String × (State)) := RQ rqs (sx base) ++ RQ rqs ({(sx base).modSector 0 (fun x => {x with paused := true}) with xchk := {enabled := true}})
theorem witness_TraverseAndCrossCheckAreControlled_1 :
    let src : Src := .mailbox 0
    let req : List Byte := pick smpListByte 0 ([])
    let s : State := pick smpState 0 base
    Fronts s src 0x0703 req ∧
    rq req 0 1 = 0 := by decide +kernel
theorem witness_TraverseAndCrossCheckAreControlled_2 :
    let src : Src := .mailbox 0
    let req : List Byte := pick smpListByte 1 ([])
    let s : State := pick smpState 1 base
    Fronts s src 0x0703 req ∧
    rq req 0 1 = 1 := by decide +kernel
theorem witness_TraverseAndCrossCheckAreControlled_3 :
    let src : Src := .mailbox 0
    let req : List Byte := pick smpListByte 2 ([])
    let s : State := pick smpState 2 base
    Fronts s src 0x0703 req ∧
    rq req 0 1 = 2 := by decide +kernel
theorem witness_TraverseAndCrossCheckAreControlled_4 :
    let src : Src := .mailbox 0
    let req : List Byte := pick smpListByte 3 ([])
    let s : State := pick smpState 3 base
    Fronts s src 0x0703 req ∧
    rq req 0 1 = 3 := by decide +kernel
theorem witness_TraverseAndCrossCheckAreControlled_5 :
    let src : Src := .mailbox 0
    let req : List Byte := pick smpListByte 4 ([])
    let s : State := pick smpState 4 base
    Fronts s src 0x0704 req ∧
    rq req 0 1 = 0 := by decide +kernel
theorem witness_TraverseAndCrossCheckAreControlled_6 :
    let src : Src := .mailbox 0
    let req : List Byte := pick smpListByte 5 ([])
    let s : State := pick smpState 5 base
    Fronts s src 0x0704 req ∧
    rq req 0 1 = 1 := by decide +kernel
theorem witness_TraverseAndCrossCheckAreControlled_7 :
    let src : Src := .mailbox 0
    let req : List Byte := pick smpListByte 6 ([])
    let s : State := pick smpState 6 base
    Fronts s src 0x0704 req ∧
    rq req 0 1 = 2 := by decide +kernel
theorem witness_TraverseAndCrossCheckAreControlled_8 :
    let src : Src := .mailbox 0
    let req : List Byte := pick smpListByte 7 ([])
    let s : State := pick smpState 7 base
    Fronts s src 0x0704 req ∧
    rq req 0 1 = 3 := by decide +kernel
end TraverseAndCrossCheckAreControlled
/-! Hypotheses of `Obligations.TakeoverTileIsTheCoolest`. -/
namespace TakeoverTileIsTheCoolest
theorem witness_TakeoverTileIsTheCoolest_1 :
    let s : State := (P [(3,{drift := 4, tempLog := [(0,50)]}),(4,{drift := 2, tempLog := [(0,60)]}),(5,{marginOnly := true})] base : State)
    let pool : List Nat := ([3,4,5] : List Nat)
    ∃ p, s.coolest pool = some p ∧
      ∃ q ∈ pool,
        (s.phy q).marginOnly = (s.phy p).marginOnly := by decide +kernel
end TakeoverTileIsTheCoolest
/-! Hypotheses of `Obligations.SelfTest` (BistRunsOnTilesOutOfService). -/
namespace BistRunsOnTilesOutOfService
def rb (p sl mv seed : Nat) := mkReq 0x801 (bs [(2,p),(1,sl),(1,mv),(4,0),(8,seed)])
def rqs := [rb 3 15 0 0, rb 122 15 0 0, rb 122 6 0xD8 0, rb 122 5 0 7, rb 122 15 0 7]
def smpListByte : List (String × (List Byte)) := rqs.map fun r => ("",r)
def smpState : List (String × (State)) := RQ rqs {(lic base) with lifecycle := 4}
theorem witness_BistRunsOnTilesOutOfService_1 :
    let src : Src := .mailbox 0
    let req : List Byte := pick smpListByte 0 ([])
    let s : State := pick smpState 0 base
    Fronts s src 0x0801 req ∧
    let p : Nat := rq req 0 2
    (s.opsOf (srcFn src)).length < 8 ∧
    (s.phy p).cad = .good := by decide +kernel
theorem witness_BistRunsOnTilesOutOfService_2 :
    let src : Src := .mailbox 0
    let req : List Byte := pick smpListByte 3 ([])
    let s : State := pick smpState 3 base
    Fronts s src 0x0801 req ∧
    let p : Nat := rq req 0 2
    (s.opsOf (srcFn src)).length < 8 ∧
    (s.phy p).cad ≠ .good ∧
    rq req 8 8 ≠ 0 := by decide +kernel
theorem witness_BistRunsOnTilesOutOfService_3 :
    let src : Src := .mailbox 0
    let req : List Byte := pick smpListByte 2 ([])
    let s : State := pick smpState 2 base
    Fronts s src 0x0801 req ∧
    let p : Nat := rq req 0 2
    (s.opsOf (srcFn src)).length < 8 ∧
    (s.phy p).cad ≠ .good ∧
    rq req 8 8 = 0 := by decide +kernel
/-- One slice of a hot tile, which waits; four slices of a SPARE. -/
theorem witness_BistRunsOnTilesOutOfService_4 :
    let hot : State := withReq (.mailbox 0) (rb 122 1 0 0) ({ lic base with lifecycle := 4 }.modPhy 122 fun x => { x with thermLevel := 2 })
    let s : State := pick smpState 1 base
    Fronts hot (.mailbox 0) 0x0801 (rb 122 1 0 0) ∧ (hot.phy 122).cad ≠ .good ∧ 2 ≤ (hot.phy 122).thermLevel ∧
    popCount (BitVec.ofNat 4 (rq (rb 122 1 0 0) 2 1)) = 1 ∧ (hot.opsOf 0).length < 8 ∧
    Fronts s (.mailbox 0) 0x0801 (rb 122 15 0 0) ∧ (s.phy 122).cad = .spare ∧
    popCount (BitVec.ofNat 4 (rq (rb 122 15 0 0) 2 1)) = 4 := by decide +kernel
end BistRunsOnTilesOutOfService
/-! Hypotheses of `Obligations.SelfTest` (LehrVisitsEndSpareOrCullet). -/
namespace LehrVisitsEndSpareOrCullet
def gp (i : Nat) (x : Phys := {}) : Phys := {x with index := some i}
def spr : Phys := {cad := .spare}
def vs : List Visit := [{}, {runs := [(0,false)]}, {runs := [(0,false)], anyFail := true}, {runs := List.replicate 7 (0,false)},{runs := List.replicate 7 (0,false), anyFail := true},{runs := List.replicate 8 (0,false)},{runs := List.replicate 8 (0,false), retest := true, anyFail := true},{runs := List.replicate 8 (0,false), retest := true, retestFail := true, nominalFail := true, anyFail := true},{runs := List.replicate 3 (0,false), retest := true}]
def st (v : Option Visit) (x : Phys := {}) : State := P [(0,gp 0),(122,{x with cad := .lehr, visit := v}),(123,spr)] (sx base)
def sts := vs.flatMap fun v => [st (some v), st (some v) {thermLevel := 2}, st (some v) {mismatchAt := [1,2]}, (st (some v)).modSector 0 fun x => {x with phaseTile := 32}, st (some v) {marginOnly := true}]
def few (s : State) (n : Nat) : State := (List.range n).foldl (fun s i => s.modPhy (physOfLocal 0 i) fun x => {x with cad := .cullet, index := none}) s
def smpState : List (String × (State)) := [("n",st none)] ++ (sts.map fun s => ("",s)) ++ [("f",few (st (some {})) 4),("f",few (st (some {})) 12),("f",few (st (some {})) 3)]
theorem witness_LehrVisitsEndSpareOrCullet_1 :
    let p : PhysId := 122
    let slice : Fin 4 := 0
    let margin : Bool := true
    let s : State := pick smpState 7 base
    ∃ v, (s.phy p).visit = some v ∧
      v.retest = false ∧ v.waits = false ∧
      v.runs.length = 2 * slice.val + bit margin ∧
      2 ≤ (s.phy p).thermLevel := by decide +kernel
theorem witness_LehrVisitsEndSpareOrCullet_2 :
    let p : PhysId := 122
    let slice : Fin 4 := 0
    let margin : Bool := true
    let misr : DWord := Config.benchmark slice
    let s : State := pick smpState 6 base
    (∃ v, (s.phy p).visit = some v ∧ v.retest = false ∧ v.waits = false ∧ v.runs.length = 2 * slice.val + bit margin ∧
      (s.phy p).thermLevel < 2 ∧ v.anyFail = false) ∧
    misr = Config.benchmark slice :=
  ⟨by decide +kernel, rfl⟩
theorem witness_LehrVisitsEndSpareOrCullet_3 :
    let p : PhysId := 122
    let slice : Fin 4 := 0
    let margin : Bool := true
    let misr : DWord := ~~~(Config.benchmark slice)
    let s : State := pick smpState 6 base
    (∃ v, (s.phy p).visit = some v ∧ v.retest = false ∧ v.waits = false ∧ v.runs.length = 2 * slice.val + bit margin ∧
      (s.phy p).thermLevel < 2) ∧
    misr ≠ Config.benchmark slice :=
  ⟨by decide +kernel, fun h => by simpa using congrArg (·.getLsbD 0) h⟩
theorem witness_LehrVisitsEndSpareOrCullet_4 :
    let p : PhysId := 122
    let slice : Fin 4 := 3
    let margin : Bool := true
    let s : State := pick smpState 16 base
    ∃ v, (s.phy p).visit = some v ∧
      v.retest = false ∧ v.waits = false ∧
      v.runs.length = 2 * slice.val + bit margin ∧
      (s.phy p).thermLevel < 2 ∧
      slice = 3 ∧
      margin = true := by decide +kernel
theorem witness_LehrVisitsEndSpareOrCullet_5 :
    let p : PhysId := 122
    let slice : Fin 4 := 0
    let margin : Bool := true
    let s : State := pick smpState 1 base
    ∃ v, (s.phy p).visit = some v ∧
      v.retest = false ∧ v.waits = false ∧
      v.runs.length ≠ 2 * slice.val + bit margin := by decide +kernel
theorem witness_LehrVisitsEndSpareOrCullet_6 :
    let p : PhysId := 122
    let slice : Fin 4 := 1
    let margin : Bool := true
    let s : State := pick smpState 41 base
    ∃ v, (s.phy p).visit = some v ∧
      v.retest = true ∧ v.waits = false ∧
      (s.phy p).thermLevel < 2 ∧
      v.runs.length < 8 ∧
      v.runs.length / 2 = slice.val ∧
      margin = true := by decide +kernel
theorem witness_LehrVisitsEndSpareOrCullet_7 :
    let p : PhysId := 122
    let slice : Fin 4 := 1
    let margin : Bool := false
    let s : State := pick smpState 41 base
    ∃ v, (s.phy p).visit = some v ∧
      v.retest = true ∧ v.waits = false ∧
      (s.phy p).thermLevel < 2 ∧
      v.runs.length < 8 ∧
      v.runs.length / 2 = slice.val ∧
      margin = false := by decide +kernel
theorem witness_LehrVisitsEndSpareOrCullet_8 :
    let p : PhysId := 0
    let s : State := pick smpState 0 base
    (s.phy p).visit = none := by decide +kernel
theorem witness_LehrVisitsEndSpareOrCullet_9 :
    let p : PhysId := 122
    let s : State := pick smpState 1 base
    ∃ v, (s.phy p).visit = some v ∧
      v.finished = false := by decide +kernel
theorem witness_LehrVisitsEndSpareOrCullet_10 :
    let p : PhysId := 122
    let memFails : Nat := 0
    let s : State := pick smpState 26 base
    ∃ v, (s.phy p).visit = some v ∧
      v.finished = true ∧
      v.retestFail = false ∧
      memFails = 0 ∧
      twoWithinDay (s.phy p).mismatchAt = false ∧
      v.anyFail = false := by decide +kernel
theorem witness_LehrVisitsEndSpareOrCullet_11 :
    let p : PhysId := 122
    let memFails : Nat := 0
    let s : State := pick smpState 31 base
    ∃ v, (s.phy p).visit = some v ∧
      v.finished = true ∧
      v.retestFail = false ∧
      memFails = 0 ∧
      twoWithinDay (s.phy p).mismatchAt = false ∧
      v.anyFail = true ∧
      v.nominalFail = false := by decide +kernel
theorem witness_LehrVisitsEndSpareOrCullet_12 :
    let p : PhysId := 122
    let memFails : Nat := 0
    let s : State := pick smpState 28 base
    ∃ v, (s.phy p).visit = some v ∧
      v.finished = true ∧
      s.lifecycle ≠ 5 ∧
      (v.retestFail = true ∨ memFails ≠ 0 ∨ twoWithinDay (s.phy p).mismatchAt = true) := by decide +kernel
theorem witness_LehrVisitsEndSpareOrCullet_13 :
    let p : PhysId := 122
    let s : State := pick smpState 1 base
    let n : Nat := sectorOfPhys p
    ∃ v, (s.phy p).visit = some v ∧
      v.runs = [] ∧
      v.retest = false ∧ v.waits = false ∧
      (s.phy p).cad = .lehr ∧
      s.lifecycle ≠ 5 ∧
      ((s.sector n).st = .up ∨ (s.sector n).st = .degraded) := by decide +kernel
/-- A visit that waits for its tile to cool. -/
theorem witness_LehrVisitsEndSpareOrCullet_14 :
    let s : State := st (some { waits := true }) { thermLevel := 2 }
    ∃ v, (s.phy 122).visit = some v ∧ v.waits = true ∧ v.runs = [] := by decide +kernel
end LehrVisitsEndSpareOrCullet
/-! Hypotheses of `Obligations.Healing` (MigrationsMoveALogicalTile). -/
namespace MigrationsMoveALogicalTile
def ms : State := sx {base with mem := [(spadBase+4,5),(spadBase+0x3FFFFF-0x100000,6),(spadBase+0x400000,3)], tiles := [(0,{misroute := 3})]}
def none' (s : State) : State := [122,123,124,125].foldl (fun s p => s.modPhy p fun x => {x with cad := .cullet}) s
theorem witness_MigrationsMoveALogicalTile_1 :
    let p : PhysId := 0
    let why : Trigger := .eccCe 3
    let s : State := ms
    let n : Nat := sectorOfPhys p
    (s.logicalOf p = none ∨ s.mayMigrate n = false ∨
        ¬ (Threshold s p why ∨ (s.sector n).migrWait.any (·.1 == p.val) = true)) := by
  simp only [Threshold]; decide +kernel
theorem witness_MigrationsMoveALogicalTile_2 :
    let p : PhysId := 0
    let why : Trigger := .eccCe 16
    let s : State := ms
    let n : Nat := sectorOfPhys p
    (∀ tl, Drawn s tl) ∧ ∃ tl, s.logicalOf p = some tl ∧
      s.mayMigrate n = true ∧
      s.gafferUp = true ∧
      Threshold s p why ∧
      (∀ x ∈ s.net.slots, isFor tl x.pkt = false) ∧
      ∃ b, s.takeover n = some b ∧
        b ≠ p.val ∧
        why ≠ .mismatch ∧
        (s.sector n).migrWait = [] := by
  refine ⟨fun _ _ _ => get_all (α := Core) (p := fun x => ∀ i ∈ x.btx, i.executed = true ∨ i.samples = []) (by decide +kernel) (by decide), ?_⟩
  simp only [Threshold]; decide +kernel
theorem witness_MigrationsMoveALogicalTile_3 :
    let p : PhysId := 0
    let why : Trigger := .eccCe 16
    let s : State := ms
    let n : Nat := sectorOfPhys p
    (∀ tl, Drawn s tl) ∧ ∃ tl, s.logicalOf p = some tl ∧
      s.mayMigrate n = true ∧
      s.gafferUp = true ∧
      Threshold s p why ∧
      (∀ x ∈ s.net.slots, isFor tl x.pkt = false) ∧
      ∃ b, s.takeover n = some b ∧
        b ≠ p.val ∧
        ∃ k, s.owner n = some k ∧
          (s.ctx k).st = .running ∧
          sectorOfTile tl = n ∧
          s.fabric.running = [] ∧
          Cells.wf s.mem = true := by
  refine ⟨fun _ _ _ => get_all (α := Core) (p := fun x => ∀ i ∈ x.btx, i.executed = true ∨ i.samples = []) (by decide +kernel) (by decide), ?_⟩
  simp only [Threshold]; decide +kernel
theorem witness_MigrationsMoveALogicalTile_4 :
    let p : PhysId := 0
    let why : Trigger := .eccCe 16
    let s : State := (none' ms : State)
    let n : Nat := sectorOfPhys p
    (∀ tl, Drawn s tl) ∧ ∃ tl, s.logicalOf p = some tl ∧
      s.mayMigrate n = true ∧
      s.gafferUp = true ∧
      Threshold s p why ∧
      (∀ x ∈ s.net.slots, isFor tl x.pkt = false) ∧
      s.takeover n = none ∧
      (s.sector n).migrWait = [] := by
  refine ⟨fun _ _ _ => get_all (α := Core) (p := fun x => ∀ i ∈ x.btx, i.executed = true ∨ i.samples = []) (by decide +kernel) (by decide), ?_⟩
  simp only [Threshold]; decide +kernel
end MigrationsMoveALogicalTile
/-! Hypotheses of `Obligations.Healing` (TraverseStepsVisitTheHottestTile). -/
namespace TraverseStepsVisitTheHottestTile
def ms : State := (sx (base.modCtx 0 fun k => {k with periodUs := 0})).modSector 0 fun x => {x with lastStep := 5}
def vis (s : State) : State := (physOfSector 0).foldl (fun s p => if (s.phy p).cad = .good then s.modPhy p fun x => {x with visited := true} else s) s
def ps := [ms, vis ms, ms.modCtx 0 (fun k => {k with periodUs := 10}), ms.modSector 0 (fun x => {x with paused := true}), ms.modSector 0 (fun x => {x with lastStep := 999999999999}), (vis ms).modPhy 0 (fun x => {x with visited := false}), (vis ms).modPhy 123 (fun x => {x with drift := 9}),(vis ms).modPhy 122 (fun x => {x with marginOnly := true})]
def smpState : List (String × (State)) := ps.map fun s => ("",s)
theorem witness_TraverseStepsVisitTheHottestTile_1 :
    let n : SectorId := 0
    let s : State := pick smpState 3 base
    (s.stepBlocked n = true ∨ s.stepDue n = false) := by decide +kernel
theorem witness_TraverseStepsVisitTheHottestTile_2 :
    let n : SectorId := 0
    let s : State := pick smpState 2 base
    s.stepBlocked n = false ∧
    s.stepDue n = true ∧
    s.swapPermitted n = false := by decide +kernel
theorem witness_TraverseStepsVisitTheHottestTile_3 :
    let n : SectorId := 0
    let s : State := pick smpState 0 base
    (∀ tl, Drawn s tl) ∧ s.stepBlocked n = false ∧
    s.stepDue n = true ∧
    s.swapPermitted n = true ∧
    s.waitingMove n = none ∧
    ∃ r, s.highest ((physOfSector n).filter fun p => (s.phy p).cad == .good && !(s.phy p).visited) = some r ∧
      ∃ i, (s.phy r).index = some i ∧
        i < 32 ∧
        ∃ b, s.takeover n = some b ∧
          b ≠ r ∧
          (∀ x ∈ s.net.slots, isFor (32 * n.val + i) x.pkt = false) :=
  ⟨fun _ _ _ => get_all (α := Core) (p := fun x => ∀ i ∈ x.btx, i.executed = true ∨ i.samples = []) (by decide +kernel) (by decide),
    by decide +kernel⟩
theorem witness_TraverseStepsVisitTheHottestTile_4 :
    let n : SectorId := 0
    let s : State := pick smpState 1 base
    s.stepBlocked n = false ∧
    s.stepDue n = true ∧
    s.swapPermitted n = true ∧
    s.waitingMove n = none ∧
    (∀ p ∈ physOfSector n, (s.phy p).cad = .good → (s.phy p).visited = true) ∧
    ∃ q, s.highest ((physOfSector n).filter fun p => (s.phy p).cad == .spare && !(s.phy p).visited) = some q ∧ True := by decide +kernel
end TraverseStepsVisitTheHottestTile
/-! Hypotheses of `Obligations.Healing` (CrossChecksCompareTheOldestSample). -/
namespace CrossChecksCompareTheOldestSample
def d : XchkSample := {core := 5, producer := 0, tag := 4, b := 1, m := 2, n := 3, temp := 50, elems := List.replicate 256 0}
def ms : State := ((sx base).modPhy 122 fun x => {x with cad := .lehr, checker := true}).modSector 0 fun x => {x with drawn := [d,d]}
theorem witness_CrossChecksCompareTheOldestSample_1 :
    let n : SectorId := 0
    let s : State := sx base
    (s.checkerOf n = none ∨ (s.sector n).drawn = []) := by decide +kernel
theorem witness_CrossChecksCompareTheOldestSample_2 :
    let n : SectorId := 0
    let flips : List (Nat × BitVec 128) := []
    let s : State := ms
    let p : Nat := 122
    s.checkerOf n = some p ∧
    (s.sector n).drawn = [d, d] ∧
    flipElems flips (accumulateBlock { anchor := d.anchor } d.mode (TD.ofBits d.tda) (TD.ofBits d.tdb) d.rows d.cols).elems
      = d.elems := by decide +kernel
theorem witness_CrossChecksCompareTheOldestSample_3 :
    let n : SectorId := 0
    let flips : List (Nat × BitVec 128) := [(3, 4)]
    let s : State := ms
    let p : Nat := 122
    s.checkerOf n = some p ∧
    (s.sector n).drawn = [d, d] ∧
    flipElems flips (accumulateBlock { anchor := d.anchor } d.mode (TD.ofBits d.tda) (TD.ofBits d.tdb) d.rows d.cols).elems
      ≠ d.elems ∧
    d.producer ≠ p := by decide +kernel
end CrossChecksCompareTheOldestSample
/-! Hypotheses of `Obligations.Healing` (HardFailuresAndTheRecord). -/
namespace HardFailuresAndTheRecord
def ms : State := (sx (base.modCtx 0 fun k => {k with placed := true, tileRecs := [0,1]})).modPhy 0 fun x => { x with powered := true }
def np (s : State) (l : List Nat) : State := l.foldl (fun s p => s.modPhy p fun x => {x with cad := .cullet, index := none}) s
theorem witness_HardFailuresAndTheRecord_1 :
    let p : PhysId := 1
    let s : State := ((np ms [122,123,124,125,1]).modSector 0 fun x => {x with st := .degraded} : State)
    s.logicalOf p = none := by decide +kernel
theorem witness_HardFailuresAndTheRecord_2 :
    let p : PhysId := 0
    let s : State := ms
    let n : Nat := sectorOfPhys p
    ∃ tl, s.logicalOf p = some tl ∧
      (s.sector n).st = .up ∧
      (s.sector n).reset = none ∧
      s.plumb.outOfService = false ∧
      32 < s.usableCount n ∧ (s.phy p).powered = true ∧
      ∃ b, s.takeover n = some b ∧
        b ≠ p.val := by decide +kernel
theorem witness_HardFailuresAndTheRecord_3 :
    let p : PhysId := 0
    let s : State := ((np ms [122,123,124,125,1]).modSector 0 fun x => {x with st := .degraded} : State)
    let n : Nat := sectorOfPhys p
    ∃ tl, s.logicalOf p = some tl ∧
      (s.sector n).st = .degraded ∧
      24 < s.usableCount n ∧
      s.takeover n = none ∧
      sectorOfTile tl = n ∧ (s.phy p).powered = true := by decide +kernel
theorem witness_HardFailuresAndTheRecord_4 :
    let s : State := ({ms with plumb := {gaffer := .boot}} : State)
    s.gafferUp = false := by decide +kernel
theorem witness_HardFailuresAndTheRecord_5 :
    let s : State := ms
    s.gafferUp = true ∧ s.flashBusy = false := by decide +kernel
/-- A tile whose compute domain is off; flash work in progress. -/
theorem witness_HardFailuresAndTheRecord_6 :
    let s : State := { ms.modPhy 0 (fun x => { x with powered := false }) with
      delash := { ms.delash with ops := [{ fn := 0, id := 1, opcode := 0xA01, work := .flash 0 [] }] } }
    (s.phy 0).powered = false ∧ s.gafferUp = true ∧ s.flashBusy = true := by decide +kernel
end HardFailuresAndTheRecord
end Sys2Proof.Tests.Healing
end

