-- ==== Sys2Proof/Tests/Links.lean ====
section
/-! SUPPORT. Links: for the obligations about it, states and operands that meet the hypotheses of each clause. -/
open Sys2Proof Sys2Proof.Machine
namespace Sys2Proof.Tests.Links
set_option Elab.async false
def P (st : PortState) (width : Nat) (good : Nat) : Port := { st, width, laneGood := BitVec.ofNat 9 good, active := (List.range width), enabled := true, lastGood := 999999995000, credits := [(0,5),(2,100),(4,1)], peer := 7, peerValid := true, egress := [] }
def fab (ps : List (Nat × Port)) : State := { base with fabric := { ports := ps, node := some 3, routes := [(3, 0x2000), (7, 0x10), (9, 0x11 + 0x200 + 0x40), (11,0x15)] } }
def kW : LinkPacket := { dest := 3, src := 7, cls := 0, kind := 0, fseq := 0, len := 8, job := 77, epoch := 7, addr := BitVec.ofNat 48 (5*2097152), payload := [1,2,3,4,5,6,7,8], xtag := 9, period := 4 }
def sA (s : State) : State := { (s.modCtx 0 fun k => {k with homed := [(5,9)], periodSeq := 4}) with mem := (List.range 40).map fun i => (5*2097152+3*i, BitVec.ofNat 8 (i+1)) }
def st : State := sA (fab [(0,P .up 8 0x1FF),(1,P .up 8 0x1FF)])
/-! Hypotheses of `Obligations.LinkLanesAndState` (LaneFailuresSpareThenNarrow). -/
namespace LaneFailuresSpareThenNarrow
theorem witness_LaneFailuresSpareThenNarrow_1 :
    let p : PortId := 0
    let lane : Fin 9 := 0
    let s : State := (fab [(0,P .up 8 0x1FF),(1,P .up 8 0xFF),(2,P .up 4 0xF)] : State)
    let x : Port := s.port p
    x.st = .up ∧
    x.active.contains lane.val = true ∧
    let good : BitVec 9 := x.laneGood &&& ~~~(oneBit 9 lane)
    x.width = 8 ∧
    x.spareUsed = false ∧
    good.getLsbD 8 = true ∧
    4 ≤ popCount good := by decide +kernel
theorem witness_LaneFailuresSpareThenNarrow_2 :
    let p : PortId := 0
    let lane : Fin 9 := 7
    let s : State := (fab [(0,{P .up 8 0x1FE with spareUsed := true, active := [1,2,3,4,5,6,7,8]}),(1,P .up 4 0x1F),(2,{P .up 4 0xF with heldDown := true})] : State)
    let x : Port := s.port p
    x.st = .up ∧
    x.active.contains lane.val = true ∧
    let good : BitVec 9 := x.laneGood &&& ~~~(oneBit 9 lane)
    (x.width = 4 ∨ x.spareUsed = true ∨ good.getLsbD 8 = false) ∧
    4 ≤ popCount good := by decide +kernel
theorem witness_LaneFailuresSpareThenNarrow_3 :
    let p : PortId := 2
    let lane : Fin 9 := 0
    let s : State := (fab [(0,P .up 8 0x1FF),(1,P .up 8 0xFF),(2,P .up 4 0xF)] : State)
    let x : Port := s.port p
    x.st = .up ∧
    x.active.contains lane.val = true ∧
    let good : BitVec 9 := x.laneGood &&& ~~~(oneBit 9 lane)
    popCount good < 4 ∧
    x.heldDown = false := by decide +kernel
end LaneFailuresSpareThenNarrow
/-! Hypotheses of `Obligations.LinkLanesAndState` (UncorrectableCodewordsRetrain). -/
namespace UncorrectableCodewordsRetrain
def m0 : SynMsg := { kind := 3, group := 5, src := 7, job := 9, epoch := 1, payload := 8 }
def smpState : List (String × (State)) := [("a",fab [(0,P .up 8 0x1FF),(1,{P .up 8 0x1FF with badCodewords := [999999999999,999999999998,999999999997,1], replay := [[1]]}),(2,{P .up 8 0x1FF with badCodewords := [999999999999,999999999998,999999999997,999999000000,5], rxUnits := [some [1]], replay := [[1]]})])]
theorem witness_UncorrectableCodewordsRetrain_1 :
    let p : PortId := 0
    let n : Nat := 0
    let s : State := pick smpState 0 base
    let x : Port := s.port p
    x.st = .up ∧
    n ≤ 15 := by decide +kernel
theorem witness_UncorrectableCodewordsRetrain_2 :
    let p : PortId := 0
    let n : Nat := 16
    let s : State := pick smpState 0 base
    let x : Port := s.port p
    x.st = .up ∧
    15 < n := by decide +kernel
/-- The fifth bad codeword within 1 ms, at port 2; the fourth at port 1. -/
theorem witness_UncorrectableCodewordsRetrain_4 :
    let s : State := pick smpState 0 base
    let recent := fun (p : PortId) => s.deviceTime :: (s.port p).badCodewords.filter fun t =>
      decide (s.deviceTime.toNat ≤ t.toNat + 1000000)
    (s.port 1).st = .up ∧ (s.port 2).st = .up ∧ (recent 1).length = 4 ∧ (recent 2).length = 5 := by decide +kernel
theorem witness_UncorrectableCodewordsRetrain_3 :
    let x : Port := (P .up 8 0x1FF : Port)
    let f : List Byte := ((List.range 256).map (BitVec.ofNat 8) : List Byte)
    let m : SynMsg := m0
    x.rxUnits = [] ∧
    f.length = 256 ∧
    m.kind ≠ 0 := by decide +kernel
end UncorrectableCodewordsRetrain
/-! Hypotheses of `Obligations.FlitsAndEgress` (FlitsAcceptedInOrder). -/
namespace FlitsAcceptedInOrder
def pl : List Byte := lpBytes (sealPacket kW) ++ (lpBytes (sealPacket {kW with dest := 7, len := 512, payload := List.replicate 512 3})).take 50
def x0 : Port := {P .up 8 0x1FF with rxExpect := 5, replay := [(P .up 8 0).flit 3 0 false 0 0 [1], (P .up 8 0).flit 4 0 false 0 0 [2]]}
def fl (seq type : Nat) (nak : Bool) (exp : BitVec 12) (any : Bool) (b : List Byte) : List Byte := ({x0 with rxExpect := exp, rxAny := any}).flit (BitVec.ofNat 12 seq) type nak 2 7 b
set_option maxRecDepth 100000 in
theorem witness_FlitsAcceptedInOrder_1 :
    let p : PortId := 0
    let given : List Byte := ((fl 5 0 false 0 false pl).set 3 7 : List Byte)
    let s : State := (fab [(0,x0),(1,{x0 with rxFlits := [none]})] : State)
    let x : Port := s.port p
    x.st = .up ∧
    let flit : Option (List Byte) := x.nextFlit given
    (∀ b, flit = some b → b.length ≠ 256 ∨ (crc64 (b.take 248)).toNat ≠ field b 248 8) := by decide +kernel
set_option maxRecDepth 100000 in
theorem witness_FlitsAcceptedInOrder_2 :
    let p : PortId := 0
    let given : List Byte := (fl 6 0 false 0 false pl : List Byte)
    let s : State := (fab [(0,x0),(1,{x0 with rxFlits := [none]})] : State)
    let x : Port := s.port p
    x.st = .up ∧
    let flit : Option (List Byte) := x.nextFlit given
    ∃ b, flit = some b ∧
      b.length = 256 ∧
      (crc64 (b.take 248)).toNat = field b 248 8 ∧
      let h : Nat := field b 0 8
      bits h 27 26 = 0 ∧
      bits h 25 25 = 0 ∧
      bits h 24 24 = 0 ∧
      bits h 11 0 ≠ x.rxExpect.toNat := by decide +kernel
set_option maxRecDepth 100000 in
theorem witness_FlitsAcceptedInOrder_3 :
    let p : PortId := 0
    let given : List Byte := (fl 5 0 false 0 false pl : List Byte)
    let s : State := (fab [(0,x0),(1,{x0 with rxFlits := [none]})] : State)
    let x : Port := s.port p
    x.st = .up ∧
    let flit : Option (List Byte) := x.nextFlit given
    ∃ b, flit = some b ∧
      b.length = 256 ∧
      (crc64 (b.take 248)).toNat = field b 248 8 ∧
      let h : Nat := field b 0 8
      bits h 27 26 = 0 ∧
      bits h 25 25 = 0 ∧
      bits h 24 24 = 0 ∧
      bits h 11 0 = x.rxExpect.toNat := by decide +kernel
set_option maxRecDepth 100000 in
theorem witness_FlitsAcceptedInOrder_4 :
    let p : PortId := 0
    let given : List Byte := (fl 0 1 true 11 true [] : List Byte)
    let s : State := (fab [(0,x0),(1,{x0 with rxFlits := [none]})] : State)
    let x : Port := s.port p
    x.st = .up ∧
    let flit : Option (List Byte) := x.nextFlit given
    ∃ b, flit = some b ∧
      b.length = 256 ∧
      (crc64 (b.take 248)).toNat = field b 248 8 ∧
      let h : Nat := field b 0 8
      bits h 27 26 = 1 ∧
      bits h 24 24 = 1 ∧
      (∀ g ∈ x.replay, field g 0 2 % 4096 ≠ bits h 23 12) := by decide +kernel
end FlitsAcceptedInOrder
/-! Hypotheses of `Obligations.LinkLanesAndState` (LinksGoDownAndRetrain). -/
namespace LinksGoDownAndRetrain
def smpState : List (String × (State)) := [("a",fab [(0,{P .up 8 0x1FF with lastGood := 999999990000, egress := [{pkt := kW}]}),(1,{P .up 8 0xFF with lastGood := 999999990001}),(2,{P .training 0 0xF with synQueue := [{kind := 3}], peerValid := false})])]
theorem witness_LinksGoDownAndRetrain_1 :
    let p : PortId := 1
    let s : State := pick smpState 0 base
    let x : Port := s.port p
    x.st = .up ∧
    s.deviceTime.toNat < x.lastGood.toNat + 10000 := by decide +kernel
theorem witness_LinksGoDownAndRetrain_2 :
    let p : PortId := 0
    let s : State := pick smpState 0 base
    let x : Port := s.port p
    x.st = .up ∧
    x.lastGood.toNat + 10000 ≤ s.deviceTime.toNat ∧
    x.heldDown = false := by decide +kernel
theorem witness_LinksGoDownAndRetrain_3 :
    let p : PortId := 2
    let rx : BitVec 9 := 0x1FF
    let tx : BitVec 9 := 0x7
    let s : State := pick smpState 0 base
    (s.port p).st = .training ∧
    let w : Nat := min (widthOf rx) (widthOf tx)
    s.boot.portsTraining.getLsbD p = false ∧
    w = 0 := by decide +kernel
theorem witness_LinksGoDownAndRetrain_4 :
    let p : PortId := 2
    let rx : BitVec 9 := 0x1FF
    let tx : BitVec 9 := 0x1FF
    let s : State := pick smpState 0 base
    (s.port p).st = .training ∧
    let w : Nat := min (widthOf rx) (widthOf tx)
    s.boot.portsTraining.getLsbD p = false ∧
    w ≠ 0 := by decide +kernel
end LinksGoDownAndRetrain
/-! Hypotheses of `Obligations.LinkFlows` (FlowsAcceptEachNumberOnce). -/
namespace FlowsAcceptEachNumberOnce
def fs : List RxFlow := [{cls := 0, src := 3, base := 10, bitmap := 5},{cls := 0, src := 3, base := 65535, bitmap := 0xFFFFFFFFFFFFFFFE},{cls := 0, src := 3, base := 65530, bitmap := 0}]
def hs : List Half := [9,10,11,12,13,73,74,65535,65530,0,5,63,62,64]
def smpRxFlow : List (String × (RxFlow)) := (fs ++ fs.flatMap fun f => hs.map fun h => (f.accept h 5).2).map fun f => ("",f)
theorem witness_FlowsAcceptEachNumberOnce_1 :
    let f : RxFlow := pick smpRxFlow 0 ({cls := 0, src := 0})
    let g : RxFlow := pick smpRxFlow 5 ({cls := 0, src := 0})
    let seq : Half := 11
    let now : DWord := 5
    f.accept seq now = (true, g) := by decide +kernel
/-- Other numbers of the window came in between, and the number itself. -/
theorem witness_FlowsAcceptEachNumberOnce_2 :
    let f : RxFlow := pick smpRxFlow 0 ({cls := 0, src := 0})
    (f.accept 11 5).1 = true ∧ ([(12, 6), (11, 7), (10, 8), (13, 9)] : List (Half × DWord)).length ≤ 65000 := by decide +kernel
end FlowsAcceptEachNumberOnce
/-! Hypotheses of `Obligations.LinkPackets` (LinkPacketsAreHandled). -/
namespace LinkPacketsAreHandled
def ks : List LinkPacket := [kW, {kW with dest := 7}, {kW with dest := 11}, {kW with fseq := 5}, {kW with epoch := 8}, {kW with kind := 4}, {kW with kind := kColData}, {kW with addr := BitVec.ofNat 48 (5*2097152+2044)}]
def smpLinkPacket : List (String × (LinkPacket)) := ((ks.map sealPacket) ++ ks.map stompPacket).map fun k => ("",k)
theorem witness_LinkPacketsAreHandled_1 :
    let k : LinkPacket := pick smpLinkPacket 8 dLink
    k.trailer = ~~~(lpCheck k) := by decide +kernel
theorem witness_LinkPacketsAreHandled_2 :
    let p : PortId := 0
    let k : LinkPacket := pick smpLinkPacket 1 dLink
    let s : State := st
    k.trailer = lpCheck k ∧
    rtLocal (s.route k.dest) = false ∧
    s.isHeld k = false ∧
    (∀ q, q < 16 → sameOpen p k (s.port q).openPkt = false) ∧
    ∃ q, s.portFor k.dest = some q ∧ True := by decide +kernel
theorem witness_LinkPacketsAreHandled_3 :
    let p : PortId := 0
    let k : LinkPacket := pick smpLinkPacket 2 dLink
    let s : State := st
    k.trailer = lpCheck k ∧
    rtLocal (s.route k.dest) = false ∧
    s.isHeld k = false ∧
    (∀ q, q < 16 → sameOpen p k (s.port q).openPkt = false) ∧
    s.portFor k.dest = none := by decide +kernel
theorem witness_LinkPacketsAreHandled_4 :
    let k : LinkPacket := pick smpLinkPacket 6 dLink
    let s : State := st
    k.trailer = lpCheck k ∧
    rtLocal (s.route k.dest) = true ∧
    k.kind = kColData := by decide +kernel
theorem witness_LinkPacketsAreHandled_5 :
    let k : LinkPacket := pick smpLinkPacket 5 dLink
    let s : State := st
    k.trailer = lpCheck k ∧
    rtLocal (s.route k.dest) = true ∧
    k.kind = kTack := by decide +kernel
theorem witness_LinkPacketsAreHandled_6 :
    let k : LinkPacket := pick smpLinkPacket 0 dLink
    let s : State := (st.modFabric fun f => {f with rxFlows := [{cls := 0, src := 7, base := 4, bitmap := 0}]} : State)
    k.trailer = lpCheck k ∧
    rtLocal (s.route k.dest) = true ∧
    k.kind ≠ kTack ∧
    k.kind ≠ kColData ∧
    ((s.rxFlow k).isSome = true ∨ s.flowRoom = true) ∧
    (s.acceptSeq k).1 = false := by decide +kernel
theorem witness_LinkPacketsAreHandled_7 :
    let k : LinkPacket := pick smpLinkPacket 0 dLink
    let s : State := (st.modFabric fun f => {f with held := some {classes := 7, first := 7, entries := [0x2000], since := 5, src := .bmc}} : State)
    k.trailer = lpCheck k ∧
    rtLocal (s.route k.dest) = true ∧
    k.kind ≠ kTack ∧
    k.kind ≠ kColData ∧
    ((s.rxFlow k).isSome = true ∨ s.flowRoom = true) ∧
    (s.acceptSeq k).1 = true ∧
    (s.acceptSeq k).2.canAnswer k = false := by decide +kernel
theorem witness_LinkPacketsAreHandled_8 :
    let k : LinkPacket := pick smpLinkPacket 4 dLink
    let s : State := st
    k.trailer = lpCheck k ∧
    rtLocal (s.route k.dest) = true ∧
    k.kind ≠ kTack ∧
    k.kind ≠ kColData ∧
    ((s.rxFlow k).isSome = true ∨ s.flowRoom = true) ∧
    k.kind = kWrite ∧
    (s.acceptSeq k).1 = true ∧
    (s.acceptSeq k).2.canAnswer k = true ∧
    s.linkCtx k = none := by decide +kernel
theorem witness_LinkPacketsAreHandled_9 :
    let k : LinkPacket := pick smpLinkPacket 0 dLink
    let s : State := st
    k.trailer = lpCheck k ∧
    rtLocal (s.route k.dest) = true ∧
    k.kind ≠ kTack ∧
    k.kind ≠ kColData ∧
    ((s.rxFlow k).isSome = true ∨ s.flowRoom = true) ∧
    k.kind = kWrite ∧
    (s.acceptSeq k).1 = true ∧
    (s.acceptSeq k).2.canAnswer k = true ∧
    ∃ n, s.linkCtx k = some n ∧
      k.status = 0 ∧
      0 < k.len.toNat ∧
      k.len.toNat ≤ 512 ∧
      s.homedTier n k.addr.toNat k.len.toNat = true ∧
      s.homeFenced k.addr.toNat = false ∧
      Cells.wf s.mem = true := by decide +kernel
end LinkPacketsAreHandled
/-! Hypotheses of `Obligations.LinkPackets` (ReadRequestsAreAnswered). -/
namespace ReadRequestsAreAnswered
theorem witness_ReadRequestsAreAnswered_1 :
    let k : LinkPacket := (sealPacket {kW with kind := 1, payload := [], cls := 0, len := 16} : LinkPacket)
    let s : State := st
    k.trailer = lpCheck k ∧
    rtLocal (s.route k.dest) = true ∧
    k.kind = kReadReq ∧
    k.cls = 0 ∧
    ((s.rxFlow k).isSome = true ∨ s.flowRoom = true) ∧
    (s.acceptSeq k).1 = true ∧
    (s.acceptSeq k).2.canAnswer k = true ∧
    ∃ n, s.linkCtx k = some n ∧
      0 < k.len.toNat ∧
      k.len.toNat ≤ 512 ∧
      s.homedTier n k.addr.toNat k.len.toNat = true ∧
      s.homeFenced k.addr.toNat = false ∧
      s.isPoisoned k.addr.toNat k.len.toNat = false := by decide +kernel
end ReadRequestsAreAnswered
/-! Hypotheses of `Obligations.LinkPackets` (RequestsGetTheirResponse). -/
namespace RequestsGetTheirResponse
def rd : LinkPacket := { kW with kind := 1, payload := [], len := 16 }
def fenced : State := { st with poison := [(5*16384+2, 5*16384+3)] }
def down : State := st.modSector 0 fun x => { x with st := .resetting }
/-- A request of a current context whose answer has a place, and the STATUS of that answer. -/
abbrev Asked (s : State) (k : LinkPacket) (want : Nat) : Prop :=
  k.trailer = lpCheck k ∧ rtLocal (s.route k.dest) = true ∧ (k.kind = kWrite ∨ k.kind = kReadReq) ∧ k.cls = 0 ∧
  ((s.rxFlow k).isSome = true ∨ s.flowRoom = true) ∧ (s.acceptSeq k).1 = true ∧
  (s.acceptSeq k).2.canAnswer k = true ∧ s.linkCtx k = some 0 ∧ 0 < k.len.toNat ∧ k.len.toNat ≤ 512 ∧
  want = (if s.homedTier 0 k.addr.toNat k.len.toNat = false then 3
    else if s.homeFenced k.addr.toNat = true then 2
    else if k.kind = kWrite then (if k.status = 0 then 0 else 1)
    else if s.isPoisoned k.addr.toNat k.len.toNat = true then 1 else 0)
theorem witness_RequestsGetTheirResponse_1 :
    ∀ x ∈ [(st, kW, 0), (st, { kW with status := 1 }, 1), (st, { kW with addr := BitVec.ofNat 48 (20*2097152) }, 3),
      (down, kW, 2), (st, rd, 0), (fenced, { rd with addr := BitVec.ofNat 48 (5*2097152+256) }, 1),
      (st, { rd with addr := BitVec.ofNat 48 (20*2097152) }, 3), (down, rd, 2)],
      Asked x.1 (sealPacket x.2.1) x.2.2 := by decide +kernel
end RequestsGetTheirResponse
/-! Hypotheses of `Obligations.GroupBarriersAndTransfers` (TransferResponsesLand). -/
namespace TransferResponsesLand
def d0 : Desc := { dsc 9 4 [(0x10, 8, 5*2097152+256), (0x18, 8, 5*2097152)] with dispatched := true }
def r0 (left : Nat) : Collective := { f := 0, slot := 0, desc := 9, group := 2, seq := 1, op := 6, digest := 0, left, issued := [(5*2097152, 8), (5*2097152+8, 8)] }
def k0 (kind : BitVec 4) : LinkPacket := sealPacket { kW with kind, cls := 1 }
def s0 (left : Nat) : State := { st.modFabric fun f => { f with running := [r0 left], col := [(2, some { ctx := 0, tree := false, synGroup := 1, rank := 0, ranks := [3, 7] })] } with queues := [(0, hq 0 [d0])] }
theorem witness_TransferResponsesLand_1 :
    let n : Nat := 0
    let dst : Nat := 5*2097152+256
    ∀ left ∈ [1, 2], ∀ kind ∈ [kReadRsp, kWriteAck],
      let s : State := s0 left
      let k : LinkPacket := k0 (BitVec.ofNat 4 kind.toNat)
      k.trailer = lpCheck k ∧ rtLocal (s.route k.dest) = true ∧ k.cls = 1 ∧ (k.kind = kReadRsp ∨ k.kind = kWriteAck) ∧
      k.status = 0 ∧ ((s.rxFlow k).isSome = true ∨ s.flowRoom = true) ∧ (s.acceptSeq k).1 = true ∧
      s.linkCtx k = some n ∧ 0 < k.len.toNat ∧ k.len.toNat ≤ 512 ∧ Cells.wf s.mem = true ∧
      (s.fabric.running.find? fun r => r.desc % 65536 == k.xtag.toNat && (s.queue r.f r.slot).ctx == n
        && r.left != 0) = some (r0 left) ∧ s.desc 0 0 9 = some d0 ∧ (Tab.get none s.fabric.col 2).isSome = true ∧
      ((r0 left).issued.find? fun q => q.1 % 2 ^ 48 == k.addr.toNat) = some (5*2097152, 8) ∧
      dst = field d0.bytes 0x10 8 + (5*2097152 - field d0.bytes 0x18 8) ∧
      s.homedTier n dst k.len.toNat = true ∧ s.homeFenced dst = false := by decide +kernel
end TransferResponsesLand
/-! Hypotheses of `Obligations.FlitsAndEgress` (EgressSendsOldestPacket). -/
namespace EgressSendsOldestPacket
def e1 : Egress := {pkt := {kW with dest := 7, len := 512, payload := List.replicate 512 9}}
def e2 : Egress := {pkt := {kW with dest := 9}}
def e3 : Egress := {pkt := {kW with dest := 9}, owner := some (0, 2)}
def e4 : Egress := {pkt := {kW with dest := 9}, owner := some (0, 3)}
/-- UP: the first packet lacks credit, the second draws on another buffer. -/
def up (eg : List Egress) (tail : List Byte := []) : State :=
  fab [(1, { P .up 8 0x1FF with egress := eg, txTail := tail, credits := [(0, 5), (2, 100), (3, 100)] })]
def leaves (s : State) (e : Egress) : LinkPacket := sealPacket { e.pkt with level := levelAfter (s.route e.pkt.dest) 1 e.pkt.level }
def can (s : State) (e : Egress) : Bool := s.hasCredit 1 e (leaves s e) && (s.port 1).replayRoom (leaves s e)
def key (s : State) (e : Egress) : Nat × Option (Fin 32) := (bufferOf (leaves s e) (some 7), e.col.map (·.group))
theorem witness_EgressSendsOldestPacket_1 :
    let s : State := fab [(1, { P .training 8 0x1FF with egress := [e3, e2] })]
    (s.port 1).st ≠ .up ∧ s.staleEgress e3 = true ∧ s.staleEgress e2 = false := by decide +kernel
/-- Nothing can go: the second packet waits behind the first, which lacks credit; an open packet holds the port. -/
theorem witness_EgressSendsOldestPacket_2 :
    let s : State := up [e1, e3, e1]
    ((s.port 1).st = .up ∧ (s.port 1).txTail = [] ∧
      (s.port 1).egress.filter (fun e => !s.staleEgress e) = [e1, e1]) ∧
    ∀ a g b, [e1, e1] = a ++ g :: b → can s g = false ∨ ∃ h ∈ a, key s h = key s g :=
  ⟨by decide +kernel, splits (P := fun a g => can (up [e1, e3, e1]) g = false ∨ ∃ h ∈ a, key (up [e1, e3, e1]) h = key (up [e1, e3, e1]) g)
    (by decide +kernel)⟩
theorem witness_EgressSendsOldestPacket_3 :
    let s : State := up [e1] [1, 2]
    ((s.port 1).st = .up ∧ (s.port 1).openPkt = none ∧ (s.port 1).txTail ≠ [] ∧ (s.port 1).replay.length < 3200 ∧
      (s.port 1).egress.filter (fun e => !s.staleEgress e) = [e1]) ∧
    ∀ a g b, [e1] = a ++ g :: b → can s g = false ∨ ∃ h ∈ a, key s h = key s g :=
  ⟨by decide +kernel, splits (P := fun a g => can (up [e1] [1, 2]) g = false ∨ ∃ h ∈ a, key (up [e1] [1, 2]) h = key (up [e1] [1, 2]) g)
    (by decide +kernel)⟩
theorem witness_EgressSendsOldestPacket_4 :
    let s : State := up [e1, e2, e1] [1, 2]
    ((s.port 1).st = .up ∧ (s.port 1).openPkt = none ∧
      (s.port 1).egress.filter (fun e => !s.staleEgress e) = [e1] ++ e2 :: [e1] ∧ can s e2 = true ∧
      ∀ g ∈ [e1], key s g ≠ key s e2) ∧
    ∀ a g b, [e1] = a ++ g :: b → can s g = false ∨ ∃ h ∈ a, key s h = key s g :=
  ⟨by decide +kernel, splits (P := fun a g => can (up [e1, e2, e1] [1, 2]) g = false ∨
    ∃ h ∈ a, key (up [e1, e2, e1] [1, 2]) h = key (up [e1, e2, e1] [1, 2]) g) (by decide +kernel)⟩
/-- The header begins with zero bytes, which would stand in the flit's rest. -/
theorem witness_EgressSendsOldestPacket_5 :
    let e : Egress := { pkt := { kW with dest := 256 } }
    let s : State := (up [e] (List.replicate 239 1)).modFabric fun f => { f with routes := [(256, 0x11)] }
    (s.port 1).openPkt = none ∧ (s.port 1).egress.filter (fun e => !s.staleEgress e) = [e] ∧ can s e = true ∧
    ((lpBytes (leaves s e)).take (240 - 239)).all (· == 0) = true := by decide +kernel
end EgressSendsOldestPacket
/-! Hypotheses of `Obligations.LinkFlows` (FlowsTrackAndTearDown). -/
namespace FlowsTrackAndTearDown
def f1 : Flow := {cls := 0, dest := 9, nextSeq := 8, lastTack := 999936000000, ctx := some 0, kept := [{pkt := {kW with dest := 9, fseq := 5}, sentAt := 999999980000, interval := 20},{pkt := {kW with dest := 9, fseq := 6}, sentAt := 999999990001, interval := 20},{pkt := {kW with dest := 9, fseq := 7}, sentAt := 5, interval := 1280}]}
def f2 : Flow := {cls := 1, dest := 9, lastUse := 999000000000}
def f3 : Flow := {cls := 2, dest := 9, lastUse := 999000000001, kept := [], lastTack := 0}
def st : State := (fab [(0,{P .up 8 0x1FF with egress := [{pkt := {kW with dest := 9}},{pkt := {kW with dest := 9, src := 3}}]}),(1,{P .up 8 0x1FF with egress := [{pkt := {kW with dest := 9}},{pkt := {kW with dest := 9, src := 3}}]})]).modFabric fun f => {f with flows := [f1,f2,f3], rxFlows := [{cls := 0, src := 9, base := 4, bitmap := 6, tackDue := some 3},{cls := 1, src := 9}]}
theorem witness_FlowsTrackAndTearDown_1 :
    let cls : BitVec 2 := 0
    let node : BitVec 14 := 9
    let s : State := st
    ∃ f, s.flow cls node = some f ∧
      ∃ q, s.portFor node = some q ∧
        rtLocal (s.route node) = false ∧
        (∀ k ∈ f.kept, s.isHeld k.pkt = false) ∧
        (∀ k ∈ f.kept, k.pkt.dest = node) := by decide +kernel
theorem witness_FlowsTrackAndTearDown_2 :
    let cls : BitVec 2 := 0
    let node : BitVec 14 := 9
    let s : State := st
    ∃ f, s.flow cls node = some f ∧
      f.kept ≠ [] ∧
      f.lastTack.toNat + 64000000 ≤ s.deviceTime.toNat ∧
      s.fabric.waiting = [] := by decide +kernel
theorem witness_FlowsTrackAndTearDown_3 :
    let cls : BitVec 2 := 1
    let node : BitVec 14 := 9
    let s : State := st
    ∃ f, s.flow cls node = some f ∧
      (f.kept = [] ∨ s.deviceTime.toNat < f.lastTack.toNat + 64000000) := by decide +kernel
theorem witness_FlowsTrackAndTearDown_4 :
    let cls : BitVec 2 := 0
    let node : BitVec 14 := 3
    let s : State := st
    s.flow cls node = none := by decide +kernel
theorem witness_FlowsTrackAndTearDown_5 :
    let cls : BitVec 2 := 1
    let node : BitVec 14 := 9
    let s : State := st
    ∃ f, s.fabric.rxFlows.find? (RxFlow.is cls node) = some f ∧
      f.tackDue = none := by decide +kernel
theorem witness_FlowsTrackAndTearDown_6 :
    let cls : BitVec 2 := 0
    let node : BitVec 14 := 9
    let s : State := st
    ∃ f, s.fabric.rxFlows.find? (RxFlow.is cls node) = some f ∧
      let since := (f.tackDue).getD 0
      f.tackDue = some since ∧
      s.fabric.held = none ∧
      ∃ q, s.portFor node = some q ∧
        rtLocal (s.route node) = false := by decide +kernel
end FlowsTrackAndTearDown
/-! Hypotheses of `Obligations.RouteUpdates` (RouteHoldsCompleteOrExpire). -/
namespace RouteHoldsCompleteOrExpire
def rr := mkReq 0x0602 (bs [(1,0),(1,1),(2,2),(2,7),(2,0),(4,0x2000),(4,0x12)])
def h0 : HeldRoute := {classes := 1, first := 7, entries := [0x2000,0x12], since := 999990000000, src := .mailbox 0, req := rr}
def st (h : HeldRoute) (x : Port := P .up 8 0x1FF) : State := let s := (fab [(0,x),(1,P .up 8 0x1FF)]).modFabric fun f => {f with held := some h}; s.modMailbox 0 fun m => {m with buf := some rr, state := 1}
theorem witness_RouteHoldsCompleteOrExpire_1 :
    let s : State := st h0
    ∃ h, s.fabric.held = some h ∧
      s.fabric.waiting = [] ∧
      s.delash.order = [] ∧
      s.request h.src = some h.req ∧
      h.done = false ∧
      s.oldRouted = false ∧
      h.both = false := by decide +kernel
theorem witness_RouteHoldsCompleteOrExpire_2 :
    let s : State := (st {h0 with both := true} : State)
    ∃ h, s.fabric.held = some h ∧
      s.fabric.waiting = [] ∧
      s.delash.order = [] ∧
      s.request h.src = some h.req ∧
      h.done = false ∧
      s.oldRouted = false ∧
      h.both = true := by decide +kernel
theorem witness_RouteHoldsCompleteOrExpire_3 :
    let s : State := (st {h0 with done := true, since := 999000000000} : State)
    ∃ h, s.fabric.held = some h ∧
      s.fabric.waiting = [] ∧
      s.delash.order = [] ∧
      s.request h.src = some h.req ∧
      (h.done = true ∨ s.oldRouted = true) := by decide +kernel
theorem witness_RouteHoldsCompleteOrExpire_4 :
    let s : State := st h0
    ∃ h, s.fabric.held = some h ∧
      s.fabric.waiting = [] ∧
      s.delash.order = [] ∧
      s.request h.src = some h.req ∧
      h.done = false ∧
      h.since.toNat + 10000000 ≤ s.deviceTime.toNat := by decide +kernel
theorem witness_RouteHoldsCompleteOrExpire_5 :
    let s : State := (st {h0 with done := true, since := 999000000000} : State)
    ∃ h, s.fabric.held = some h ∧
      s.fabric.waiting = [] ∧
      s.delash.order = [] ∧
      s.request h.src = some h.req ∧
      h.done = true ∧
      h.since.toNat + 1000000000 ≤ s.deviceTime.toNat := by decide +kernel
end RouteHoldsCompleteOrExpire
end Sys2Proof.Tests.Links
end

