-- ==== Sys2Proof/Tests/Mailbox.lean ====
section
/-! SUPPORT. Mailbox: for the obligations about it, states and operands that meet the hypotheses of each clause. -/
open Sys2Proof Sys2Proof.Machine
namespace Sys2Proof.Tests.Mailbox
set_option Elab.async false
def down (s : State) : State := {s with plumb := {s.plumb with gaffer := .boot}}
def RB (rs : List (List Byte)) (s : State) : List (String × State) := rs.flatMap fun r => [("m0",withReq (.mailbox 0) r s),("m1",withReq (.mailbox 1) r s),("bmc",withReq .bmc r s)]
/-! Hypotheses of `Obligations.DelashRequests` (RequestsAreTakenAndChecked). -/
namespace RequestsAreTakenAndChecked
def wr (r : List Byte) (s : State) : State := s.modMailbox 0 fun m => {m with req := r}
def reqs := [mkReq 0x0101 [], mkReq 0x0101 [] 1, mkReq 0x0202 [5], mkReq 0x9999 []]
def svd (r : List Byte) : Saved := ⟨BitVec.ofNat 16 (rqOpcode r), rqSeq r, rqCheck r,[1,2,3]⟩
def smpState : List (String × (State)) := reqs.flatMap (fun r => [("u",wr r base),("d",wr r (down base)),("p",(wr r base).modMailbox 0 fun m => {m with state := 1}),("s",{(wr r base) with delash := {(wr r base).delash with saved := [(0,svd r)]}})])
def smpListByte : List (String × (List Byte)) := ([[]] ++ reqs).map fun r => ("",r)
theorem witness_RequestsAreTakenAndChecked_1 :
    let v : Word := 0
    v.getLsbD 0 = false := by decide +kernel
theorem witness_RequestsAreTakenAndChecked_2 :
    let f : FnId := 0
    let v : Word := 1
    let s : State := pick smpState 2 base
    v.getLsbD 0 = true ∧
    (s.mailbox f).state = 1 := by decide +kernel
theorem witness_RequestsAreTakenAndChecked_3 :
    let f : FnId := 0
    let v : Word := 1
    let s : State := pick smpState 1 base
    v.getLsbD 0 = true ∧
    (s.mailbox f).state ≠ 1 ∧
    s.gafferUp = false := by decide +kernel
theorem witness_RequestsAreTakenAndChecked_4 :
    let f : FnId := 0
    let v : Word := 1
    let s : State := pick smpState 0 base
    let req : List Byte := fit 256 (s.mailbox f).req
    v.getLsbD 0 = true ∧
    (s.mailbox f).state ≠ 1 ∧
    s.gafferUp = true ∧
    s.delash.order = [] ∧
    s.reissue (.mailbox f) req = none ∧
    s.checkRequest (.mailbox f) req = none := by decide +kernel
theorem witness_RequestsAreTakenAndChecked_5 :
    let bytes : List Byte := pick smpListByte 0 ([])
    let s : State := pick smpState 0 base
    s.gafferUp = true ∧
    s.delash.bmcBuf = none ∧
    s.delash.order = [] ∧
    ∃ e, s.checkRequest .bmc (fit 256 bytes) = some e ∧ True := by decide +kernel
theorem witness_RequestsAreTakenAndChecked_6 :
    let bytes : List Byte := pick smpListByte 1 ([])
    let s : State := pick smpState 0 base
    s.gafferUp = true ∧
    s.delash.bmcBuf = none ∧
    s.delash.order = [] ∧
    s.checkRequest .bmc (fit 256 bytes) = none := by decide +kernel
end RequestsAreTakenAndChecked
/-! Hypotheses of `Obligations.DelashRequests` (RequestChecksComeInOrder). -/
namespace RequestChecksComeInOrder
def good := mkReq 0x0103 [1]
def reqs := [good, patch good 8 (leBytes 2 241), patch good 2 (leBytes 2 1), patch good 4 (leBytes 2 1), patch good 12 (leBytes 2 1), patch good 10 [1], mkReq 0x0103 [1,2], mkReq 0x0999 [], mkReq 0x0801 [], mkReq 0x0704 [0,0], mkReq 0x0204 (bs [(4,0),(4,5),(8,0)])]
def smpListByte : List (String × (List Byte)) := ([[]] ++ reqs).map fun r => ("",r)
theorem witness_RequestChecksComeInOrder_1 :
    let s : State := down base
    s.gafferUp = false := by decide +kernel
theorem witness_RequestChecksComeInOrder_2 :
    let s : State := base
    let r : List Byte := pick smpListByte 2 ([])
    s.gafferUp = true ∧
    s.plumb.gaffer = .running ∧
    s.plumb.outOfService = false ∧
    240 < rqLen r := by decide +kernel
theorem witness_RequestChecksComeInOrder_3 :
    let s : State := base
    let r : List Byte := pick smpListByte 5 ([])
    s.gafferUp = true ∧
    s.plumb.gaffer = .running ∧
    s.plumb.outOfService = false ∧
    rqLen r ≤ 240 ∧
    rqFlags r &&& 0xFFFD = 0 ∧
    zeroBytes r 10 2 = true ∧
    crc32c ((r.drop 16).take (rqLen r)) ≠ rqCheck r := by decide +kernel
theorem witness_RequestChecksComeInOrder_4 :
    let s : State := base
    let src : Src := .bmc
    let r : List Byte := pick smpListByte 0 ([])
    s.gafferUp = true ∧
    s.plumb.gaffer = .running ∧
    s.plumb.outOfService = false ∧
    rqLen r ≤ 240 ∧
    rqFlags r &&& 0xFFFD = 0 ∧
    zeroBytes r 10 2 = true ∧
    crc32c ((r.drop 16).take (rqLen r)) = rqCheck r ∧
    permitted src r = false := by decide +kernel
theorem witness_RequestChecksComeInOrder_5 :
    let s : State := base
    let src : Src := .mailbox 0
    let r : List Byte := pick smpListByte 10 ([])
    s.gafferUp = true ∧
    s.plumb.gaffer = .running ∧
    s.plumb.outOfService = false ∧
    rqLen r ≤ 240 ∧
    rqFlags r &&& 0xFFFD = 0 ∧
    zeroBytes r 10 2 = true ∧
    crc32c ((r.drop 16).take (rqLen r)) = rqCheck r ∧
    permitted src r = true ∧
    lifecycleOk s.lifecycle.toNat r = false := by decide +kernel
theorem witness_RequestChecksComeInOrder_6 :
    let s : State := base
    let src : Src := .mailbox 0
    let r : List Byte := pick smpListByte 11 ([])
    s.gafferUp = true ∧
    s.plumb.gaffer = .running ∧
    s.plumb.outOfService = false ∧
    rqLen r ≤ 240 ∧
    rqFlags r &&& 0xFFFD = 0 ∧
    zeroBytes r 10 2 = true ∧
    crc32c ((r.drop 16).take (rqLen r)) = rqCheck r ∧
    permitted src r = true ∧
    lifecycleOk s.lifecycle.toNat r = true ∧
    licenceOk s.boot.licence r = false := by decide +kernel
theorem witness_RequestChecksComeInOrder_7 :
    let s : State := base
    let src : Src := .bmc
    let r : List Byte := pick smpListByte 7 ([])
    s.gafferUp = true ∧
    s.plumb.gaffer = .running ∧
    s.plumb.outOfService = false ∧
    rqLen r ≤ 240 ∧
    rqFlags r &&& 0xFFFD = 0 ∧
    zeroBytes r 10 2 = true ∧
    crc32c ((r.drop 16).take (rqLen r)) = rqCheck r ∧
    permitted src r = true ∧
    lifecycleOk s.lifecycle.toNat r = true ∧
    licenceOk s.boot.licence r = true ∧
    rqPoll r = false ∧
    rqLen r ≠ payloadSize r := by decide +kernel
end RequestChecksComeInOrder
/-! Hypotheses of `Obligations.DelashRequests` (LongOperationsArePolled). -/
namespace LongOperationsArePolled
def RQ (rs : List (List Byte)) (s : State) : List (String × State) := rs.flatMap fun r => [("m0",withReq (.mailbox 0) r s)]
def o (id : Nat) (op : Nat) (w : Work) (f : Option (Byte × List Byte) := none) (fn : Nat := 0) : LongOp := {fn, id := BitVec.ofNat 16 id, opcode := BitVec.ofNat 16 op, work := w, final := f}
def os := [o 1 0x0202 (.teardown 0 3), o 2 0x0202 (.teardown 5 3), o 3 0x0603 (.linkRetrain 2), o 4 0x0603 (.sectorReset 2), o 5 0x0302 (.qDestroy 0 1), o 8 0x0302 (.qDestroy 0 2), o 9 0x0901 (.timed 0 [4]), o 6 0x0202 (.teardown 0 3) (some (0,[])), o 7 0x603 (.linkRetrain 2) (some (0,[1,0])), o 1 0x0202 (.teardown 0 3) none 1]
def st : State := {base.modCtx 0 (fun k => {k with st := .teardown}) with delash := {base.delash with ops := os}, queues := [(1,{hq 0 [] with descs := []}),(2,{hq 0 [dsc 3 1 []] with present := true})]}
def rqs := (os.map fun x => mkReq x.opcode.toNat (leBytes 2 x.id.toNat) 2)
def smpListByte : List (String × (List Byte)) := (rqs ++ [[4]]).map fun r => ("",r)
def smpState : List (String × (State)) := RQ rqs st ++ [("",st),("d",down st)]
theorem witness_LongOperationsArePolled_1 :
    let src : Src := .mailbox 0
    let req : List Byte := pick smpListByte 0 ([])
    let s : State := pick smpState 0 base
    s.delash.order = [src] ∧
    s.request src = some req ∧
    rqPoll req = true ∧
    s.gafferUp = true ∧
    s.checkRequest src req = none ∧
    ∃ op, s.pollOp src req = some op ∧
      op.final = none := by decide +kernel
theorem witness_LongOperationsArePolled_2 :
    let src : Src := .mailbox 0
    let req : List Byte := pick smpListByte 7 ([])
    let s : State := pick smpState 7 base
    s.delash.order = [src] ∧
    s.request src = some req ∧
    rqPoll req = true ∧
    s.gafferUp = true ∧
    s.checkRequest src req = none ∧
    ∃ op, s.pollOp src req = some op ∧
      ∃ x, op.final = some x ∧ True := by decide +kernel
theorem witness_LongOperationsArePolled_3 :
    let f : FnId := 0
    let id : Nat := 6
    let s : State := pick smpState 0 base
    ∃ op, s.delash.ops.find? (fun o => o.fn == f.val && o.id.toNat == id) = some op ∧
      op.final.isSome = true := by decide +kernel
theorem witness_LongOperationsArePolled_4 :
    let f : FnId := 0
    let id : Nat := 1
    let s : State := pick smpState 0 base
    ∃ op, s.delash.ops.find? (fun o => o.fn == f.val && o.id.toNat == id) = some op ∧
      op.final = none ∧
      let k : Nat := 0
      let g : Nat := 3
      op.work = .teardown k g ∧
      (s.ctx k).st = .teardown ∧
      (s.ctx k).gen.toNat = g := by decide +kernel
theorem witness_LongOperationsArePolled_5 :
    let f : FnId := 0
    let id : Nat := 2
    let s : State := pick smpState 0 base
    ∃ op, s.delash.ops.find? (fun o => o.fn == f.val && o.id.toNat == id) = some op ∧
      op.final = none ∧
      let k : Nat := 5
      let g : Nat := 3
      op.work = .teardown k g ∧
      (s.ctx k).st ≠ .teardown := by decide +kernel
theorem witness_LongOperationsArePolled_6 :
    let f : FnId := 0
    let id : Nat := 4
    let s : State := pick smpState 0 base
    ∃ op, s.delash.ops.find? (fun o => o.fn == f.val && o.id.toNat == id) = some op ∧
      op.final = none ∧
      let m : BitVec 16 := 2
      op.work = .sectorReset m ∧
      (∀ n ∈ setBits m, (s.sector n).reset = none) := by decide +kernel
theorem witness_LongOperationsArePolled_7 :
    let f : FnId := 0
    let id : Nat := 3
    let s : State := pick smpState 0 base
    ∃ op, s.delash.ops.find? (fun o => o.fn == f.val && o.id.toNat == id) = some op ∧
      op.final = none ∧
      let m : BitVec 16 := 2
      op.work = .linkRetrain m ∧
      (∀ p ∈ setBits m, (s.port p).st = .down) := by decide +kernel
theorem witness_LongOperationsArePolled_8 :
    let f : FnId := 0
    let id : Nat := 9
    let s : State := pick smpState 0 base
    ∃ op, s.delash.ops.find? (fun o => o.fn == f.val && o.id.toNat == id) = some op ∧
      op.final = none ∧
      let x : List Byte := [4]
      op.work = .timed 0 [4] := by decide +kernel
theorem witness_LongOperationsArePolled_9 :
    let f : FnId := 0
    let id : Nat := 8
    let s : State := pick smpState 0 base
    ∃ op, s.delash.ops.find? (fun o => o.fn == f.val && o.id.toNat == id) = some op ∧
      op.final = none ∧
      let g : Nat := 0
      let j : Nat := 2
      op.work = .qDestroy g j ∧
      (s.queue g j).descs ≠ [] := by decide +kernel
theorem witness_LongOperationsArePolled_10 :
    let f : FnId := 0
    let id : Nat := 5
    let s : State := pick smpState 0 base
    ∃ op, s.delash.ops.find? (fun o => o.fn == f.val && o.id.toNat == id) = some op ∧
      op.final = none ∧
      let g : Nat := 0
      let j : Nat := 1
      op.work = .qDestroy g j ∧
      (s.queue g j).descs = [] := by decide +kernel
theorem witness_LongOperationsArePolled_11 :
    let s : State := pick smpState 11 base
    s.gafferUp = false := by decide +kernel
/-- Flash work, one behind another; an activation with none before it and with the Gaffer down; a test run. -/
def fl : State := { base with delash := { base.delash with ops := [o 1 0xA01 (.flash 0 [7]), o 2 0xA01 (.flash 0 [8])] } }
def ac (before : Bool) : State := { base with
  delash := { base.delash with ops := (if before then [o 1 0xA01 (.flash 0 [7])] else []) ++ [o 3 0xA02 .activate] }
  flash := { base.flash with session := some { length := 4, activating := true } } }
def bi (level : Nat) : State := { base.modPhy 3 fun x => { x with cad := .lehr, visit := none, thermLevel := level } with
  delash := { base.delash with ops := [o 4 0x801 (.bist 3 1 true true [5])] } }
theorem witness_LongOperationsArePolled_12 :
    (∀ x ∈ [(fl, 1, false), (fl, 2, true), (ac false, 3, false), (ac true, 3, true), (bi 1, 4, false), (bi 2, 4, false)],
      ∃ op ∈ x.1.delash.ops, x.1.delash.ops.find? (fun o => o.fn == (0 : FnId).val && o.id.toNat == x.2.1) = some op ∧
        op.final = none ∧ x.1.flashBefore op = x.2.2 ∧ x.1.gafferUp = true) ∧
    (fl.delash.ops.map (·.work)) = [.flash 0 [7], .flash 0 [8]] ∧
    ((ac false).delash.ops.map (·.work)) = [.activate] ∧ ((ac false).flash.session.map (·.activating)) = some true ∧
    ((bi 1).delash.ops.map (·.work)) = [.bist 3 1 true true [5]] ∧ ((bi 1).phy 3).thermLevel = 1 ∧
    ((bi 2).phy 3).thermLevel = 2 ∧ ((bi 1).phy 3).cad = .lehr ∧ ((bi 1).phy 3).visit = none := by decide +kernel
end LongOperationsArePolled
/-! Hypotheses of `Obligations.AlertsAndSmbus` (AlertsClearAndEnable). -/
namespace AlertsClearAndEnable
theorem witness_AlertsClearAndEnable_1 :
    let g : Agent := .host 0
    (g = .host 0 ∨ g = .bmc) := by decide +kernel
theorem witness_AlertsClearAndEnable_2 :
    let g : Agent := .core at0
    g ≠ .host 0 ∧
    g ≠ .bmc := by decide +kernel
end AlertsClearAndEnable
/-! Hypotheses of `Obligations.AlertsAndSmbus` (SmbusReadsAndWritesPlumb). -/
namespace SmbusReadsAndWritesPlumb
theorem witness_SmbusReadsAndWritesPlumb_1 :
    let code : Byte := 0x8a
    let s : State := base
    s.boot.auxOn = true ∧
    0x80 ≤ code.toNat := by decide +kernel
theorem witness_SmbusReadsAndWritesPlumb_2 :
    let code : Byte := 4
    let s : State := base
    s.boot.auxOn = true ∧
    code.toNat < 0x80 ∧
    code.toNat ≠ 0x0A := by decide +kernel
theorem witness_SmbusReadsAndWritesPlumb_3 :
    let code : Byte := 4
    let count : Byte := 4
    let b0 : Byte := 4
    let b1 : Byte := 4
    let b2 : Byte := 4
    let b3 : Byte := 4
    let pec : Option Byte := none
    let ev : BitVec 7 := 0
    let s : State := base
    let good : Bool := true
    s.boot.auxOn = true ∧
    (good = (pec = none ∨ pec = some (crc8 [s.boot.parison.smbusAddr <<< 1, code, count, b0, b1, b2, b3]) : Bool)) ∧
    ((code ≠ 7 ∧ code ≠ 8) ∨ count ≠ 4 ∨ good = false) ∧
    ev = 0 := by decide +kernel
theorem witness_SmbusReadsAndWritesPlumb_4 :
    let code : Byte := 7
    let count : Byte := 4
    let b0 : Byte := 4
    let b1 : Byte := 4
    let b2 : Byte := 4
    let b3 : Byte := 4
    let pec : Option Byte := none
    let ev : BitVec 7 := 0
    let s : State := base
    let good : Bool := true
    s.boot.auxOn = true ∧
    (good = (pec = none ∨ pec = some (crc8 [s.boot.parison.smbusAddr <<< 1, code, count, b0, b1, b2, b3]) : Bool)) ∧
    code = 7 ∧
    count = 4 ∧
    good = true ∧
    ev = 0 := by decide +kernel
theorem witness_SmbusReadsAndWritesPlumb_5 :
    let code : Byte := 8
    let count : Byte := 4
    let b0 : Byte := 4
    let b1 : Byte := 4
    let b2 : Byte := 4
    let b3 : Byte := 4
    let pec : Option Byte := none
    let s : State := base
    let good : Bool := true
    s.boot.auxOn = true ∧
    (good = (pec = none ∨ pec = some (crc8 [s.boot.parison.smbusAddr <<< 1, code, count, b0, b1, b2, b3]) : Bool)) ∧
    code = 8 ∧
    count = 4 ∧
    good = true := by decide +kernel
end SmbusReadsAndWritesPlumb
/-! Hypotheses of `Obligations.HostWindows` (ApertureAccessesAsItsContext). -/
namespace ApertureAccessesAsItsContext
def ap (x : Aperture) : State := {base.modCtx 0 (fun k => {k with homed := [(0,1)]}) with delash := {base.delash with apt := [(0,x)]}, mem := [(0x1000,4),(0x1001,5)], poison := [(0x2000/128,0x2000/128+1)]}
theorem witness_ApertureAccessesAsItsContext_1 :
    let v : Word := 0
    v.getLsbD 4 = false := by decide +kernel
theorem witness_ApertureAccessesAsItsContext_2 :
    let f : FnId := 0
    let v : Word := 0x10
    let s : State := (ap {} : State)
    let k : Nat := v.toNat % 16
    v.getLsbD 4 = true ∧
    (s.ctx k).st ≠ .free ∧
    (s.ctx k).st ≠ .teardown ∧
    (f = 0 ∨ (s.ctx k).fn = f.val) := by decide +kernel
theorem witness_ApertureAccessesAsItsContext_3 :
    let f : FnId := 0
    let v : Word := 0x12
    let s : State := (ap {} : State)
    let k : Nat := v.toNat % 16
    v.getLsbD 4 = true ∧
    ((s.ctx k).st = .free ∨ (s.ctx k).st = .teardown ∨ (f ≠ 0 ∧ (s.ctx k).fn ≠ f.val)) := by decide +kernel
theorem witness_ApertureAccessesAsItsContext_4 :
    let f : FnId := 0
    let s : State := (ap {} : State)
    let x : Aperture := s.aperture f
    x.valid = false := by decide +kernel
theorem witness_ApertureAccessesAsItsContext_5 :
    let f : FnId := 0
    let off : Nat := 0
    let len : Nat := 4
    let s : State := (ap {valid:= true, base := 0x1FFFFE} : State)
    let x : Aperture := s.aperture f
    let a : Nat := x.base + off
    x.valid = true ∧
    a + len ≤ tier1Size ∧
    0 < len ∧
    s.homeFenced a = false ∧
    s.allHomed x.ctx a len = false := by decide +kernel
theorem witness_ApertureAccessesAsItsContext_6 :
    let f : FnId := 0
    let off : Nat := 0
    let len : Nat := 4
    let s : State := (ap {valid:= true, base := 0x1FFE} : State)
    let x : Aperture := s.aperture f
    let a : Nat := x.base + off
    x.valid = true ∧
    a + len ≤ tier1Size ∧
    0 < len ∧
    s.homeFenced a = false ∧
    s.allHomed x.ctx a len = true ∧
    s.isPoisoned a len = true := by decide +kernel
theorem witness_ApertureAccessesAsItsContext_7 :
    let f : FnId := 0
    let off : Nat := 0
    let len : Nat := 1
    let s : State := (ap {valid := true} : State)
    let x : Aperture := s.aperture f
    let a : Nat := x.base + off
    x.valid = true ∧
    a + len ≤ tier1Size ∧
    0 < len ∧
    s.homeFenced a = false ∧
    s.allHomed x.ctx a len = true ∧
    s.isPoisoned a len = false := by decide +kernel
theorem witness_ApertureAccessesAsItsContext_8 :
    let f : FnId := 0
    let off : Nat := 0
    let data : List Byte := ([1,2,3] : List Byte)
    let s : State := (ap {valid:= true, base := 0x1FFFFE} : State)
    let x : Aperture := s.aperture f
    let a : Nat := x.base + off
    x.valid = true ∧
    a + data.length ≤ tier1Size ∧
    data ≠ [] ∧
    s.homeFenced a = false ∧
    s.allHomed x.ctx a data.length = false := by decide +kernel
theorem witness_ApertureAccessesAsItsContext_9 :
    let f : FnId := 0
    let off : Nat := 0
    let data : List Byte := ([1,2,3] : List Byte)
    let s : State := (ap {valid := true} : State)
    let x : Aperture := s.aperture f
    let a : Nat := x.base + off
    x.valid = true ∧
    a + data.length ≤ tier1Size ∧
    data ≠ [] ∧
    s.homeFenced a = false ∧
    s.allHomed x.ctx a data.length = true ∧
    Cells.wf s.mem = true := by decide +kernel
end ApertureAccessesAsItsContext
/-! Hypotheses of `Obligations.HostWindows` (DebugWindowReachesMemory). -/
namespace DebugWindowReachesMemory
def lc (n : Nat) (b : Nat) : State := {base with lifecycle := BitVec.ofNat 3 n, delash := {base.delash with dbgBase := b}, mem := [(spadBase,1),(spadBase+0x100,4),(spadBase+0x101,9)]}
def bases := [spadBase, spadBase+0x100, spadBase+0x300000,spadBase+0x400000*64,spadBase+0x400000*400]
def bst := [0,2,4].flatMap fun n => bases.map fun b => lc n b
def smpState : List (String × (State)) := (bst ++ bst.map fun s => s.modSector 2 fun x => {x with st := .fenced}).map fun s => ("",s)
theorem witness_DebugWindowReachesMemory_1 :
    let s : State := pick smpState 5 base
    s.lifecycle ≠ 0 ∧
    s.lifecycle ≠ 4 := by decide +kernel
theorem witness_DebugWindowReachesMemory_2 :
    let off : Nat := 0
    let s : State := pick smpState 2 base
    let a : Nat := s.delash.dbgBase + off
    (s.lifecycle = 0 ∨ s.lifecycle = 4) ∧
    s.addrKind a = .unpopulated := by decide +kernel
theorem witness_DebugWindowReachesMemory_3 :
    let off : Nat := 0
    let s : State := pick smpState 0 base
    let a : Nat := s.delash.dbgBase + off
    (s.lifecycle = 0 ∨ s.lifecycle = 4) ∧
    let tl : Nat := 0
    let o : Nat := 0
    s.addrKind a = .spad tl o ∧
    a % 4 = 0 ∧
    Cells.wf s.mem = true ∧
    ((s.sector (sectorOfTile tl)).st = .up ∨ (s.sector (sectorOfTile tl)).st = .degraded) := by decide +kernel
theorem witness_DebugWindowReachesMemory_4 :
    let off : Nat := 0
    let s : State := pick smpState 18 base
    let a : Nat := s.delash.dbgBase + off
    (s.lifecycle = 0 ∨ s.lifecycle = 4) ∧
    let tl : Nat := 64
    let o : Nat := 0
    s.addrKind a = .spad tl o ∧
    a % 4 = 0 ∧
    Cells.wf s.mem = true ∧
    (s.sector (sectorOfTile tl)).st = .fenced := by decide +kernel
end DebugWindowReachesMemory
/-! Hypotheses of `Obligations.HostWindows` (FunctionLevelReset). -/
namespace FunctionLevelReset
theorem witness_FunctionLevelReset_1 :
    let f : FnId := 0
    f = 0 := by decide +kernel
theorem witness_FunctionLevelReset_2 :
    let f : FnId := 1
    f ≠ 0 := by decide +kernel
end FunctionLevelReset
/-! Hypotheses of `Obligations.DeviceCommands` (DeviceCommandsAnswer). -/
namespace DeviceCommandsAnswer
def rqs := [mkReq 0x0101 [], mkReq 0x0102 [], mkReq 0x0103 [0], mkReq 0x0103 [1], mkReq 0x0103 [2]]
def st : State := base
def m : State := {base with power := {base.power with maxProfile := 2, requested := 1}, lifecycle := 2}
def smpListByte : List (String × (List Byte)) := rqs.map fun r => ("",r)
def smpState : List (String × (State)) := RB rqs st ++ RB rqs m ++ RB rqs {m with plumb := {m.plumb with pins := 1}}
theorem witness_DeviceCommandsAnswer_1 :
    let src : Src := .bmc
    let req : List Byte := pick smpListByte 0 ([])
    let s : State := pick smpState 2 base
    Fronts s src 0x0101 req := by decide +kernel
theorem witness_DeviceCommandsAnswer_2 :
    let src : Src := .bmc
    let req : List Byte := pick smpListByte 1 ([])
    let s : State := pick smpState 5 base
    Fronts s src 0x0102 req := by decide +kernel
theorem witness_DeviceCommandsAnswer_3 :
    let src : Src := .bmc
    let req : List Byte := pick smpListByte 3 ([])
    let s : State := pick smpState 11 base
    Fronts s src 0x0103 req ∧
    let p : BitVec 2 := 1
    let top : BitVec 2 := 0
    p = BitVec.ofNat 2 (rq req 0 1) ∧
    top = minProfile s.power.maxProfile (pinProfile s.plumb.pins) ∧
    top.toNat < p.toNat := by decide +kernel
theorem witness_DeviceCommandsAnswer_4 :
    let src : Src := .bmc
    let req : List Byte := pick smpListByte 2 ([])
    let s : State := pick smpState 8 base
    Fronts s src 0x0103 req ∧
    let p : BitVec 2 := 0
    let top : BitVec 2 := 0
    p = BitVec.ofNat 2 (rq req 0 1) ∧
    top = minProfile s.power.maxProfile (pinProfile s.plumb.pins) ∧
    p.toNat ≤ top.toNat := by decide +kernel
end DeviceCommandsAnswer
/-! Hypotheses of `Obligations.DeviceCommands` (HealthCountersReadAndClear). -/
namespace HealthCountersReadAndClear
def hr (op : Nat) (sc f c : Nat) := mkReq op (bs [(1,sc),(1,0),(2,f),(2,c)])
def rqs := [hr 0x701 0 3 5, hr 0x701 1 14 9, hr 0x701 2 0 3, hr 0x701 3 0 11, hr 0x701 1 90 4, hr 0x702 0 3 5, hr 0x702 1 1 9, hr 0x702 2 0 3, hr 0x702 3 0 1, hr 0x702 255 0 0,hr 0x702 1 90 4]
def st : State := {(base.modPort 1 fun p => {p with crcErr := 4}).modPort 10 fun p => {p with retrain := 3} with phys := [(4,some {eccCe := 7}),(8,some {eccCe := 5})], channels := [(1,{ce := 4}),(4,{ue := 5})]}
def smpListByte : List (String × (List Byte)) := rqs.map fun r => ("",r)
def smpState : List (String × (State)) := RB rqs st
theorem witness_HealthCountersReadAndClear_1 :
    let src : Src := .bmc
    let req : List Byte := pick smpListByte 0 ([])
    let s : State := pick smpState 2 base
    Fronts s src 0x0701 req ∧
    srcFn src = 0 := by decide +kernel
theorem witness_HealthCountersReadAndClear_2 :
    let src : Src := .mailbox 0
    let req : List Byte := pick smpListByte 5 ([])
    let s : State := pick smpState 15 base
    Fronts s src 0x0702 req ∧
    let scope : Nat := rq req 0 1
    scope ≤ 3 := by decide +kernel
end HealthCountersReadAndClear
/-! Hypotheses of `Obligations.DeviceCommands` (DumpsAreRead). -/
namespace DumpsAreRead
def hr (n off len a : Nat) := mkReq 0x802 (bs [(2,n),(2,0),(4,off),(4,len),(4,0),(8,a)])
def rqs := [hr 0 0 100 0, hr 0 128 40 0x1000, hr 0 131070 40 0x1000, hr 7 0 4 0, hr 1 0 100 0, hr 0 131070 40 0]
def st : State := {base with lifecycle := 4, faults := {base.faults with log := [(1,{seq := 1, cls := 1, cause := 3})]}}
def smpListByte : List (String × (List Byte)) := rqs.map fun r => ("",r)
def smpState : List (String × (State)) := RB rqs st
def dump7 : Dump := { num := 7, sectors := [3], cause := 0x0301, cls := 3, time := 5, ctxs := [0xFF], gens := [0], consent := [false], tier2 := true, faultSeq := 1, stamp := 0 }
theorem witness_DumpsAreRead_1 :
    let src : Src := .mailbox 0
    let req : List Byte := pick smpListByte 3 ([])
    let s : State := pick smpState 9 base
    Fronts s src 0x0802 req ∧
    s.dumpSource (rq req 0 2) = none := by decide +kernel
theorem witness_DumpsAreRead_2 :
    let src : Src := .mailbox 0
    let req : List Byte := pick smpListByte 0 ([])
    let s : State := pick smpState 0 base
    Fronts s src 0x0802 req ∧
    rq req 0 2 = 0 ∧
    rq req 16 8 = 0 := by decide +kernel
theorem witness_DumpsAreRead_3 :
    let src : Src := .mailbox 0
    let ok : Bool := false
    let req : List Byte := pick smpListByte 1 ([])
    let s : State := pick smpState 3 base
    Fronts s src 0x0802 req ∧
    rq req 0 2 = 0 ∧
    let n := min (rq req 8 4) (131072 - rq req 4 4)
    rq req 16 8 ≠ 0 ∧
    n ≠ 0 ∧
    ok = false := by decide +kernel
theorem witness_DumpsAreRead_4 :
    let src : Src := .mailbox 0
    let ok : Bool := true
    let req : List Byte := pick smpListByte 1 ([])
    let s : State := pick smpState 3 base
    Fronts s src 0x0802 req ∧
    rq req 0 2 = 0 ∧
    let n := min (rq req 8 4) (131072 - rq req 4 4)
    rq req 16 8 ≠ 0 ∧
    n ≠ 0 ∧
    ok = true := by decide +kernel
theorem witness_DumpsAreRead_5 :
    let src : Src := .mailbox 0
    let d : Dump := dump7
    let req : List Byte := pick smpListByte 3 ([])
    let s : State := (pick smpState 9 base).modFaults fun f => { f with dumps := [dump7] }
    Fronts s src 0x0802 req ∧
    rq req 0 2 ≠ 0 ∧
    s.faults.dumps.find? (·.num == rq req 0 2) = some d ∧
    rq req 16 8 = 0 := by decide +kernel
end DumpsAreRead
end Sys2Proof.Tests.Mailbox
end

