-- ==== Sys2Proof/Tests/Network.lean ====
section
/-! SUPPORT. Network: for the obligations about it, states and operands that meet the hypotheses of each clause. -/
open Sys2Proof Sys2Proof.Machine
namespace Sys2Proof.Tests.Network
set_option Elab.async false
def pk (tile phys core kind : Nat) (gen ctx age defl : Nat) : CtlPacket := { route := { destTile := BitVec.ofNat 9 tile, px := BitVec.ofNat 5 (physX phys), py := BitVec.ofNat 5 (physY phys), ctx := BitVec.ofNat 4 ctx, gen := BitVec.ofNat 12 gen, age := BitVec.ofNat 8 age, defl := BitVec.ofNat 6 defl}, header := BitVec.ofNat 48 (core%16+kind*2^4), word0 := 5, tag := 9}
def packets : List CtlPacket := [pk 1 2 3 0 3 0 255 0, pk 5 50 3 0 3 0 1 2, pk 0 0 3 0 3 0 1 0, pk 0 0 3 0 2 0 1 0, pk 40 6 3 0 3 0 1 0, pk 5 575 3 0 3 0 1 30]
def tr (p : CtlPacket) (at_ : Nat) (via : Option Dir) (b : Bool := false) : Transit := { net := .control, at_, via, blocked := b, pkt := .control p }
def n0 : OnDie := { trans := [(0,{phys := 0}),(1,{phys := 2}),(5, {phys := 50}), (32, {phys := 6})] }
def srcs (at_ : Nat) (b : Bool := false) : List Transit := packets.map fun p => tr p at_ none b
def trs : List Transit := srcs 0 ++ srcs 50 true ++ [tr (packets.getD 1 dCtl) 0 (some .e), tr (packets.getD 1 dCtl) 24 (some .n), tr (packets.getD 2 dCtl) 0 (some .e), tr (packets.getD 3 dCtl) 0 (some .e), tr (packets.getD 0 dCtl) 1 (some .e), tr (packets.getD 0 dCtl) 2 (some .n)]
def smpCtlPacket : List (String × (CtlPacket)) := packets.map fun p => ("",p)
def smpTransit : List (String × (Transit)) := trs.map fun t => ("",t)
def sb : State := (base.setTile 0 {barMask := [(3,0x21),(5,1)], barArrived := [(3,0x20)]}).setTile 5 {barMask := [(3,1)]}
/-! Hypotheses of `Obligations.OnDieNetwork` (PacketInjectCompletes). -/
namespace PacketInjectCompletes
def stI (i : Nat) (f : List (Net × Nat × Dir) := []) : State := { base with net := { n0 with sources := [(srcs 0).getD i dTransit], fencedLinks := f } }
theorem witness_PacketInjectCompletes_1 :
    let p : PhysId := 0
    let c : CtlPacket := pick smpCtlPacket 4 dCtl
    let s : State := stI 4
    let x : Transit := pick smpTransit 4 dTransit
    s.net.fencedRouters.contains p.val = false ∧
    s.net.escapeHold = none ∧
    waitingAt s .control p = [x] ∧
    x.port < 3 ∧
    x.pkt = .control c ∧
    discarded x.pkt = false ∧
    ((s.ctx c.route.ctx.toNat).gen ≠ c.route.gen ∨
        s.ownerOfTile c.route.destTile.toNat ≠ some c.route.ctx.toNat) := by decide +kernel
theorem witness_PacketInjectCompletes_2 :
    let p : PhysId := 0
    let c : CtlPacket := pick smpCtlPacket 0 dCtl
    let s : State := stI 0
    let x : Transit := pick smpTransit 0 dTransit
    s.net.fencedRouters.contains p.val = false ∧
    s.net.escapeHold = none ∧
    waitingAt s .control p = [x] ∧
    x.port < 3 ∧
    x.pkt = .control c ∧
    discarded x.pkt = false ∧
    (s.ctx c.route.ctx.toNat).gen = c.route.gen ∧
    s.ownerOfTile c.route.destTile.toNat = some c.route.ctx.toNat ∧
    c.route.memPort = false ∧
    (s.transOf c.route.destTile.toNat).hold = false ∧
    (s.transOf c.route.destTile.toNat).phys < 576 ∧
    (s.transOf c.route.destTile.toNat).phys ≠ p.val ∧
    s.headers .control p = [] ∧
    ∃ d, (s.productive .control p (s.transOf c.route.destTile.toNat).phys).find? (outputOpen s .control p) = some d ∧
      ∃ q, stepDir d p = some q ∧ True := by decide +kernel
end PacketInjectCompletes
/-! Hypotheses of `Obligations.OnDieNetwork` (RouterHeaderCompletes). -/
namespace RouterHeaderCompletes
def stH (i p : Nat) (via : Dir) (f : List (Net × Nat × Dir) := []) : State := { base with net := { n0 with slots := [tr (packets.getD i dCtl) p (some via)], fencedLinks := f } }
theorem witness_RouterHeaderCompletes_1 :
    let p : PhysId := 0
    let c : CtlPacket := pick smpCtlPacket 1 dCtl
    let s : State := (stH 1 0 .e : State)
    let x : Transit := pick smpTransit 12 dTransit
    s.net.fencedRouters.contains p.val = false ∧
    s.net.escapeHold = none ∧
    s.headers .control p = [x] ∧
    x ∈ s.net.slots ∧
    x.pkt = .control c ∧
    c.route.esc = false ∧
    destOf x.pkt ≠ p.val ∧
    ∃ d, (s.productive .control p (destOf x.pkt)).find? (outputTakes s .control p) = some d ∧
      ∃ q, stepDir d p = some q ∧ True := by decide +kernel
/-- The far router still holds a packet in the slot. -/
theorem witness_RouterHeaderCompletes_6 :
    let p : PhysId := 0
    let c : CtlPacket := pick smpCtlPacket 1 dCtl
    let x : Transit := pick smpTransit 12 dTransit
    let s : State := { base with net := { n0 with slots := [x, tr (packets.getD 1 dCtl) 24 (some .n), tr (packets.getD 1 dCtl) 1 (some .w)] } }
    s.net.fencedRouters.contains p.val = false ∧ s.net.escapeHold = none ∧ s.headers .control p = [x] ∧
    x ∈ s.net.slots ∧ x.pkt = .control c ∧ c.route.esc = false ∧ destOf x.pkt ≠ p.val ∧
    ∃ d, (s.productive .control p (destOf x.pkt)).find? (outputTakes s .control p) = some d ∧
      (stepDir d p).isSome = true ∧ s.slotFree .control p d = false := by decide +kernel
theorem witness_RouterHeaderCompletes_2 :
    let p : PhysId := 0
    let c : CtlPacket := pick smpCtlPacket 1 dCtl
    let s : State := (stH 1 0 .e [(.control,0,.e),(.control,0,.be),(.control,0,.s)] : State)
    let x : Transit := pick smpTransit 12 dTransit
    s.net.fencedRouters.contains p.val = false ∧
    s.net.escapeHold = none ∧
    s.headers .control p = [x] ∧
    x ∈ s.net.slots ∧
    x.pkt = .control c ∧
    c.route.esc = false ∧
    destOf x.pkt ≠ p.val ∧
    (∀ o ∈ s.productive .control p (destOf x.pkt), outputTakes s .control p o = false) ∧
    ∃ d, allDirs.find? (outputTakes s .control p) = some d ∧
      ∃ q, stepDir d p = some q ∧
        c.route.defl < 31 := by decide +kernel
theorem witness_RouterHeaderCompletes_3 :
    let p : PhysId := 0
    let c : CtlPacket := pick smpCtlPacket 2 dCtl
    let s : State := (stH 2 0 .e : State)
    let x : Transit := pick smpTransit 14 dTransit
    s.net.fencedRouters.contains p.val = false ∧
    s.net.escapeHold = none ∧
    s.headers .control p = [x] ∧
    x ∈ s.net.slots ∧
    x.pkt = .control c ∧
    c.route.esc = false ∧
    destOf x.pkt = p.val ∧
    c.route.memPort = false ∧
    hdrKind c = 0 ∧
    s.logicalOf p = some c.route.destTile.toNat ∧
    s.fate c.route = .deliver := by decide +kernel
theorem witness_RouterHeaderCompletes_4 :
    let p : PhysId := 0
    let c : CtlPacket := pick smpCtlPacket 3 dCtl
    let s : State := (stH 3 0 .e : State)
    let x : Transit := pick smpTransit 15 dTransit
    s.net.fencedRouters.contains p.val = false ∧
    s.net.escapeHold = none ∧
    s.headers .control p = [x] ∧
    x ∈ s.net.slots ∧
    x.pkt = .control c ∧
    c.route.esc = false ∧
    destOf x.pkt = p.val ∧
    c.route.memPort = false ∧
    hdrKind c = 0 ∧
    s.logicalOf p = some c.route.destTile.toNat ∧
    s.fate c.route ≠ .deliver := by decide +kernel
theorem witness_RouterHeaderCompletes_5 :
    let p : PhysId := 0
    let c : CtlPacket := pick smpCtlPacket 1 dCtl
    let s : State := (stH 1 0 .e : State)
    let x : Transit := pick smpTransit 12 dTransit
    s.net.fencedRouters.contains p.val = false ∧
    s.net.escapeHold = none ∧
    s.headers .control p = [x] ∧
    x ∈ s.net.slots ∧
    x.pkt = .control c ∧
    c.route.esc = false ∧
    x.at_ = p.val ∧
    s.net.linkErrs = [] ∧
    (s.net.slots.filter fun y => y.net == .control && y.at_ == p.val) = [x] := by decide +kernel
end RouterHeaderCompletes
/-! Hypotheses of `Obligations.OnDieNetwork` (StarveBarsNeighbours). -/
namespace StarveBarsNeighbours
theorem witness_StarveBarsNeighbours_1 :
    let p : PhysId := 50
    let s : State := ({ base with net := { n0 with sources := srcs 0 ++ srcs 50 true, starved := [(.control,3,.n)] } } : State)
    ∃ x ∈ s.net.sources,
      let net : Net := x.net
      x.at_ = p.val ∧
      x.blocked = true ∧
      s.passed x.since 214 = true ∧
      (∀ y ∈ s.net.starveAt, y.1 = net → y.2.1 = p.val → s.passed y.2.2 214 = true) := by decide +kernel
theorem witness_StarveBarsNeighbours_2 :
    let p : PhysId := 50
    let s : State := ({ base with net := { n0 with sources := srcs 50 true, starved := [(.control,3,.n)], starveAt := [(.control,50,base.deviceTime - 100)] } } : State)
    ∃ x ∈ s.net.sources,
      let net : Net := x.net
      x.at_ = p.val ∧
      x.blocked = true ∧
      s.passed x.since 214 = true ∧
      (∃ y ∈ s.net.starveAt, y.1 = net ∧ y.2.1 = p.val ∧ s.passed y.2.2 214 = false) := by decide +kernel
end StarveBarsNeighbours
/-! Hypotheses of `Obligations.OnDieNetwork` (FenceTakesLinksOut). -/
namespace FenceTakesLinksOut
def used : State := { base with net := { n0 with
  uses := [(.control, 1, .s, 0, base.deviceTime - 100), (.control, 1, .s, 1, base.deviceTime - 9000)]
  slots := [tr (packets.getD 1 dCtl) 25 (some .n), tr (packets.getD 1 dCtl) 60 (some .n)] } }
def smpState : List (String × (State)) := [("a",{ base with net := { n0 with sources := srcs 0 ++ srcs 50 true, starved := [(.control,3,.n)], slots := [tr (packets.getD 1 dCtl) 50 (some .e), tr (packets.getD 1 dCtl) 24 (some .n)] } })]
theorem witness_FenceTakesLinksOut_1 :
    let u : FenceUnit := .router 0
    let s : State := pick smpState 0 base
    s.isOut u = false ∧
    s.net.uses = [] := by decide +kernel
/-- A router and a link that packets of context 0 crossed just now and of context 1 long ago, and packets on the link. -/
theorem witness_FenceTakesLinksOut_2 :
    let s : State := used
    s.plumb.gaffer = .running ∧ (s.ctx 0).dead = false ∧
    ∀ u ∈ ([.router 25, .link .control 1 .s] : List FenceUnit), s.isOut u = false ∧
      (∃ x ∈ s.net.uses, s.passed x.2.2.2.2 5121 = false ∧ (x.1, x.2.1, x.2.2.1) ∈ fenceEnds u ∧ x.2.2.2.1 = 0) ∧
      (∀ x ∈ s.net.uses, ¬ (s.passed x.2.2.2.2 5121 = false ∧ (x.1, x.2.1, x.2.2.1) ∈ fenceEnds u ∧ x.2.2.2.1 = 1)) ∧
      (∃ y ∈ s.net.slots, onLink (fenceEnds u) y = true) ∧ ∃ y ∈ s.net.slots, onLink (fenceEnds u) y = false := by
  decide +kernel
end FenceTakesLinksOut
/-! Hypotheses of `Obligations.CountersMasksAndTime` (ByteCounterWriteCompletes). -/
namespace ByteCounterWriteCompletes
theorem witness_ByteCounterWriteCompletes_1 :
    let g : Agent := .net
    (g = .net ∨ g = .firmware) := by decide +kernel
end ByteCounterWriteCompletes
/-! Hypotheses of `Obligations.BarriersAndSemaphores` (BarrierArrivalsAndRelease). -/
namespace BarrierArrivalsAndRelease
theorem witness_BarrierArrivalsAndRelease_1 :
    let a : At := at0
    let v : Word := 3
    let s : State := ((base.setTile 0 {barMask := [(3,0x21),(5,1)], barArrived := [(3,0)]}) : State)
    (s.core a.core).canIssue = true ∧
    ((s.tile (tileOf a.core)).mask (bits v.toNat 5 0)).getLsbD (a.core.val % 16) = true ∧
    (s.core a.core).sync.barOut = none ∧
    (∃ i, i < 16 ∧ i ≠ a.core.val % 16 ∧
      ((s.tile (tileOf a.core)).mask (bits v.toNat 5 0)).getLsbD i = true ∧
      ((s.tile (tileOf a.core)).arrived (bits v.toNat 5 0)).getLsbD i = false) := by decide +kernel
theorem witness_BarrierArrivalsAndRelease_2 :
    let k : CtxId := 0
    let t : TileId := 0
    let b : Fin 64 := 3
    let s : State := sb
    (s.ctx k).dead = false ∧
    s.owner (sectorOfTile t) = some k ∧
    (∃ x ∈ s.memberTiles k b, x ≠ t.val ∧ x ∉ Tab.get [] (s.ctx k).barAt b) := by decide +kernel
theorem witness_BarrierArrivalsAndRelease_3 :
    let k : CtxId := 0
    let t : TileId := 0
    let b : Fin 64 := 3
    let s : State := ((base.setTile 0 {barMask := [(3,0x21),(5,1)], barArrived := [(3,0)]}) : State)
    (s.ctx k).dead = false ∧
    s.owner (sectorOfTile t) = some k ∧
    s.memberTiles k b ≠ [] ∧
    (∀ x ∈ s.memberTiles k b, x = t.val ∨ x ∈ Tab.get [] (s.ctx k).barAt b) := by decide +kernel
end BarrierArrivalsAndRelease
/-! Hypotheses of `Obligations.BarriersAndSemaphores` (SemaphoresComplete). -/
namespace SemaphoresComplete
theorem witness_SemaphoresComplete_1 :
    let a : At := at0
    let s : State := (base.modCtx 0 fun k => {k with sems := [(3,65530),(5,0)], semWaits := [(5,1),(3,0),(3,5)]} : State)
    (s.core a.core).canIssue = true ∧
    ∃ k, s.ownerOfCore a.core = some k ∧
      (s.core a.core).sync.semOut = none := by decide +kernel
theorem witness_SemaphoresComplete_2 :
    let a : At := at0
    let s : State := (base.modCtx 0 fun k => {k with sems := [(3,65530),(5,0)], semWaits := [(5,1),(3,0),(3,5)]} : State)
    (s.core a.core).canIssue = true ∧
    ∃ k, s.ownerOfCore a.core = some k ∧
      let j : CtxId := 0
      let sem : Fin 64 := 3
      let c : Nat := 0
      let before : List (Nat × Nat) := [(5, 1)]
      let after : List (Nat × Nat) := [(3, 5)]
      (s.ctx j).dead = false ∧
      Tab.get 0 (s.ctx j).sems sem ≠ 0 ∧
      (s.ctx j).semWaits = before ++ (sem.val, c) :: after ∧
      (∀ w ∈ before, w.1 ≠ sem.val) ∧
      c < 8192 ∧
      s.tileIn j (tileOf c) = true := by decide +kernel
end SemaphoresComplete
/-! Hypotheses of `Obligations.CountersMasksAndTime` (BarrierMaskWriteCompletes). -/
namespace BarrierMaskWriteCompletes
theorem witness_BarrierMaskWriteCompletes_1 :
    let g : Agent := .net
    let t : TileId := 0
    let j : Fin 32 := 0
    let s : State := sb
    (g = .net ∨ g = .firmware) ∧
    (∀ k, s.ownerOfTile t = some k → Tab.get [] (s.ctx k).barAt (2 * j) = [] ∧
      Tab.get [] (s.ctx k).barAt (2 * j + 1) = []) ∧
    (s.tile t).arrived (2 * j) = 0 ∧
    (s.tile t).arrived (2 * j + 1) = 0 ∧
    (s.tile t).heldMask = [] := by decide +kernel
theorem witness_BarrierMaskWriteCompletes_2 :
    let g : Agent := .net
    let t : TileId := 0
    let j : Fin 32 := 1
    let s : State := sb
    (g = .net ∨ g = .firmware) ∧
    (∀ k, s.ownerOfTile t = some k → Tab.get [] (s.ctx k).barAt (2 * j) = [] ∧
      Tab.get [] (s.ctx k).barAt (2 * j + 1) = []) ∧
    ((s.tile t).arrived (2 * j) ≠ 0 ∨ (s.tile t).arrived (2 * j + 1) ≠ 0) := by decide +kernel
end BarrierMaskWriteCompletes
/-! Hypotheses of `Obligations.CountersMasksAndTime` (TimeReadsLatch). -/
namespace TimeReadsLatch
theorem witness_TimeReadsLatch_1 :
    let a : At := at0
    let rd : XReg := 3
    let s : State := base
    (s.core a.core).canIssue = true ∧
    rd.val ≠ 0 := by decide +kernel
end TimeReadsLatch
end Sys2Proof.Tests.Network
end

