-- ==== Sys2Proof/Tests/Placement.lean ====
section
/-! SUPPORT. Placement: for the obligations about it, states and operands that meet the hypotheses of each clause. -/
open Sys2Proof Sys2Proof.Machine
namespace Sys2Proof.Tests.Placement
set_option Elab.async false
def RQ (rs : List (List Byte)) (s : State) : List (String × State) := rs.flatMap fun r => [("m0",withReq (.mailbox 0) r s)]
def putMem (s : State) (a : Nat) (b : List Byte) : State := {s with mem := ((b.zipIdx).filterMap fun (x,i) => if x = 0 then none else some (a+i,x)) ++ s.mem}
/-! Hypotheses of `Obligations.Placements` (PlacementImagesLoad). -/
namespace PlacementImagesLoad
def pat (n : Nat) (fs : List (Nat × Nat × Nat)) : List Byte := fs.foldl (fun b f => patch b f.1 (leBytes f.2.1 f.2.2)) (fit n [])
def tr (t : Nat) : List Byte := pat 656 [(0,2,t),(0x10,4,0x100000),(0x14,4,800),(0x18,4,0xFFFF),(0x10+20,4,900),(0x14+20,4,16),(0x18+20,4,1),(0x1C+20,4,5),(0x20+20,4,0x100000+2)]
def cr (c il : Nat) : List Byte := pat 544 [(0,2,c),(8,4,64+656+544),(12,4,il),(0x10,4,0x104),(0x20,4,0x1234),(0x120,4,0x20000000 + 1 + 2^13*2),(0x1A0,4,5),(0x1A4,4,0x40008),(0x1E0,4,6)]
def L := 64+656+544+8
def img : List Byte :=
  pat 64 [(0,4,0x45584C50),(4,2,2),(8,1,1),(10,2,1),(12,2,1),(0x10,4,64),(0x14,4,64+656),(0x20,4,L),(0x3C,4,3337109175)]
    ++ tr 0 ++ cr 0 8 ++ [1,2,3,4,5,6,7,8]
def pl (a len : Nat) (k : Nat := 0) := mkReq 0x401 (bs [(1,k),(1,0),(2,0),(4,len),(8,a)])
def st0 : State := { base with phys := (List.range 36).map fun i => (i, some {index := if i < 32 then some i else none, cad := if i < 32 then .good else .spare}) }
def st (im : List Byte) (c : CtxState) : State := putMem (st0.modCtx 0 fun k => {k with st := c, homed := [(0,1)]}) 0x1000 im
def rqs := [pl 0x1000 L]
def smpListByte : List (String × (List Byte)) := rqs.map fun r => ("",r)
def smpState : List (String × (State)) := ([(img, CtxState.ready), ([], .ready), ([], .running)].flatMap fun e => RQ rqs ((st e.1 e.2).setCore 7 rc))
set_option maxRecDepth 100000 in
theorem witness_PlacementImagesLoad_1 :
    let src : Src := .mailbox 0
    let req : List Byte := pick smpListByte 0 ([])
    let s : State := pick smpState 2 base
    Fronts s src 0x0401 req ∧
    let k : Nat := rq req 0 1
    (s.ctx k).st ≠ .ready ∧
    (s.ctx k).st ≠ .drained := by decide +kernel
set_option maxRecDepth 100000 in
theorem witness_PlacementImagesLoad_2 :
    let src : Src := .mailbox 0
    let req : List Byte := pick smpListByte 0 ([])
    let s : State := pick smpState 1 base
    Fronts s src 0x0401 req ∧
    let k : Nat := rq req 0 1
    ((s.ctx k).st = .ready ∨ (s.ctx k).st = .drained) ∧
    ∃ e, s.imageStatus k (rq req 8 8) (rq req 4 4) = some e ∧ True := by decide +kernel
set_option maxRecDepth 100000 in
theorem witness_PlacementImagesLoad_3 :
    let src : Src := .mailbox 0
    let req : List Byte := pick smpListByte 0 ([])
    let s : State := pick smpState 0 base
    Fronts s src 0x0401 req ∧
    let k : Nat := rq req 0 1
    let m : List Byte := s.readTier (rq req 8 8) (rq req 4 4)
    ((s.ctx k).st = .ready ∨ (s.ctx k).st = .drained) ∧
    s.imageStatus k (rq req 8 8) (rq req 4 4) = none ∧
    imPreloads m = [] ∧
    Cells.wf s.priv = true := by decide +kernel
/-- An image with one preload of 2 words, with no operation in progress and with 8. -/
def preImg : List Byte := pat 64 [(0,4,0x45584C50),(4,2,2),(8,1,1),(0x18,4,64),(0x1C,4,1),(0x20,4,88),(0x3C,4,3801595102)] ++ pat 24 [(0,8,0x1000),(16,4,2)]
def preSt (n : Nat) : State := withReq (.mailbox 0) (pl 0x1000 88) ((st preImg .ready).modDelash fun d =>
  { d with ops := (List.range n).map fun i => { fn := 0, id := BitVec.ofNat 16 i, opcode := 0x401, work := .timed 0 [], ctx := some 1 } })
set_option maxRecDepth 100000 in
theorem witness_PlacementImagesLoad_4 :
    let src : Src := .mailbox 0
    let req : List Byte := pl 0x1000 88
    ∀ n ∈ [0, 8],
      let s : State := preSt n
      let k : Nat := rq req 0 1
      let m : List Byte := s.readTier (rq req 8 8) (rq req 4 4)
      Fronts s src 0x0401 req ∧ (s.ctx k).st = .ready ∧ s.imageStatus k (rq req 8 8) (rq req 4 4) = none ∧
      (∃ r ∈ imPreloads m, prWords r ≠ 0) ∧ (s.opsOf (srcFn src)).length = n := by decide +kernel
end PlacementImagesLoad
/-! Hypotheses of `Obligations.Placements` (DrainStopsAndResumeGoesOn). -/
namespace DrainStopsAndResumeGoesOn
def rqs := [mkReq 0x402 [0], mkReq 0x402 [1], mkReq 0x403 [0], mkReq 0x403 [1], mkReq 0x402 [2], mkReq 0x402 [3], mkReq 0x402 [4]]
def fl : InFlight := { id := 0, op := .vred 0 1 0 false}
def cl : Claim := {id := 4, words := 5, who := .engine 0 0}
def s0 : State := {base.modCtx 0 (fun k => {k with periodUs := 0}) with ctxs := [(0,{runCtx 1 3 77 with periodUs := 0}),(1,runCtx 2 4 78),(2,{runCtx 4 4 3 with periodUs := 0, st := .ready, fn := 0}),(3,{runCtx 8 4 3 with periodUs := 0, st := .drained, fn := 0}),(4,{runCtx 8 4 3 with periodUs := 0, st := .aborted, fn := 0})]}
def s1 : State := (s0.modCore 0 fun x => {x with wait := some .wfi, x := [(1,4)], btx := [fl]}).setTile 0 {regions := [(1,{base := 5, size := 100, circular := true, pWait := [cl], pClaims := [{cl with id := 3}]})]}
def dr (s : State) : State := ((s.modCtx 0 fun k => {k with st := .drained, drainedAt := some 999999000000}).modCore 0 fun x => {x with run := .drained}).modCore 5 fun x => {x with run := .drained}
def smpListByte : List (String × (List Byte)) := rqs.map fun r => ("",r)
def smpState : List (String × (State)) := ([s0,s1,dr s0,dr s1].flatMap fun x => RQ rqs x)
theorem witness_DrainStopsAndResumeGoesOn_1 :
    let src : Src := .mailbox 0
    let req : List Byte := pick smpListByte 1 ([])
    let s : State := pick smpState 1 base
    Fronts s src 0x0402 req ∧
    let k : Nat := rq req 0 1
    ((s.ctx k).periodUs ≠ 0 ∨ ((s.ctx k).placed = true ∧ (s.ctx k).dead = true)) := by decide +kernel
/-- A placement that an abort ended, and an aborted context that never had one. -/
theorem witness_DrainStopsAndResumeGoesOn_6 :
    let src : Src := .mailbox 0
    let req : List Byte := mkReq 0x402 [4]
    ∀ placed ∈ [true, false],
      let s : State := withReq src req (s0.modCtx 4 fun k => { k with placed })
      Fronts s src 0x0402 req ∧ (s.ctx 4).periodUs = 0 ∧ (s.ctx 4).st ≠ .running ∧ (s.ctx 4).dead = true ∧
      (s.ctx 4).placed = placed := by decide +kernel
/-- A running core with an instruction in flight that has not executed. -/
theorem witness_DrainStopsAndResumeGoesOn_7 :
    let src : Src := .mailbox 0
    let req : List Byte := pick smpListByte 0 []
    let s : State := pick smpState 7 base
    Fronts s src 0x0402 req ∧ (s.ctx 0).periodUs = 0 ∧ (s.ctx 0).st = .running ∧ NetworkQuiet s 0 ∧
    s.coreIn 0 0 = true ∧ (s.core 0).run = .running ∧ (s.core 0).btx ≠ [] ∧ ∀ i ∈ (s.core 0).btx, i.executed = false := by
  decide +kernel
theorem witness_DrainStopsAndResumeGoesOn_2 :
    let src : Src := .mailbox 0
    let req : List Byte := pick smpListByte 0 ([])
    let s : State := pick smpState 14 base
    Fronts s src 0x0402 req ∧
    let k : Nat := rq req 0 1
    (s.ctx k).periodUs = 0 ∧ (s.ctx k).st ≠ .running ∧ ((s.ctx k).placed = false ∨ (s.ctx k).dead = false) := by
  decide +kernel
theorem witness_DrainStopsAndResumeGoesOn_3 :
    let src : Src := .mailbox 0
    let req : List Byte := pick smpListByte 0 ([])
    let s : State := pick smpState 0 base
    Fronts s src 0x0402 req ∧
    let k : Nat := rq req 0 1
    (s.ctx k).periodUs = 0 ∧
    (s.ctx k).st = .running ∧
    NetworkQuiet s k := by decide +kernel
theorem witness_DrainStopsAndResumeGoesOn_4 :
    let src : Src := .mailbox 0
    let req : List Byte := pick smpListByte 2 ([])
    let s : State := pick smpState 2 base
    Fronts s src 0x0403 req ∧
    let k : Nat := rq req 0 1
    (s.ctx k).st ≠ .drained := by decide +kernel
theorem witness_DrainStopsAndResumeGoesOn_5 :
    let src : Src := .mailbox 0
    let req : List Byte := pick smpListByte 2 []
    let s : State := pick smpState 16 base
    (Fronts s src 0x0403 req ∧ (s.ctx (rq req 0 1)).st = .drained) ∧
    (∀ c, s.coreIn (rq req 0 1) c = true → (s.core c).btx = []) :=
  ⟨by decide +kernel, fun _ _ => get_all (α := Core) (p := fun x => x.btx = []) (by decide +kernel) rfl⟩
end DrainStopsAndResumeGoesOn
/-! Hypotheses of `Obligations.LinkConfig` (LinkConfigSetsNodePortsAndGroups). -/
namespace LinkConfigSetsNodePortsAndGroups
def lc (fs : List (Nat × Nat)) : List Byte := mkReq 0x601 (bs fs)
def rqs := [lc [(4,0),(2,5),(2,6)], lc [(4,1),(2,0x7)], lc [(4,1),(2,0xFFF0)], lc [(4,2),(1,9),(1,0xFF),(2,6),(4,99)], lc [(4,2),(1,0),(1,3),(2,6),(4,99)],
  lc [(4,3),(1,4),(1,1),(1,2),(1,0),(2,1),(2,2),(4,0),(8,0x1000)],lc [(4,3),(1,4),(1,0),(1,2),(1,0),(2,1),(2,3),(4,0),(8,0x1000)],lc [(4,3),(1,4),(1,1),(1,2),(1,1),(2,1),(2,2),(4,0),(8,0x1000)],lc [(4,3),(1,4),(1,1),(1,2),(1,0),(2,1),(2,2),(4,0),(8,0x300000)],lc [(4,3),(1,4),(1,1),(1,2),(1,0),(2,1),(2,2),(4,0),(8,0x2000)],
  lc [(4,3),(1,4),(1,1),(1,2),(1,0),(2,1),(2,2),(4,0),(8,0x1008)], lc [(4,4),(1,0),(1,0)], lc [(4,4),(1,1),(1,7)],lc [(4,4),(1,0),(1,9)]]
def P (st : PortState) (e : Bool) : Port := { st, width := 8, enabled := e, delayNs := 100 }
def fb : Fabric := { ports := [(0,P .up true),(1,P .up true),(2,{P .down false with heldDown := true}),(3,P .training true),(4,P .disabled false)], node := some 3, routes := [(3, 0x2000), (7, 0x10), (9, 0x12)], syn := [(0, some ⟨none,6,77,0⟩)], col := [(7,some {ctx := 0, tree := false, synGroup := 0, rank := 0, ranks := [3,7], seq := 3, ports := [1]})] }
def s0 : State := putMem {(base.modCtx 0 fun k => {k with homed := [(0,1)]}) with fabric := fb, poison := [(0x2000/128,0x2000/128+1)], boot := {base.boot with licence := {tier := 2}}} 0x1000 [7,0,3,0,9,0,0,0,0,0x80,3]
def smpListByte : List (String × (List Byte)) := rqs.map fun r => ("",r)
def smpState : List (String × (State)) := ([s0,s0.modPort 0 fun p => {p with colReserved := 262144}].flatMap fun x => RQ rqs x)
theorem witness_LinkConfigSetsNodePortsAndGroups_1 :
    let src : Src := .mailbox 0
    let req : List Byte := pick smpListByte 0 ([])
    let s : State := pick smpState 0 base
    Fronts s src 0x0601 req ∧
    rq req 0 1 = 0 := by decide +kernel
theorem witness_LinkConfigSetsNodePortsAndGroups_2 :
    let src : Src := .mailbox 0
    let req : List Byte := pick smpListByte 1 ([])
    let s : State := pick smpState 1 base
    Fronts s src 0x0601 req ∧
    rq req 0 1 = 1 := by decide +kernel
theorem witness_LinkConfigSetsNodePortsAndGroups_3 :
    let src : Src := .mailbox 0
    let req : List Byte := pick smpListByte 3 ([])
    let s : State := pick smpState 3 base
    Fronts s src 0x0601 req ∧
    rq req 0 1 = 2 := by decide +kernel
theorem witness_LinkConfigSetsNodePortsAndGroups_4 :
    let src : Src := .mailbox 0
    let req : List Byte := pick smpListByte 8 ([])
    let s : State := pick smpState 8 base
    Fronts s src 0x0601 req ∧
    rq req 0 1 = 3 ∧
    let ranks : List Nat := ([0,0] : List Nat)
    let k : Nat := rq req 7 1
    let n : Nat := rq req 10 2
    let a : Nat := rq req 16 8
    ranks = (List.range n).map (fun i => field (s.readTier a (2 * n)) (2 * i) 2) ∧
    s.homedTier k a (2 * n) = false := by decide +kernel
theorem witness_LinkConfigSetsNodePortsAndGroups_5 :
    let src : Src := .mailbox 0
    let req : List Byte := pick smpListByte 9 ([])
    let s : State := pick smpState 9 base
    Fronts s src 0x0601 req ∧
    rq req 0 1 = 3 ∧
    let ranks : List Nat := ([0,0] : List Nat)
    let k : Nat := rq req 7 1
    let n : Nat := rq req 10 2
    let a : Nat := rq req 16 8
    ranks = (List.range n).map (fun i => field (s.readTier a (2 * n)) (2 * i) 2) ∧
    s.homedTier k a (2 * n) = true ∧
    s.isPoisoned a (2 * n) = true := by decide +kernel
theorem witness_LinkConfigSetsNodePortsAndGroups_6 :
    let src : Src := .mailbox 0
    let req : List Byte := pick smpListByte 10 ([])
    let s : State := pick smpState 10 base
    Fronts s src 0x0601 req ∧
    rq req 0 1 = 3 ∧
    let ranks : List Nat := ([32768,3] : List Nat)
    let k : Nat := rq req 7 1
    let n : Nat := rq req 10 2
    let a : Nat := rq req 16 8
    ranks = (List.range n).map (fun i => field (s.readTier a (2 * n)) (2 * i) 2) ∧
    s.homedTier k a (2 * n) = true ∧
    s.isPoisoned a (2 * n) = false ∧
    (∃ x ∈ ranks, 16384 ≤ x) := by decide +kernel
theorem witness_LinkConfigSetsNodePortsAndGroups_7 :
    let src : Src := .mailbox 0
    let req : List Byte := pick smpListByte 5 ([])
    let s : State := pick smpState 19 base
    Fronts s src 0x0601 req ∧
    rq req 0 1 = 3 ∧
    let ranks : List Nat := ([7,3] : List Nat)
    let k : Nat := rq req 7 1
    let n : Nat := rq req 10 2
    let a : Nat := rq req 16 8
    ranks = (List.range n).map (fun i => field (s.readTier a (2 * n)) (2 * i) 2) ∧
    s.homedTier k a (2 * n) = true ∧
    s.isPoisoned a (2 * n) = false ∧
    (∀ x ∈ ranks, x < 16384) ∧
    s.colGroup (rq req 4 1) = none ∧
    (∃ p ∈ s.groupPorts ranks, 262144 < (s.port p).colReserved + 16384) := by decide +kernel
theorem witness_LinkConfigSetsNodePortsAndGroups_8 :
    let src : Src := .mailbox 0
    let req : List Byte := pick smpListByte 5 ([])
    let s : State := pick smpState 5 base
    Fronts s src 0x0601 req ∧
    rq req 0 1 = 3 ∧
    let ranks : List Nat := ([7,3] : List Nat)
    let k : Nat := rq req 7 1
    let n : Nat := rq req 10 2
    let a : Nat := rq req 16 8
    ranks = (List.range n).map (fun i => field (s.readTier a (2 * n)) (2 * i) 2) ∧
    s.homedTier k a (2 * n) = true ∧
    s.isPoisoned a (2 * n) = false ∧
    (∀ x ∈ ranks, x < 16384) ∧
    s.colGroup (rq req 4 1) = none ∧
    (∀ p ∈ s.groupPorts ranks, (s.port p).colReserved + 16384 ≤ 262144) := by decide +kernel
theorem witness_LinkConfigSetsNodePortsAndGroups_9 :
    let src : Src := .mailbox 0
    let req : List Byte := pick smpListByte 11 ([])
    let s : State := pick smpState 11 base
    Fronts s src 0x0601 req ∧
    rq req 0 1 = 4 ∧
    rq req 4 1 = 0 := by decide +kernel
theorem witness_LinkConfigSetsNodePortsAndGroups_10 :
    let src : Src := .mailbox 0
    let req : List Byte := pick smpListByte 12 ([])
    let s : State := pick smpState 12 base
    Fronts s src 0x0601 req ∧
    rq req 0 1 = 4 ∧
    rq req 4 1 = 1 := by decide +kernel
/-- A port that PORT_DISABLE names, a running collective of the group that DELETE names. -/
theorem witness_LinkConfigSetsNodePortsAndGroups_11 :
    let s : State := { s0 with boot := { s0.boot with parison := { s0.boot.parison with portDisable := 1 } } }
    let u : State := s0.modFabric fun f => { f with running := [{ f := 0, slot := 0, desc := 9, group := 7, seq := 3, op := 1, digest := 0 }] }
    Fronts (withReq (.mailbox 0) (lc [(4,1),(2,0x7)]) s) (.mailbox 0) 0x0601 (lc [(4,1),(2,0x7)]) ∧
    Fronts (withReq (.mailbox 0) (lc [(4,4),(1,1),(1,7)]) u) (.mailbox 0) 0x0601 (lc [(4,4),(1,1),(1,7)]) ∧
    s.boot.parison.portDisable.getLsbD 0 = true ∧ (s.port 0).enabled = true ∧ u.colGroup 7 ≠ none ∧
    ∃ r ∈ u.fabric.running, r.group = 7 := by decide +kernel
end LinkConfigSetsNodePortsAndGroups
/-! Hypotheses of `Obligations.RouteUpdates` (RouteUpdatesHoldAndRelease). -/
namespace RouteUpdatesHoldAndRelease
def ru (ph cl n first : Nat) (es : List Nat) := mkReq 0x602 (bs ([(1,ph),(1,cl),(2,n),(2,first),(2,0)] ++ es.map fun e => (4,e)))
def rqs := [ru 0 3 2 10 [5,6], ru 0 3 0 10 [], ru 2 3 1 9 [7], ru 2 3 0 9 [], ru 1 3 2 10 [5,6], ru 1 3 1 10 [5], ru 1 2 2 10 [5,6], ru 1 3 2 11 [5,6], ru 1 3 0 10 []]
def h : HeldRoute := {classes := 3, first := 10, entries := [5,6], since := 4, done := true, src := .mailbox 0}
def w (x : Option HeldRoute) : State := {base with fabric := {held := x, routes := [(10,4),(12,7)]}, boot := {base.boot with licence := {tier := 2}}}
def smpListByte : List (String × (List Byte)) := rqs.map fun r => ("",r)
def smpState : List (String × (State)) := ([w none, w (some h), w (some {h with both := true}), w (some {h with entries := []})].flatMap fun x => RQ rqs x)
theorem witness_RouteUpdatesHoldAndRelease_1 :
    let src : Src := .mailbox 0
    let req : List Byte := pick smpListByte 0 ([])
    let s : State := pick smpState 9 base
    Fronts s src 0x0602 req ∧
    let both : Bool := false
    (rq req 0 1 = (if both then 2 else 0)) ∧
    s.fabric.held.isSome = true := by decide +kernel
theorem witness_RouteUpdatesHoldAndRelease_2 :
    let src : Src := .mailbox 0
    let req : List Byte := pick smpListByte 1 ([])
    let s : State := pick smpState 1 base
    Fronts s src 0x0602 req ∧
    let both : Bool := false
    (rq req 0 1 = (if both then 2 else 0)) ∧
    s.fabric.held = none ∧
    rq req 2 2 = 0 := by decide +kernel
theorem witness_RouteUpdatesHoldAndRelease_3 :
    let src : Src := .mailbox 0
    let req : List Byte := pick smpListByte 0 ([])
    let s : State := pick smpState 0 base
    Fronts s src 0x0602 req ∧
    let both : Bool := false
    (rq req 0 1 = (if both then 2 else 0)) ∧
    s.fabric.held = none ∧
    rq req 2 2 ≠ 0 := by decide +kernel
theorem witness_RouteUpdatesHoldAndRelease_4 :
    let src : Src := .mailbox 0
    let req : List Byte := pick smpListByte 4 ([])
    let s : State := pick smpState 4 base
    Fronts s src 0x0602 req ∧
    rq req 0 1 = 1 ∧
    s.fabric.held = none := by decide +kernel
theorem witness_RouteUpdatesHoldAndRelease_5 :
    let src : Src := .mailbox 0
    let req : List Byte := pick smpListByte 4 ([])
    let s : State := pick smpState 22 base
    Fronts s src 0x0602 req ∧
    rq req 0 1 = 1 ∧
    ∃ h, s.fabric.held = some h ∧
      (h.both = true ∨ h.classes ≠ BitVec.ofNat 8 (rq req 1 1) ∨ h.first ≠ rq req 4 2 ∨
          h.entries.length ≠ rq req 2 2) := by decide +kernel
theorem witness_RouteUpdatesHoldAndRelease_6 :
    let src : Src := .mailbox 0
    let req : List Byte := pick smpListByte 4 ([])
    let s : State := pick smpState 13 base
    Fronts s src 0x0602 req ∧
    rq req 0 1 = 1 ∧
    ∃ h, s.fabric.held = some h ∧
      h.both = false ∧
      h.done = true ∧
      h.classes = BitVec.ofNat 8 (rq req 1 1) ∧
      h.first = rq req 4 2 ∧
      h.entries = (List.range (rq req 2 2)).map (fun i => BitVec.ofNat 32 (rq req (8 + 4 * i) 4)) ∧
      s.fabric.waiting = [] := by decide +kernel
end RouteUpdatesHoldAndRelease
/-! Hypotheses of `Obligations.SynMessages` (LostPortsAndTimeAreRecorded). -/
namespace LostPortsAndTimeAreRecorded
def P (st : PortState) (d : Option DWord) : Port := { st, width := 8, enabled := true, downSince := d }
def fb (x : PortState) (d : Option DWord) : Fabric := { ports := [(0,P x d),(1,P .up none),(2,P .down (some 999999899000))], node := some 3, timeMaster := some 4, syn := [(0, some ⟨some 0,6,77,0⟩),(3,some ⟨none,4,78,0⟩)] }
def fbs := [fb .down (some 999999900000), fb .training (some 999999900001), fb .up (some 5), fb .down none]
def fbt := fbs.flatMap fun f => [f,{f with lastTimeAt := some 999999000000},{f with lastTimeAt := some 999999000001},{f with timeMaster := some 3},{f with syn := []}]
def smpState : List (String × (State)) := fbt.map fun f => ("",{base with fabric := f})
theorem witness_LostPortsAndTimeAreRecorded_1 :
    let p : PortId := 0
    let s : State := pick smpState 15 base
    (s.port p).downSince = none := by decide +kernel
theorem witness_LostPortsAndTimeAreRecorded_2 :
    let p : PortId := 0
    let s : State := pick smpState 5 base
    let t0 := ((s.port p).downSince).getD 0
    (s.port p).downSince = some t0 ∧
    (s.synJobs p = [] ∨ s.deviceTime.toNat < t0.toNat + 100000) := by decide +kernel
/-- A port that no job's group names. -/
theorem witness_LostPortsAndTimeAreRecorded_7 :
    let s : State := pick smpState 4 base
    (s.port 0).downSince.isSome = true ∧ s.synJobs 0 = [] := by decide +kernel
theorem witness_LostPortsAndTimeAreRecorded_3 :
    let p : PortId := 0
    let s : State := pick smpState 0 base
    let t0 := ((s.port p).downSince).getD 0
    (s.port p).downSince = some t0 ∧
    s.synJobs p = [77] ∧ s.jobCtx 77 = some 0 ∧ (s.ctx 0).st = .running ∧
    t0.toNat + 100000 ≤ s.deviceTime.toNat := by decide +kernel
theorem witness_LostPortsAndTimeAreRecorded_4 :
    let s : State := pick smpState 3 base
    (s.synGroup 0 = none ∨ s.isMaster = true) := by decide +kernel
theorem witness_LostPortsAndTimeAreRecorded_5 :
    let s : State := pick smpState 2 base
    ∃ g, s.synGroup 0 = some g ∧
      s.isMaster = false ∧
      let t0 := (s.fabric.lastTimeAt).getD 0
      s.fabric.lastTimeAt = some t0 ∧
      s.deviceTime.toNat < t0.toNat + 1000000 := by decide +kernel
theorem witness_LostPortsAndTimeAreRecorded_6 :
    let s : State := pick smpState 0 base
    ∃ g, s.synGroup 0 = some g ∧
      s.isMaster = false ∧
      (s.fabric.lastTimeAt = none ∨ ∃ t0, s.fabric.lastTimeAt = some t0 ∧
        t0.toNat + 1000000 ≤ s.deviceTime.toNat) ∧
      s.gafferUp = true := by decide +kernel
end LostPortsAndTimeAreRecorded
end Sys2Proof.Tests.Placement
end

