-- ==== Sys2Proof/Tests/Queues.lean ====
section
/-! SUPPORT. Queues: for the obligations about it, states and operands that meet the hypotheses of each clause. -/
open Sys2Proof Sys2Proof.Machine
namespace Sys2Proof.Tests.Queues
set_option Elab.async false
def bw (dest q port param valid cr : Nat) : Word := BitVec.ofNat 32 (dest + q*2^13 + port*2^17+param*2^20+valid*2^25+cr*2^26)
def en (nw port param src bind seq tag : Nat) : Entry := { words := ([0x11,0x22,0x3f800000,0x44] : List Word).take nw, nw, tag := BitVec.ofNat 16 tag, port := BitVec.ofNat 3 port, param := BitVec.ofNat 5 param, src, bind, seq := BitVec.ofNat 8 seq }
def r3 : Region := { base := 8192, size := 100, owner := 0xFFFF, circular := true, rhead := ⟨98, false⟩, head := ⟨98,false⟩, rtail := ⟨20,false⟩, tail := ⟨10,false⟩, cClaims := [{id := 3, words := 10, start := ⟨10,false⟩, who := .port 0 1}] }
def st0 : State := (base.modCore 0 fun x => { x with txData := [(0,7),(1,8),(2,9),(3,10)], binds := [(1, {word := bw 5 3 2 0 1 4, avail := 4, nextSeq := 255}), (2, {word := bw 5 2 4 3 1 4, avail := 0, nextSeq := 3, held := [⟨bw 1 2 2 7 1 3, false⟩]}), (31, {word := bw 5 3 2 0 1 4, avail := 3, nextSeq := 255, held := [⟨0, false⟩]}), (4, {word := bw 5 2 4 3 1 4, avail := 4, held := [⟨bw 1 2 2 7 1 3, true⟩, ⟨0, false⟩]})], queues := [(2, { vis := [en 3 2 5 5 1 3 77, en 1 0 0 5 1 4 78] }), (3, {vis := [en 4 3 3 5 9 3 77]}), (4, {vis := [en 2 1 3 5 9 3 77]}), (5, {vis := [en 1 4 3 5 9 3 77, en 1 4 4 5 5 5 5]}), (6, {chans := [⟨5,1,9⟩, ⟨1, 2, 0⟩]}), (7, {early := [en 2 2 3 5 9 3 77], chans := [⟨5, 9, 2⟩]})] }).setTile 0 { regions := [(3, r3)] }
def pk (core kind src bind seq q port param nw gen : Nat) (ctx : Nat := 0) : CtlPacket := { route := { destTile := BitVec.ofNat 9 (core/16), ctx := BitVec.ofNat 4 ctx, gen := BitVec.ofNat 12 gen}, header := BitVec.ofNat 48 (core%16+kind*2^4+src*2^7+bind*2^20+seq*2^25+q*2^33+port*2^37+param*2^40+(nw-1)*2^45), word0 := 5, tag := 9}
def smpEntry : List (String × (Entry)) := ((st0.core 0).queues.flatMap (·.2.vis)).map fun e => ("",e)
/-! Hypotheses of `Obligations.ChannelBindings` (BindingWriteCompletes). -/
namespace BindingWriteCompletes
theorem witness_BindingWriteCompletes_1 :
    let g : Agent := .net
    let c : CoreId := 0
    let i : BindId := 0
    let v : Word := (bw 5 3 2 0 1 4 : Word)
    let s : State := st0
    (g = .net ∨ g = .firmware) ∧
    v.toNat < 2 ^ 30 ∧
    ((s.core c).binding i).word ≠ v ∧
    s.bindRefused c v = false ∧
    bindValid v = true ∧
    ((s.core c).binding i).held = [] ∧
    (bindValid ((s.core c).binding i).word = true →
        ((s.core c).binding i).avail = bindCredits ((s.core c).binding i).word) ∧
    (bindValid ((s.core c).binding i).word = false ∨
            bindDest v ≠ bindDest ((s.core c).binding i).word ∨
            bindQueue v ≠ bindQueue ((s.core c).binding i).word) := by decide +kernel
theorem witness_BindingWriteCompletes_2 :
    let g : Agent := .net
    let c : CoreId := 0
    let i : BindId := 0
    let v : Word := (bw 513 2 2 0 1 8 : Word)
    let s : State := st0
    (g = .net ∨ g = .firmware) ∧
    v.toNat < 2 ^ 30 ∧
    ((s.core c).binding i).word ≠ v ∧
    s.bindRefused c v = true := by decide +kernel
theorem witness_BindingWriteCompletes_3 :
    let g : Agent := .net
    let c : CoreId := 0
    let i : BindId := 2
    let v : Word := 0
    let s : State := st0
    (g = .net ∨ g = .firmware) ∧
    v.toNat < 2 ^ 30 ∧
    ((s.core c).binding i).word ≠ v ∧
    s.bindRefused c v = false ∧
    ((s.core c).binding i).held ≠ [] ∧
    bindValid ((s.core c).binding i).word = true ∧
    ((s.core c).binding i).avail ≠ bindCredits ((s.core c).binding i).word ∧
    (s.core at0.core).canIssue = true ∧
    at0.core = c ∧
    (s.core at5.core).canIssue = true ∧
    tileOf at5.core = tileOf c ∧
    at5.core ≠ c := by decide +kernel
theorem witness_BindingWriteCompletes_4 :
    let g : Agent := .net
    let c : CoreId := 0
    let i : BindId := 0
    let v : Word := (bw 5 3 2 0 1 4 : Word)
    let s : State := st0
    (g = .net ∨ g = .firmware) ∧
    v.toNat < 2 ^ 30 ∧
    ((s.core c).binding i).word ≠ v ∧
    let a : At := at0
    (s.core a.core).canIssue = true ∧
    tileOf a.core = tileOf c ∧
    ((s.core c).binding i).held = [] ∧
    (bindValid ((s.core c).binding i).word = true →
        ((s.core c).binding i).avail = bindCredits ((s.core c).binding i).word) := by decide +kernel
end BindingWriteCompletes
/-! Hypotheses of `Obligations.ChannelBindings` (HeldBindingWriteTakesEffect). -/
namespace HeldBindingWriteTakesEffect
def st0w : State := st0.modCore 0 fun x => { x with wait := some (.bindWrite 4), pc := 0x20, waitShort := true }
theorem witness_HeldBindingWriteTakesEffect_1 :
    let c : CoreId := 0
    let i : BindId := 4
    let s : State := st0w
    let h : HeldBind := ⟨bw 1 2 2 7 1 3, true⟩
    ((s.core c).binding i).held = [h, ⟨0, false⟩] ∧
    ((s.core c).binding i).avail = bindCredits ((s.core c).binding i).word ∧
    bindValid h.word = true ∧
    h.own = true ∧
    (s.core c).wait = some (.bindWrite i) := by decide +kernel
theorem witness_HeldBindingWriteTakesEffect_2 :
    let c : CoreId := 0
    let i : BindId := 2
    let s : State := st0
    ((s.core c).binding i).held = [⟨bw 1 2 2 7 1 3, false⟩] ∧
    bindValid ((s.core c).binding i).word = true ∧
    ((s.core c).binding i).avail ≠ bindCredits ((s.core c).binding i).word := by decide +kernel
theorem witness_HeldBindingWriteTakesEffect_3 :
    let c : CoreId := 0
    let i : BindId := 2
    let s : State := st0.modCore 0 fun x => { x with
      binds := [(2, { word := 0, avail := 0, held := [⟨bw 1 2 2 7 1 3, false⟩] })] }
    ((s.core c).binding i).held = [⟨bw 1 2 2 7 1 3, false⟩] ∧
    bindValid ((s.core c).binding i).word = false := by decide +kernel
end HeldBindingWriteTakesEffect
/-! Hypotheses of `Obligations.ActorFiring` (TokensAreIndexed). -/
namespace TokensAreIndexed
/-- Actor 2 of core 0 with the inputs queue 7 and queue 8, in order, and a state with its matching store. -/
def acts (ms : List MsEntry) (un : List Token) : State :=
  (base.modCore 0 fun x => { x with
    df := { act := [(2, 0x40000180#32)], ms, unindexed := un, actNext := [(2, 77)] } })
def full : List MsEntry := (List.range 256).map fun i => { actor := 3, tag := BitVec.ofNat 16 i, tokens := [] }
def tk : Token := { queue := 7, uid := 9, tag := 9, words := [5], tagOnly := false }
def p7 : CtlPacket := pk 0 0 5 1 0 7 0 0 1 3
def m9 (fired : Bool) (q : Nat) : MsEntry := { actor := 2, tag := 9, tokens := [{ tk with queue := q }], fired }
theorem witness_TokensAreIndexed_1 :
    let p : CtlPacket := p7
    let c : Nat := hdrCore p
    let q : Nat := bits p.header.toNat 36 33
    ∀ s ∈ [acts [] [], acts full [], acts [m9 false 8] [], acts [m9 false 7] [], acts [m9 true 8] []],
      let v : InQueue := (s.core c).queue q
      (s.core c).wait = none ∧
      v.early = [] ∧
      (∀ x ∈ v.vis, x.spill = none) ∧
      (s.core c).actorOf q = some 2 ∧
      s.fate p.route = .deliver ∧
      v.accepts (entryOf p).src (entryOf p).bind = true ∧
      (entryOf p).isScalar = true ∧
      (entryOf p).tag = 9 ∧
      ((v.chans.find? fun k => k.src == (entryOf p).src && k.bind == (entryOf p).bind).map (·.expect)).getD 0
        = (entryOf p).seq := by decide +kernel
theorem witness_TokensAreIndexed_2 :
    (((acts [] []).core 0).df.ms.length < 256 ∧
      ∀ m ∈ ((acts [] []).core 0).df.ms, m.actor = 2 → m.tag ≠ 9) ∧
    (256 ≤ ((acts full []).core 0).df.ms.length ∧
      ∀ m ∈ ((acts full []).core 0).df.ms, m.actor = 2 → m.tag ≠ 9) ∧
    (((acts [m9 false 8] []).core 0).df.ms = [m9 false 8] ∧
      (m9 false 8).actor = 2 ∧ (m9 false 8).tag = 9 ∧ (m9 false 8).fired = false ∧
      ∀ x ∈ (m9 false 8).tokens, x.queue ≠ 7) ∧
    (((acts [m9 false 7] []).core 0).df.ms = [m9 false 7] ∧ ∃ x ∈ (m9 false 7).tokens, x.queue = 7) ∧
    (((acts [m9 true 8] []).core 0).df.ms = [m9 true 8] ∧ (m9 true 8).fired = true) := by decide +kernel
theorem witness_TokensAreIndexed_3 :
    let a : At := at0
    let v : Word := 0x80000002
    let m : MsEntry := { actor := 2, tag := 9, tokens := [], fired := true }
    let s : State := acts [m] [tk]
    (s.core a.core).canIssue = true ∧
    v.getLsbD 31 = true ∧
    (s.core a.core).df.ms = [m] ∧
    m.fired = true ∧
    m.tokens = [] ∧
    (s.core a.core).df.unindexed = [tk] ∧
    (s.core a.core).actorOf tk.queue = some 2 := by decide +kernel
end TokensAreIndexed
/-! Hypotheses of `Obligations.ChannelMessages` (SendCompletes). -/
namespace SendCompletes
def st0s : State := st0.modCore 0 fun x => { x with wait := some (.send 0x00070061), pc := 0x20, waitShort := true }
def tr : Transit := { net := .control, at_ := (st0.transOf 0).phys, blocked := true, pkt := .control dCtl }
def st0b : State := { st0 with net := { sources := [tr] } }
theorem witness_SendCompletes_1 :
    let a : At := at0
    let v : Word := 0x00070061
    let s : State := st0
    (s.core a.core).canIssue = true ∧
    ∃ k, s.ownerOfCore a.core = some k ∧
      k < 16 ∧
      bindValid ((s.core a.core).binding (txBind v)).word = true ∧
      1 ≤ txNw v ∧
      txNw v ≤ 4 ∧
      ((s.core a.core).binding (txBind v)).avail ≠ 0 ∧
      s.injectBlocked (tileOf a.core) = false := by decide +kernel
theorem witness_SendCompletes_2 :
    let a : At := at0
    let v : Word := 0x00070061
    let s : State := st0b
    (s.core a.core).canIssue = true ∧
    ∃ k, s.ownerOfCore a.core = some k ∧
      k < 16 ∧
      bindValid ((s.core a.core).binding (txBind v)).word = true ∧
      1 ≤ txNw v ∧
      txNw v ≤ 4 ∧
      (((s.core a.core).binding (txBind v)).avail = 0 ∨ s.injectBlocked (tileOf a.core) = true) := by decide +kernel
theorem witness_SendCompletes_3 :
    let c : CoreId := 0
    let v : Word := 0x00070061
    let s : State := st0s
    (s.core c).run = .running ∧
    (s.core c).wait = some (.send v) ∧
    ∃ k, s.ownerOfCore c = some k ∧
      k < 16 ∧
      1 ≤ txNw v ∧
      txNw v ≤ 4 ∧
      ((s.core c).binding (txBind v)).avail ≠ 0 ∧
      s.injectBlocked (tileOf c) = false := by decide +kernel
end SendCompletes
/-! Hypotheses of `Obligations.ChannelMessages` (ChannelMessageArrives). -/
namespace ChannelMessageArrives
theorem witness_ChannelMessageArrives_1 :
    let p : CtlPacket := (pk 0 0 5 1 9 6 2 0 1 3 : CtlPacket)
    let s : State := st0
    let c : Nat := hdrCore p
    let q : Nat := bits p.header.toNat 36 33
    let v : InQueue := (s.core c).queue q
    (s.core c).wait = none ∧
    (∀ e ∈ v.vis ++ v.early, e.spill = none) ∧
    (s.core c).actorOf q = none ∧
    s.fate p.route = .deliver ∧
    v.accepts (entryOf p).src (entryOf p).bind = true ∧
    v.early = [] := by decide +kernel
theorem witness_ChannelMessageArrives_2 :
    let p : CtlPacket := (pk 0 0 5 1 9 6 2 0 1 4 : CtlPacket)
    let s : State := st0
    let c : Nat := hdrCore p
    let q : Nat := bits p.header.toNat 36 33
    let v : InQueue := (s.core c).queue q
    (s.core c).wait = none ∧
    (∀ e ∈ v.vis ++ v.early, e.spill = none) ∧
    (s.core c).actorOf q = none ∧
    s.fate p.route ≠ .deliver := by decide +kernel
end ChannelMessageArrives
/-! Hypotheses of `Obligations.ChannelMessages` (CreditReturns). -/
namespace CreditReturns
theorem witness_CreditReturns_1 :
    let p : CtlPacket := (pk 0 0 5 1 9 6 2 0 1 3 : CtlPacket)
    let s : State := st0
    s.fate p.route = .deliver := by decide +kernel
end CreditReturns
/-! Hypotheses of `Obligations.ChannelQueues` (QueueHeadLoadAndPop). -/
namespace QueueHeadLoadAndPop
theorem witness_QueueHeadLoadAndPop_1 :
    let a : At := at0
    let q : QueueId := 2
    let s : State := st0
    (s.core a.core).canIssue = true ∧
    let e : Entry := pick smpEntry 0 dEntry
    let rest : List Entry := ([en 1 0 0 5 1 4 78] : List Entry)
    ((s.core a.core).queue q).vis = e :: rest ∧
    let v : Word := 2
    bits v.toNat 3 0 = q ∧
    (s.core a.core).actorOf q = none ∧
    e.spill = none ∧
    (s.region (tileOf a.core) e.param.toNat).portClaim (.port a.core q) = none ∧
    e.src < 8192 ∧
    e.bind < 32 ∧
    ∃ k, s.ownerOfCore a.core = some k ∧
      k < 16 := by decide +kernel
theorem witness_QueueHeadLoadAndPop_2 :
    let a : At := at0
    let q : QueueId := 6
    let s : State := st0
    (s.core a.core).canIssue = true ∧
    ((s.core a.core).queue q).vis = [] ∧
    let v : Word := 6
    bits v.toNat 3 0 = q ∧
    (s.core a.core).actorOf q = none := by decide +kernel
def rw3 (p w : List Claim) : State := st0.setTile 0 { regions := [(3, { r3 with pClaims := p, pWait := w, cClaims := [] })] }
def w3 : Claim := { id := 5, words := 4, start := ⟨98, false⟩, who := .port 0 3 }
theorem witness_QueueHeadLoadAndPop_3 :
    let a : At := at0
    let q : QueueId := 3
    let e : Entry := en 4 3 3 5 9 3 77
    let v : Word := 3
    ∀ s ∈ [rw3 [] [w3], rw3 [w3] []],
      (s.core a.core).canIssue = true ∧
      (s.ownerOfCore a.core).isSome = true ∧
      ((s.core a.core).queue q).vis = [e] ∧
      bits v.toNat 3 0 = q ∧
      (s.core a.core).actorOf q = none ∧
      e.isStored = true ∧
      e.spill = none ∧
      w3.who = .port a.core q ∧
      (((s.region (tileOf a.core) e.param.toNat).pClaims = [] ∧
          (s.region (tileOf a.core) e.param.toNat).pWait = [w3]) ∨
        ((s.region (tileOf a.core) e.param.toNat).pClaims = [w3] ∧
          w3.words = e.nw ∧
          e.words.length = e.nw ∧
          e.nw ≤ (s.region (tileOf a.core) e.param.toNat).size ∧
          (s.region (tileOf a.core) e.param.toNat).circular = true ∧
          (s.region (tileOf a.core) e.param.toNat).base + (s.region (tileOf a.core) e.param.toNat).size ≤ 786432 ∧
          Cells.wf s.mem = true)) := by decide +kernel
end QueueHeadLoadAndPop
/-! Hypotheses of `Obligations.ChannelQueues` (PortEntriesAreTaken). -/
namespace PortEntriesAreTaken
theorem witness_PortEntriesAreTaken_1 :
    let c : CoreId := 0
    let q : QueueId := 3
    let s : State := st0
    let e : Entry := pick smpEntry 2 dEntry
    let rest : List Entry := []
    ((s.core c).queue q).vis = e :: rest ∧
    (s.core c).run = .running ∧
    e.spill = none ∧
    e.isStored = true ∧
    (s.core c).actorOf q = none ∧
    let n : Nat := e.param.toNat
    let r : Region := s.region (tileOf c) n
    s.usable c n = true ∧
    r.circular = true ∧
    e.nw ≤ r.size ∧
    r.base + r.size ≤ 786432 ∧
    Cells.wf s.mem = true ∧
    e.words.length = e.nw ∧
    r.pClaims = [] ∧
    r.pWait = [] ∧
    r.held = [] ∧
    e.nw + fill r.size r.rhead r.tail ≤ r.size := by decide +kernel
theorem witness_PortEntriesAreTaken_2 :
    let c : CoreId := 0
    let q : QueueId := 5
    let s : State := st0
    let e : Entry := pick smpEntry 4 dEntry
    let rest : List Entry := ([en 1 4 4 5 5 5 5] : List Entry)
    ((s.core c).queue q).vis = e :: rest ∧
    (s.core c).run = .running ∧
    e.spill = none ∧
    e.port = 4 ∧
    (∀ i ∈ (s.core c).btx, e.param.toNat % 16 ∉ i.targets) := by decide +kernel
end PortEntriesAreTaken
end Sys2Proof.Tests.Queues
end

