-- ==== Sys2Proof/Tests/Regions.lean ====
section
/-! SUPPORT. Regions: for the obligations about it, states and operands that meet the hypotheses of each clause. -/
open Sys2Proof Sys2Proof.Machine
namespace Sys2Proof.Tests.Regions
set_option Elab.async false
def rg (base size : Nat) (c : Bool := false) (own : Nat := 0xFFFF): Region := { base, size, owner := BitVec.ofNat 16 own, circular := c, ctx := 0 }
def cl (id w : Nat) (done : Bool := false) (who : Claimant := .engine 0 0) : Claim := { id, words := w, done, who }
def rH : Region := { rg 100 50 with held := [{reg := .size, value := 60, privileged := true}] }
def rHH : Region := { rg 100 50 with held := [{reg := .owner, value := 0x12, privileged := true}]}
def rH2 : Region := { rg 100 50 with held := [{reg := .size, value := 0xBFFFF, privileged := true}, {reg := .base, value := 0, privileged := true} ], head := ⟨5,false⟩ }
/-- a region behind a held write `g` of value `v`, stamped 8 -/
def hw (g : RgnReg) (v : Word) : Region := { rg 100 50 with held := [{ reg := g, value := v, privileged := false, stamp := 8 }] }
def rC : Region := { rg 8192 100 true with pWait := [cl 7 20, cl 8 90], pClaims := [cl 1 10 true, cl 2 20 false (.spill 3)], cClaims := [cl 3 5 false (.port 0 1)], cWait := [cl 9 4], head := ⟨30,false⟩, rhead := ⟨60,false⟩, tail := ⟨10,false⟩, rtail := ⟨15,false⟩ }
def rC2 : Region := { rg 8192 100 true with cWait := [cl 9 80], head := ⟨5,true⟩, rhead := ⟨5,true⟩, tail := ⟨20,false⟩, rtail := ⟨95,false⟩, pWait := [cl 6 30], cClaims := [cl 4 80 true, cl 5 0 true] }
def t0 : Tile := { regions := [(0, rg 0 10), (1, rg 0 1024), (2, rg 2048 4096), (3, rC), (4, rH), (8,rHH), (9, hw .base 0x100000), (10, hw .head 7), (11, hw .tail 0x100007), (12, hw .base 786400), (13, hw .head 50), (14, { hw .tail 50 with pWait := [cl 9 4], cWait := [cl 8 4] }), (15, { rg 0 50 with cClaims := [cl 1 4] }), (16, { rg 0 50 with pWait := [cl 1 4] }), (17, { rg 0 50 with pClaims := [cl 1 4] }), (18, { rg 0 50 with cWait := [cl 1 4] }), (19, { rC with held := rHH.held }), (5, rH2), (6, rC2), (7, rg 0 0), (31, rg 786400 32 false 1)], resv := [(0, 64)] }
def st0 : State := { (base.modCore 0 fun x => { x with x := [(1, 0x89ABCDEF), (2, 5)] }).setTile 0 t0 with
  mem := [(spadBase, 3), (spadBase + 1, 0xFF), (spadBase+256, 0xFE), (spadBase+ 257, 7), (spadBase+0x2FFFFF, 0x80)], spadPz := [(5, 9)] }
/-! Hypotheses of `Obligations.ScratchpadAccess` (ScratchpadAccessCompletesOrTraps). -/
namespace ScratchpadAccessCompletesOrTraps
def smpWord : List (String × (Word)) := ns ([0x80000000, 0x80000100, 0x80000102, 0x80000103,0x80001400])
theorem witness_ScratchpadAccessCompletesOrTraps_1 :
    let a : At := at0
    let w : Width := .byte
    let addr : Word := pick smpWord 0 0
    let s : State := st0
    let off : Nat := 0
    let n : Nat := widthBytes w
    ((s.core a.core).canIssue = true ∧
      addr.toNat = 0x80000000 + off ∧
      off + n ≤ 0x300000 ∧
      off % n = 0 ∧
      s.coreReaches a.core off n = true ∧
      Cells.wf s.mem = true) ∧
    QuietTile s a.core :=
  ⟨by decide +kernel, fun _ _ => get_all (α := Core) (p := fun x => x.btx = []) (by decide +kernel) rfl⟩
theorem witness_ScratchpadAccessCompletesOrTraps_2 :
    let a : At := at0
    let w : Width := .byte
    let addr : Word := pick smpWord 4 0
    let s : State := st0
    let off : Nat := 5120
    (s.core a.core).canIssue = true ∧
    addr.toNat = 0x80000000 + off ∧
    let n : Nat := widthBytes w
    off + n ≤ 0x300000 ∧
    off % n = 0 ∧
    s.coreReaches a.core off n = false ∧
    4 ≤ (s.core a.core).csr.mtvec.toNat ∧
    (s.core a.core).inTrap = false := by decide +kernel
end ScratchpadAccessCompletesOrTraps
/-! Hypotheses of `Obligations.ScratchpadAccess` (ScratchpadAtomicCompletes). -/
namespace ScratchpadAtomicCompletes
def adrs : List Nat := [0x80000000, 0x80000100, 0x80000102, 0x80000103,0x80001400, 0x802FFFFC, 0x802FFFFF, 0x80004000]
def smpWord : List (String × (Word)) := ns (adrs.map (BitVec.ofNat 32))
def smpNat : List (String × (Nat)) := ns (adrs.map (· - 0x80000000)) ++ ns [1,2,3, 4]
theorem witness_ScratchpadAtomicCompletes_1 :
    let a : At := at0
    let addr : Word := pick smpWord 0 0
    let s : State := st0
    let off : Nat := pick smpNat 0 0
    ((s.core a.core).canIssue = true ∧
      addr.toNat = 0x80000000 + off ∧
      off + 4 ≤ 0x300000 ∧
      off % 4 = 0 ∧
      s.coreReaches a.core off 4 = true ∧
      Cells.wf s.mem = true) ∧
    QuietTile s a.core :=
  ⟨by decide +kernel, fun _ _ => get_all (α := Core) (p := fun x => x.btx = []) (by decide +kernel) rfl⟩
end ScratchpadAtomicCompletes
/-! Hypotheses of `Obligations.TileRegionWrites` (TileWriteAgents). -/
namespace TileWriteAgents
theorem witness_TileWriteAgents_1 :
    let s : State := st0
    let t : TileId := 0
    let g : Agent := .core at0
    let a : At := at0
    g = .core a ∧
    (s.core a.core).canIssue = true ∧
    tileOf a.core = t := by decide +kernel
theorem witness_TileWriteAgents_2 :
    let s : State := st0
    let t : TileId := 32
    let g : Agent := .core at0
    let a : At := at0
    g = .core a ∧
    ((s.core a.core).canIssue = false ∨ tileOf a.core ≠ t) := by decide +kernel
theorem witness_TileWriteAgents_3 :
    let g : Agent := .net
    (g = .net ∨ g = .firmware) := by decide +kernel
theorem witness_TileWriteAgents_4 :
    let g : Agent := .debug
    g = .debug := by decide +kernel
theorem witness_TileWriteAgents_5 :
    let g : Agent := .host 3
    let h : FnId := 3
    (g = .host h ∨ g = .bmc) := by decide +kernel
end TileWriteAgents
/-! Hypotheses of `Obligations.TileRegionWrites` (RegionWritesComplete). -/
namespace RegionWritesComplete
theorem witness_RegionWritesComplete_1 :
    let t : TileId := 0
    let n : RegionId := 0
    let s : State := st0
    let r : Region := s.region t n
    r.held = [] ∧
    s.btxNames t n = false ∧
    r.pClaims = [] ∧
    r.cClaims = [] ∧
    r.pWait = [] ∧
    r.cWait = [] := by decide +kernel
end RegionWritesComplete
/-! Hypotheses of `Obligations.TileRegionWrites` (RegionWritesRefusedOrHeld). -/
namespace RegionWritesRefusedOrHeld
def st1 : State := st0.modCore 0 fun x => { x with btx := [{ id := 0, op := .vred 0 1 0 false, td1 := BitVec.ofNat 128 (1*2^20), td2 := BitVec.ofNat 128 (4*2^20)}] }
theorem witness_RegionWritesRefusedOrHeld_1 :
    let t : TileId := 0
    let n : RegionId := 0
    let v : Word := 0xC0000
    let s : State := st0
    let r : Region := s.region t n
    r.held = [] ∧
    (786432 < bits v.toNat 19 0 + r.size ∨ 786431 < bits v.toNat 19 0) := by decide +kernel
theorem witness_RegionWritesRefusedOrHeld_2 :
    let t : TileId := 0
    let n : RegionId := 2
    let v : Word := 0xC0000
    let s : State := st0
    let r : Region := s.region t n
    r.held = [] ∧
    786432 < r.base + bits v.toNat 19 0 := by decide +kernel
theorem witness_RegionWritesRefusedOrHeld_3 :
    let t : TileId := 0
    let n : RegionId := 0
    let v : Word := 0xC0000
    let s : State := st0
    let r : Region := s.region t n
    r.held = [] ∧
    r.size ≠ 0 ∧
    r.size ≤ bits v.toNat 19 0 := by decide +kernel
theorem witness_RegionWritesRefusedOrHeld_4 :
    let t : TileId := 0
    let n : RegionId := 1
    let v : Word := 0
    let s : State := st1
    let r : Region := s.region t n
    r.held = [] ∧
    bits v.toNat 19 0 ≤ 786431 ∧
    bits v.toNat 19 0 + r.size ≤ 786432 ∧
    (s.btxNames t n = true ∨ r.pClaims ≠ [] ∨ r.cClaims ≠ [] ∨ r.pWait ≠ [] ∨ r.cWait ≠ []) := by decide +kernel
/-- Each kind of work alone holds a write, also one by a store of a core of the tile. -/
theorem witness_RegionWritesRefusedOrHeld_5 :
    let t : TileId := 0
    let s : State := st0
    let v : Word := 40
    (s.core at0.core).canIssue = true ∧ tileOf at0.core = t ∧
    (s.region t 17).pClaims ≠ [] ∧ (s.region t 15).cClaims ≠ [] ∧ (s.region t 16).pWait ≠ [] ∧
    (s.region t 18).cWait ≠ [] ∧
    ∀ n ∈ ([15, 16, 17, 18] : List RegionId),
      (s.region t n).held = [] ∧ s.btxNames t n = false ∧ bits v.toNat 19 0 ≤ 786431 ∧
      bits v.toNat 19 0 + (s.region t n).size ≤ 786432 ∧ (s.region t n).base + bits v.toNat 19 0 ≤ 786432 ∧
      bits v.toNat 19 0 < (s.region t n).size := by decide +kernel
theorem witness_RegionWritesRefusedOrHeld_6 :
    let t : TileId := 0
    (st1.region t 1).held = [] ∧ st1.btxNames t 1 = true ∧ (st0.region t 4).held ≠ [] ∧
    (st0.region t 15).held = [] ∧ st0.btxNames t 15 = false := by decide +kernel
end RegionWritesRefusedOrHeld
/-! Hypotheses of `Obligations.RegionClaims` (HeldRegionWriteReleases). -/
namespace HeldRegionWriteReleases
def smpHeldRgn : List (String × (HeldRgn)) := (rH.held ++ rHH.held ++ rH2.held).map fun v => ("", v)
theorem witness_HeldRegionWriteReleases_1 :
    let t : TileId := 0
    let n : RegionId := 4
    let s : State := st0
    let h : HeldRgn := pick smpHeldRgn 0 dHeld
    let rest : List HeldRgn := []
    let r : Region := s.region t n
    r.held = h :: rest ∧
    s.btxNames t n = false ∧
    r.pClaims = [] ∧
    r.cClaims = [] ∧
    r.pWait = [] ∧
    r.cWait = [] ∧
    h.reg = .size ∧
    r.base + bits h.value.toNat 19 0 ≤ 786432 ∧
    bits h.value.toNat 19 0 ≠ r.size := by decide +kernel
theorem witness_HeldRegionWriteReleases_2 :
    let t : TileId := 0
    let n : RegionId := 5
    let s : State := st0
    let h : HeldRgn := pick smpHeldRgn 2 dHeld
    let rest : List HeldRgn := (rH2.held.drop 1 : List HeldRgn)
    let r : Region := s.region t n
    r.held = h :: rest ∧
    s.btxNames t n = false ∧
    r.pClaims = [] ∧
    r.cClaims = [] ∧
    r.pWait = [] ∧
    r.cWait = [] ∧
    h.reg = .size ∧
    786432 < r.base + bits h.value.toNat 19 0 := by decide +kernel
theorem witness_HeldRegionWriteReleases_3 :
    let t : TileId := 0
    let n : RegionId := 8
    let s : State := st0
    let h : HeldRgn := pick smpHeldRgn 1 dHeld
    let rest : List HeldRgn := []
    let r : Region := s.region t n
    r.held = h :: rest ∧
    s.btxNames t n = false ∧
    r.pClaims = [] ∧
    r.cClaims = [] ∧
    r.pWait = [] ∧
    r.cWait = [] ∧
    h.reg = .owner := by decide +kernel
/-- BASE, HEAD and TAIL, applied and refused; region 14 has claims that came after the write. -/
theorem witness_HeldRegionWriteReleases_4 :
    let t : TileId := 0
    let s : State := st0
    (∀ n ∈ ([9, 10, 11, 12, 13, 14] : List RegionId), ∃ h ∈ (s.region t n).held,
      (s.region t n).held = h :: [] ∧ s.btxNames t n = false ∧ h.reg ≠ .owner ∧
      (s.region t n).pClaims = [] ∧ (s.region t n).cClaims = [] ∧
      (∀ k ∈ (s.region t n).pWait, h.stamp ≤ k.id) ∧ ∀ k ∈ (s.region t n).cWait, h.stamp ≤ k.id) ∧
    ((s.region t 9).held.map fun h => (h.reg, bits h.value.toNat 19 0, h.value.getLsbD 20)) = [(.base, 0, true)] ∧
    ((s.region t 12).held.map fun h => (h.reg, bits h.value.toNat 19 0)) = [(.base, 786400)] ∧
    ((s.region t 10).held.map fun h => (h.reg, bits h.value.toNat 19 0)) = [(.head, 7)] ∧
    ((s.region t 13).held.map fun h => (h.reg, bits h.value.toNat 19 0)) = [(.head, 50)] ∧
    ((s.region t 11).held.map fun h => (h.reg, bits h.value.toNat 19 0)) = [(.tail, 7)] ∧
    ((s.region t 14).held.map fun h => (h.reg, bits h.value.toNat 19 0)) = [(.tail, 50)] := by decide +kernel
end HeldRegionWriteReleases
/-! Hypotheses of `Obligations.RegionClaims` (ClaimsGrantAndCommitInOrder). -/
namespace ClaimsGrantAndCommitInOrder
/-- A held OWNER write stops no claim. -/
theorem witness_ClaimsGrantAndCommitInOrder_5 :
    let r : Region := st0.region 0 19
    r.held ≠ [] ∧ (∀ h ∈ r.held, h.reg = .owner) ∧ r.pWait = cl 7 20 :: rC.pWait.drop 1 ∧ r.cWait = cl 9 4 :: [] ∧
    r.pClaims.length < 16 ∧ r.cClaims.length < 16 ∧ 20 + fill r.size r.rhead r.tail ≤ r.size ∧
    4 ≤ fill r.size r.head r.rtail := by decide +kernel
def smpClaim : List (String × (Claim)) := (rC.pWait ++ rC.pClaims ++ rC.cClaims ++ rC.cWait ++ rC2.pWait ++ rC2.pClaims ++ rC2.cClaims ++ rC2.cWait).map fun v => ("", v)
def smpNat : List (String × (Nat)) := ns (List.range 10)
theorem witness_ClaimsGrantAndCommitInOrder_1 :
    let t : TileId := 0
    let n : RegionId := 3
    let s : State := st0
    let k : Claim := pick smpClaim 0 dClaim
    let rest : List Claim := (rC.pWait.drop 1 : List Claim)
    let r : Region := s.region t n
    r.held = [] ∧
    r.pWait = k :: rest ∧
    r.pClaims.length < 16 ∧
    k.words + fill r.size r.rhead r.tail ≤ r.size := by decide +kernel
theorem witness_ClaimsGrantAndCommitInOrder_2 :
    let t : TileId := 0
    let n : RegionId := 3
    let s : State := st0
    let k : Claim := pick smpClaim 5 dClaim
    let rest : List Claim := []
    let r : Region := s.region t n
    r.held = [] ∧
    r.cWait = k :: rest ∧
    r.cClaims.length < 16 ∧
    k.words ≤ fill r.size r.head r.rtail := by decide +kernel
theorem witness_ClaimsGrantAndCommitInOrder_3 :
    let t : TileId := 0
    let n : RegionId := 3
    let id : Nat := pick smpNat 1 0
    let s : State := st0
    let k : Claim := pick smpClaim 2 dClaim
    let r : Region := s.region t n
    (k.done = true ∨ (∃ e i, k.who = .engine e i ∧ (s.place e i).rowsDone = true ∧
      (s.place e i).reads = [] ∧ (s.place e i).writes = []) ∨ ∃ c, k.who = .spill c) ∧
    r.pClaims.find? (·.id == id) = some k :=
  ⟨.inl (by decide +kernel), by decide +kernel⟩
theorem witness_ClaimsGrantAndCommitInOrder_4 :
    let t : TileId := 0
    let n : RegionId := 6
    let id : Nat := pick smpNat 4 0
    let s : State := st0
    let k : Claim := pick smpClaim 7 dClaim
    let r : Region := s.region t n
    (k.done = true ∨ (∃ e i, k.who = .engine e i ∧ (s.place e i).rowsDone = true ∧
      (s.place e i).reads = [] ∧ (s.place e i).writes = []) ∨ ∃ c, k.who = .spill c) ∧
    r.cClaims.find? (·.id == id) = some k :=
  ⟨.inl (by decide +kernel), by decide +kernel⟩
end ClaimsGrantAndCommitInOrder
end Sys2Proof.Tests.Regions
end

