-- ==== Sys2Proof/Tests/Slice0.lean ====
section
/-! SUPPORT. Small tests: an operand out of range is refused by `Instr.wf`, and the spec's own worked
examples come out as the spec says. The expected values are the spec's. -/
open Sys2Proof Sys2Proof.Machine
namespace Sys2Proof.Tests

/-! ### Ill-formed commands -/

theorem test_wf_flit_length : (Instr.flit 0 [0]).wf = false := by decide
theorem test_wf_link_packet_len : (Instr.linkPacketReceive 0 { len := 1 }).wf = false := by decide
theorem test_wf_link_packet_size :
    (Instr.linkPacketReceive 0 { len := 513, payload := List.replicate 513 0 }).wf = false := by decide +kernel
theorem test_wf_bulk_bytes : (Instr.atomicReq { bytes := 4, data := [0] }).wf = false := by decide
theorem test_wf_bulk_size :
    (Instr.atomicReq { bytes := 600, data := List.replicate 600 0 }).wf = false := by decide +kernel
theorem test_wf_store_addr : (Instr.sectorStoreRequest { ctx := 0, gen := 0, addr := 2 ^ 48, len := 8 }).wf = false := by
  decide
theorem test_wf_store_len : (Instr.sectorStoreRequest { ctx := 0, gen := 0, addr := 0, len := 513 }).wf = false := by
  decide
theorem test_wf_store_data :
    (Instr.sectorStoreRequest { ctx := 0, gen := 0, addr := 0, data := some (List.replicate 513 0) }).wf = false := by
  decide +kernel
theorem test_wf_patrol_line : (Instr.patrolScrub (2 ^ 41) .clean).wf = false := by decide
theorem test_wf_repair_granule : (Instr.rowRepair 0 (2 ^ 27) true).wf = false := by decide
theorem test_wf_zero_granule : (Instr.backgroundZeroGranule (2 ^ 36)).wf = false := by decide
theorem test_wf_zero_unit : (Instr.backgroundZeroTile 0 (.spad 3072)).wf = false := by decide
theorem test_wf_col_data :
    (Instr.colData 0 { len := 1 } { group := 0, rank := 0, seq := 0, digest := 0 }).wf = false := by decide
theorem test_wf_codeword : (Instr.codeword 0 0 { units := [] }).wf = false ∧
    (Instr.codeword 0 0 { units := List.replicate 10 (false, [0]) }).wf = false := by decide
theorem test_wf_bar2_read : (Instr.bar2Read 0 0 0).wf = false ∧ (Instr.bar2Read 0 0 4097).wf = false := by decide
theorem test_wf_bar2_write : (Instr.bar2Write 0 0 []).wf = false := by decide
theorem test_wf_smbus_block : (Instr.smbusBlockWrite 0 0 (List.replicate 33 0) none 0).wf = false := by decide
theorem test_wf_mctp : (Instr.mctpMessage (List.replicate 257 0)).wf = false := by decide +kernel
theorem test_wf_descriptor : (Instr.descriptorFetch 0 0 []).wf = false := by decide
theorem test_wf_bcnt : (Instr.tilBcntWrite .net 0 0 true 0 (2 ^ 32)).wf = false := by decide
theorem test_wf_bist : (Instr.diagBistRun .bmc [0, 0, 0, 0, 0]).wf = false := by decide

/-! ### Worked examples of the spec -/

/-- 02, cancellation between large partial sums, EXACT with A = 0: 7 × 2⁻¹¹ is 7 × 2⁷⁷ units, no flag. -/
theorem test_exact_cancellation :
    exactTerm 0 0 (termAdd (.num 200704 0) (termAdd (.num 14 (-12)) (.num (-200704) 0)))
      = (BitVec.ofNat 128 (7 * 2 ^ 77), {}) := by decide +kernel

/-- 02, the same: ACM.STORE to FP32 writes 0x3B60_0000. -/
theorem test_exact_cancellation_store :
    toFloat fmtFP32 .rne (elemValue 1 0 (BitVec.ofNat 128 (7 * 2 ^ 77))) = (0x3B600000, false) := by decide +kernel

/-- 02, the same in GROUP16 mode: all fourteen small terms are lost. -/
theorem test_group16_cancellation :
    (pairwise ((0x48440000 : Word) :: List.replicate 14 0x39800000 ++ [0xC8440000])).v = 0 := by decide +kernel

/-- 02 Table 2.10: the compensated steps; the exact sum 2⁻⁴ remains. -/
theorem test_table_2_10 :
    let s1 := compStep 0 0 { v := 0x49800000 }
    let s2 := compStep s1.1.v s1.2 { v := 0x3D000000 }
    let s3 := compStep s2.1.v s2.2 { v := 0x3D000000 }
    let s4 := compStep s3.1.v s3.2 { v := 0xC9800000 }
    s2.2 = 0xBD000000 ∧ s3.1.v = 0x49800000 ∧ s3.2 = 0xBD800000 ∧ s4.1.v = 0x3D800000 ∧ s4.2 = 0 := by
  decide +kernel

/-- 02, after R70: TREE on the same partials gives 0. -/
theorem test_tree_cancellation :
    (treeGo [] { v := 0 } [{ v := 0x49800000 }, { v := 0x3D000000 }, { v := 0x3D000000 }, { v := 0xC9800000 }]).v = 0 := by
  decide +kernel

/-- 02 Table 2.11: the exact sum of the three products is 2.75 = 11 × 2⁻². -/
theorem test_table_2_11_products :
    exactTerm 0 0 (termAdd (termAdd (termMul (decodeFloat fmtE4M3 0x3C) (decodeFloat fmtE4M3 0x40))
        (termMul (decodeFloat fmtE4M3 0xAC) (decodeFloat fmtE4M3 0x44)))
        (termMul (decodeFloat fmtE4M3 0x7E) (decodeFloat fmtE4M3 0x01)))
      = (BitVec.ofNat 128 (11 * 2 ^ 86), {}) := by decide +kernel

/-- 02, one MX block: 11 × 2⁻³ added to a zeroed element with A = 0 leaves 0x16 × 16²¹, no flag. -/
theorem test_mx_block :
    exactTerm 0 0 (.num 11 (-3)) = (0x00000000016000000000000000000000#128, {}) := by decide +kernel

/-- 02, the same with A = 80: the lone product 2⁻¹⁹ rounds to zero and sets INEXACT. -/
theorem test_mx_block_high_anchor : exactTerm 80 0 (.num 1 (-19)) = (0, { inexact := true }) := by decide +kernel

/-- 02, the same with A = -48: +SAT and OVERRANGE, and ACM.STORE to E4M3 writes 0x01 with CVT_SAT clear. -/
theorem test_mx_block_low_anchor :
    exactTerm (-48) 0 (.num 11 (-3)) = (BitVec.ofInt 128 (2 ^ 127 - 1), { ovr := true }) ∧
      toFloat fmtE4M3 .rne (elemValue 1 (-48) (BitVec.ofInt 128 (2 ^ 127 - 1))) = (0x01, false) := by decide +kernel

/-- 01, after R20: physical tile (14, 9) lies in sector 6 at (2, 3); logical tile 200 belongs to sector 6. -/
theorem test_tile_14_9 :
    sectorOfPhys (physAt 14 9) = 6 ∧ localOfPhys (physAt 14 9) = 3 * 6 + 2 ∧ sectorOfTile 200 = 6 ∧
      tileOf 3205 = 200 := by decide

/-- 01, after R40: tier-1 address 0x0020_0000_0000 is homed on sector 7, 2 GiB into its range. -/
theorem test_home_example :
    base.homeSector 0x002000000000 = 7 ∧ base.homeOffset 0x002000000000 = 2 * 2 ^ 30 := by decide +kernel

/-- 09, after R336: the header of DEV_IDENTIFY as first command of a mailbox is taken. -/
theorem test_dev_identify :
    base.checkRequest (.mailbox 0) (fit 256 [1, 1, 0, 0, 1, 0, 0, 0, 0, 0, 0, 0, 0, 0, 0, 0]) = none := by decide +kernel

/-- 11 Table 11.9: tile (14, 9) is the hottest, and the checker, tile (15, 6), takes over from it. -/
theorem test_table_11_9 :
    let tl := fun (c : CadState) (d t : Nat) => { cad := c, drift := BitVec.ofNat 8 d, tempLog := [(0, t)], visited := true : Phys }
    let no : List (Nat × Option Phys) := (List.range 576).map fun p => (p, some (tl .factoryBad 0 0))
    let ph := [(physAt 15 7, tl .good 9 80), (physAt 14 8, tl .good 12 78), (physAt 14 9, tl .good 15 71),
      (physAt 15 6, { tl .lehr 6 52 with checker := true }), (physAt 15 11, tl .spare 7 49),
      (physAt 17 11, { tl .spare 5 50 with marginOnly := true })].foldl (fun l x => Tab.set l x.1 (some x.2)) no
    let s : State := { base with phys := ph }
    s.highest ((physOfSector 6).filter fun p => (s.phy p).cad == .good) = some (physAt 14 9) ∧
      s.takeover 6 = some (physAt 15 6) := by decide +kernel

/-- 12 Tables 12.11, 12.12, R444: without consent tile 3's entry is WITHHELD with LENGTH 0, at 0x1_0000 + 3 x 0x7_0000;
a part of a module with tier-2 has 32 tiles, the controller, 2 engines, the sync node, the fence agent and 9 channels. -/
theorem test_dump_withheld :
    let d : Dump := { num := 7, sectors := [3], cause := 0x0301, cls := 3, time := 5, ctxs := [0xFF], gens := [0],
                      consent := [false], tier2 := true, faultSeq := 1, stamp := 0 }
    (d.units 0)[3]? = some { kind := 1, status := 2, unit := 3, offset := 0x160000, length := 0 } ∧
      (d.units 0).length = 46 := by decide +kernel

/-- 13 R460: with WAVE_GAP_MS 2, no wave begins 1 ms after the wave before; one begins 2 ms after it. -/
theorem test_wave_gap :
    let s := fun (t : Nat) => { base with deviceTime := BitVec.ofNat 64 t, boot := { base.boot with waveAt := some 0 } : State }
    (s 1000000).waveOpen = false ∧ (s 2000000).waveOpen = true := by decide +kernel

end Sys2Proof.Tests
end

