-- ==== Sys2Proof/Tests/Store.lean ====
section
/-! SUPPORT. Store: for the obligations about it, states and operands that meet the hypotheses of each clause. -/
open Sys2Proof Sys2Proof.Machine
namespace Sys2Proof.Tests.Store
set_option Elab.async false
def sA : State := { (base.modCtx 0 fun k => {k with homed := [(5,8)]}) with mem := [(5*2097152, 9), (5*2097152+4096, 9), (8*2097152, 7), (8*2097152+9,6), (9*2097152,3)], poison := [(9*16384, 9*16384+2)], tierPz := [(5*512, 5*512+1)], retireMark := [(6,7)] }
def sG : State := { sA with ctxs := [(0, { runCtx 0xFFFF 3 77 with })], sectors := (List.range 16).map fun n => (n, upSector (some 0)), retired := [(70,72)], boot := { sA.boot with licence := {tier := 2, sectorMask := 0xFFFF} } }
def sGG : State := sG.modCtx 0 fun k => {k with global1 := true, homed := [(0, 9127),(9216,9300)]}
def home (op tier n a : Nat) (k : Nat := 0) : List Byte := mkReq 0x0501 (bs [(1,k),(1,op),(1,tier),(1,0),(4,n),(8,a)])
def rqs : List (List Byte) := [home 0 1 2 (8*2097152), home 0 1 3 (6*2097152), home 0 1 1 (20000*2097152), home 0 1 0 0, home 0 1 1 (4*2097152+4096), home 0 1 1 (9126*2097152), home 1 1 2 (6*2097152), home 1 1 2 (5*2097152), home 2 1 0 0, home 3 1 0 0, home 2 2 0 0]
def sts : List (String × State) := (rqs.flatMap fun r => [("A",withReq (.mailbox 0) r sA)]) ++ ((rqs.drop 6).flatMap fun r => [("G",withReq (.mailbox 0) r sG),("GG",withReq (.mailbox 0) r sGG)])
def smpState : List (String × (State)) := sts
def smpListByte : List (String × (List Byte)) := rqs.map fun r => ("",r)
/-! Hypotheses of `Obligations.MemoryHoming` (MemHomeHomesZeroedGranules). -/
namespace MemHomeHomesZeroedGranules
theorem witness_MemHomeHomesZeroedGranules_1 :
    let src : Src := .mailbox 0
    let s : State := pick smpState 0 base
    let req : List Byte := pick smpListByte 0 []
    let a : Nat := rq req 8 8
    let n : Nat := rq req 4 4
    (Fronts s src 0x0501 req ∧ rq req 1 1 = 0 ∧ 0 < n ∧ (s.homeRange req).isSome ∧ s.isGlobal a = false) ∧
    (∀ g, a / granuleBytes ≤ g → g < a / granuleBytes + n →
      ISet.mem (s.firmware (rqTier2 req)) g = false ∧ ISet.mem s.retired g = false) :=
  ⟨by decide +kernel, fun g h1 h2 => between (P := fun g =>
    ISet.mem ((pick smpState 0 base).firmware (rqTier2 (pick smpListByte 0 []))) g = false ∧
      ISet.mem (pick smpState 0 base).retired g = false) (by decide +kernel) h1 h2⟩
end MemHomeHomesZeroedGranules
/-! Hypotheses of `Obligations.MemoryHoming` (MemHomeReleasesAndSetsModes). -/
namespace MemHomeReleasesAndSetsModes
theorem witness_MemHomeReleasesAndSetsModes_1 :
    let src : Src := .mailbox 0
    let s : State := pick smpState 6 base
    let req : List Byte := pick smpListByte 6 ([])
    Fronts s src 0x0501 req ∧
    rq req 1 1 = 1 ∧
    (s.homeRange req).isSome ∧
    s.isGlobal (rq req 8 8) = false := by decide +kernel
theorem witness_MemHomeReleasesAndSetsModes_2 :
    let src : Src := .mailbox 0
    let s : State := pick smpState 15 base
    let req : List Byte := pick smpListByte 8 ([])
    Fronts s src 0x0501 req ∧
    let k : Nat := rq req 0 1
    rq req 1 1 = 2 ∧
    (s.ctx k).isGlobal (rqTier2 req) = false ∧
    (s.ctx k).sectors = 0xFFFF ∧
    s.tierHomed k (rqTier2 req) = [] := by decide +kernel
theorem witness_MemHomeReleasesAndSetsModes_3 :
    let src : Src := .mailbox 0
    let s : State := pick smpState 18 base
    let req : List Byte := pick smpListByte 9 ([])
    Fronts s src 0x0501 req ∧
    let k : Nat := rq req 0 1
    rq req 1 1 = 3 ∧
    (s.ctx k).isGlobal (rqTier2 req) = true := by decide +kernel
end MemHomeReleasesAndSetsModes
/-! Hypotheses of `Obligations.SectorStoreAndZeroing` (BackgroundZeroChangesNoByte). -/
namespace BackgroundZeroChangesNoByte
def sP : State := { sA with tierPz := [(5*512, 5*512+4),(8*512,8*512+1)], spadPz := [(0,5)], mem := sA.mem ++ [(spadBase, 7)] }
theorem witness_BackgroundZeroChangesNoByte_1 :
    let u : Nat := (5*512 : Nat)
    let s : State := sP
    u * 4096 < spadBase ∧
    ISet.mem s.tierPz u = true := by decide +kernel
end BackgroundZeroChangesNoByte
/-! Hypotheses of `Obligations.SectorStoreAndZeroing` (SectorStoreServesHomedAccesses). -/
namespace SectorStoreServesHomedAccesses
def hx (s : State) : State := { s with ctxs := s.ctxs.map fun (k,x) => (k,{x with homed := x.homed ++ [(8,9),(9,10)]}) }
def sa : List Nat := [5*2097152+4096, 5*2097152, 8*2097152,8*2097152+9, 9*2097152, 9*2097152+120, 11*2097152]
def rs : List StoreRequest := sa.flatMap fun a => [{ctx := 0, gen := 3, addr := a, data := none, len := 8}, {ctx := 0, gen := 3, addr := a, data := some [0,1,2,3,4,5,6,7]}, {ctx := 0, gen := 3, addr := a, data := some [0,1,2,3,4,5,6,7], poisoned := true}, {ctx := 0, gen := 4, addr := a, data := none, len := 8}]
def smpStoreRequest : List (String × (StoreRequest)) := rs.map fun r => ("",r)
theorem witness_SectorStoreServesHomedAccesses_1 :
    let r : StoreRequest := pick smpStoreRequest 1 dStore
    let s : State := hx sA
    let n : Nat := 8
    (s.addrKind r.addr).isTier = true ∧
    0 < n ∧
    r.addr % 128 + n ≤ 128 ∧
    s.homeFenced r.addr = false ∧
    s.owns r.ctx (s.homeSector r.addr) = true ∧
    r.gen = (s.ctx r.ctx).gen ∧
    Cells.wf s.mem = true ∧
    ∃ bs, r.data = some bs ∧
      bs.length = n ∧
      r.poisoned = false ∧
      s.isHomed r.ctx (s.loc r.addr) = true := by decide +kernel
theorem witness_SectorStoreServesHomedAccesses_2 :
    let r : StoreRequest := pick smpStoreRequest 0 dStore
    let s : State := hx sA
    let n : Nat := 8
    (s.addrKind r.addr).isTier = true ∧
    0 < n ∧
    r.addr % 128 + n ≤ 128 ∧
    s.homeFenced r.addr = false ∧
    s.owns r.ctx (s.homeSector r.addr) = true ∧
    r.gen = (s.ctx r.ctx).gen ∧
    Cells.wf s.mem = true ∧
    r.data = none ∧
    r.len = n ∧
    s.isHomed r.ctx (s.loc r.addr) = true ∧
    ISet.mem s.poison (s.loc r.addr / 128) = false := by decide +kernel
/-- A poisoned line is read, and written with poisoned data, in a set of 16 lines of which one is the line's own. -/
theorem witness_SectorStoreServesHomedAccesses_4 :
    let s : State := { hx sA with caches := [(cacheKey (9*2097152), (List.range 16).map fun i => ⟨9*16384 + i * 2048, i % 2 == 0⟩)] }
    (∀ r ∈ [pick smpStoreRequest 16 dStore, pick smpStoreRequest 18 dStore],
      (s.addrKind r.addr).isTier = true ∧ r.addr % 128 + 8 ≤ 128 ∧ s.homeFenced r.addr = false ∧
      s.owns r.ctx (s.homeSector r.addr) = true ∧ r.gen = (s.ctx r.ctx).gen ∧ Cells.wf s.mem = true ∧
      s.isHomed r.ctx (s.loc r.addr) = true ∧ ISet.mem s.poison (s.loc r.addr / 128) = true ∧
      (Tab.get [] s.caches (cacheKey (s.loc r.addr))).length = 16) ∧
    (pick smpStoreRequest 16 dStore).data = none ∧ (pick smpStoreRequest 16 dStore).len = 8 ∧
    (pick smpStoreRequest 18 dStore).data = some [0,1,2,3,4,5,6,7] ∧ (pick smpStoreRequest 18 dStore).poisoned = true := by
  decide +kernel
theorem witness_SectorStoreServesHomedAccesses_3 :
    let r : StoreRequest := pick smpStoreRequest 1 dStore
    let s : State := hx sGG
    let n : Nat := 8
    (s.addrKind r.addr).isTier = true ∧
    0 < n ∧
    r.addr % 128 + n ≤ 128 ∧
    s.homeFenced r.addr = false ∧
    s.owns r.ctx (s.homeSector r.addr) = true ∧
    r.gen = (s.ctx r.ctx).gen ∧
    Cells.wf s.mem = true ∧
    ∃ bs, r.data = some bs ∧
      bs.length = n ∧
      s.isHomed r.ctx (s.loc r.addr) = false := by decide +kernel
end SectorStoreServesHomedAccesses
/-! Hypotheses of `Obligations.SectorStoreAndZeroing` (MemoryUpkeepCompletes). -/
namespace MemoryUpkeepCompletes
theorem witness_MemoryUpkeepCompletes_1 :
    let s : State := sA
    let line : Nat := 0
    (s.addrKind (line * 128)).isTier = true ∧
    s.channelOn (placeChannel (line * 128)) = true ∧
    ISet.mem s.poison line = false := by decide +kernel
theorem witness_MemoryUpkeepCompletes_2 :
    let s : State := sA
    let ch : ChannelId := 0
    let g : Nat := 0
    s.plumb.gaffer = .running ∧
    (s.addrKind (g * granuleBytes)).isTier = true ∧
    placeSector (g * granuleBytes) = channelSector ch ∧
    inTier2 (g * granuleBytes) = decide (128 ≤ ch.val) ∧
    s.channelOn ch = true ∧
    ISet.mem s.retired g = false := by decide +kernel
theorem witness_MemoryUpkeepCompletes_3 :
    let s : State := sA
    let ch : ChannelId := 0
    s.channelOn ch = true ∧
    (s.sector (channelSector ch)).st.inService = true := by decide +kernel
end MemoryUpkeepCompletes
end Sys2Proof.Tests.Store
end

