-- ==== Sys2Proof/Tests/Synchronization.lean ====
section
/-! SUPPORT. Synchronization: for the obligations about it, states and operands that meet the hypotheses of each clause. -/
open Sys2Proof Sys2Proof.Machine
namespace Sys2Proof.Tests.Synchronization
set_option Elab.async false
def g0 : SynGroup := { up := some 0, down := 6, job := 77 }
def sA (s : State) : State := { (s.modCtx 0 fun k => {k with homed := [(5,9)], periodSeq := 4}) with mem := (List.range 40).map fun i => (5*2097152+3*i, BitVec.ofNat 8 (i+1)) }
def cg : ColGroup := {ctx := 0, tree := false, synGroup := 0, rank := 0, ranks := [3,7], seq := 3}
/-! Hypotheses of `Obligations.SynMessages` (AbortsSpreadAndRepeat). -/
namespace AbortsSpreadAndRepeat
def P (st : PortState) : Port := { st, width := 8, enabled := true, delayNs := 100 }
def fab : State := { base with fabric := { ports := [(0,P .up),(1,P .up),(2,P .up),(3,P .training)], node := some 3, routes := [(3, 0x2000), (7, 0x10), (9, 0x12)], syn := [(0, some g0),(5,some {g0 with up := none})] } }
def m1 : SynMsg := {kind := 1, group := 0, src := 9, job := 77, epoch := 8}
theorem witness_AbortsSpreadAndRepeat_1 :
    let m : SynMsg := m1
    let s : State := fab
    m.kind = 1 ∧
    m.job ≠ 0 ∧
    ∃ k, s.jobCtx m.job = some k ∧
      (s.ctx k).epoch ≠ m.epoch ∧
      ∃ g, s.synGroup m.group.toNat = some g ∧
        g.job = m.job ∧
        (∀ r ∈ s.fabric.repeats, ¬ (r.msg.job = m.job ∧ r.msg.epoch = m.epoch)) ∧
        (s.ctx k).st = .running := by decide +kernel
theorem witness_AbortsSpreadAndRepeat_2 :
    let m : SynMsg := m1
    let s : State := (fab.modCtx 0 fun k => {k with st := .aborted} : State)
    m.kind = 1 ∧
    m.job ≠ 0 ∧
    ∃ k, s.jobCtx m.job = some k ∧
      (s.ctx k).epoch ≠ m.epoch ∧
      ∃ g, s.synGroup m.group.toNat = some g ∧
        g.job = m.job ∧
        (∀ r ∈ s.fabric.repeats, ¬ (r.msg.job = m.job ∧ r.msg.epoch = m.epoch)) ∧
        ((s.ctx k).st = .aborted ∨ (s.ctx k).st = .teardown) := by decide +kernel
theorem witness_AbortsSpreadAndRepeat_3 :
    let m : SynMsg := m1
    let s : State := ((fab.modFabric fun f => {f with repeats := [⟨0,m1,3⟩,⟨5,{m1 with epoch := 9},0⟩]}).modCtx 0 fun k => {k with epoch := 8} : State)
    m.kind = 1 ∧
    m.job ≠ 0 ∧
    ∃ k, s.jobCtx m.job = some k ∧
      (s.ctx k).epoch = m.epoch ∧
      (∃ r ∈ s.fabric.repeats, r.msg.job = m.job ∧ r.msg.epoch = m.epoch) := by decide +kernel
end AbortsSpreadAndRepeat
/-! Hypotheses of `Obligations.SynMessages` (TimeIsSteppedOrSlewed). -/
namespace TimeIsSteppedOrSlewed
def P (st : PortState) : Port := { st, width := 8, enabled := true, delayNs := 100 }
def fab : State := { base with fabric := { ports := [(0,P .up),(1,P .up),(2,P .up),(3,P .training)], node := some 3, routes := [(3, 0x2000), (7, 0x10), (9, 0x12)], syn := [(0, some g0),(5,some {g0 with up := none})] } }
def m2 : SynMsg := {kind := 2, group := 0, src := 9, payload := 1000000000000}
theorem witness_TimeIsSteppedOrSlewed_1 :
    let s : State := (fab.modFabric fun f => {f with timeMaster := some 3, lastTime := 5} : State)
    ∃ g, s.synGroup 0 = some g ∧
      let p : PortId := 0
      let m : SynMsg := ({m2 with payload := 5} : SynMsg)
      m.kind = 2 ∧
      m.group = 0 ∧
      let due : Nat := m.payload.toNat + (s.port p).delayNs.toNat
      due < 2 ^ 64 ∧
      m.payload.toNat ≤ s.fabric.lastTime.toNat := by decide +kernel
theorem witness_TimeIsSteppedOrSlewed_2 :
    let s : State := fab
    ∃ g, s.synGroup 0 = some g ∧
      let p : PortId := 0
      let m : SynMsg := ({m2 with payload := 1000000000901} : SynMsg)
      m.kind = 2 ∧
      m.group = 0 ∧
      let due : Nat := m.payload.toNat + (s.port p).delayNs.toNat
      due < 2 ^ 64 ∧
      s.fabric.lastTime.toNat < m.payload.toNat ∧
      s.deviceTime.toNat + 1000 < due := by decide +kernel
theorem witness_TimeIsSteppedOrSlewed_3 :
    let s : State := fab
    ∃ g, s.synGroup 0 = some g ∧
      let p : PortId := 0
      let m : SynMsg := m2
      m.kind = 2 ∧
      m.group = 0 ∧
      let due : Nat := m.payload.toNat + (s.port p).delayNs.toNat
      due < 2 ^ 64 ∧
      s.fabric.lastTime.toNat < m.payload.toNat ∧
      due ≤ s.deviceTime.toNat + 1000 := by decide +kernel
theorem witness_TimeIsSteppedOrSlewed_4 :
    let s : State := (fab.modFabric fun f => {f with timeMaster := some 3, lastTime := 5} : State)
    ∃ g, s.synGroup 0 = some g ∧
      let n := (s.fabric.node).getD 0
      s.fabric.node = some n ∧
      s.fabric.timeMaster = some n := by decide +kernel
theorem witness_TimeIsSteppedOrSlewed_5 :
    let s : State := fab
    ∃ g, s.synGroup 0 = some g ∧
      let n := (s.fabric.node).getD 0
      s.fabric.node = some n ∧
      s.fabric.timeMaster ≠ some n := by decide +kernel
end TimeIsSteppedOrSlewed
/-! Hypotheses of `Obligations.GroupBarriersAndTransfers` (GroupBarriersCombineAndRelease). -/
namespace GroupBarriersCombineAndRelease
def P (st : PortState) : Port := { st, width := 8, enabled := true, delayNs := 100 }
def fab : State := { base with fabric := { ports := [(0,P .up),(1,P .up),(2,P .up),(3,P .training)], node := some 3, routes := [(3, 0x2000), (7, 0x10), (9, 0x12)], syn := [(0, some g0),(5,some {g0 with up := none})] } }
def m3 : SynMsg := {kind := 3, group := 0, src := 9, job := 77, epoch := 2}
def d7 : Desc := {dsc 9 4 [(0x24,1,1),(0x25,1,7)] with dispatched := true}
def st := fab.modFabric fun f => {f with col := [(1,some {ctx := 0, tree := false, synGroup := 0, rank := 0, ranks := [3,7], seq := 3})], running := [{f := 0, slot := 0, desc := 9, group := 1, seq := 2, op := 7, bar := 2, digest := 0}], barSeen := [(0,2,[selfArrival])]}
def st' : State := {st with queues := [(0,hq 0 [d7])]}
theorem witness_GroupBarriersCombineAndRelease_1 :
    let p : PortId := 1
    let m : SynMsg := m3
    let s : State := (fab.modFabric fun f => {f with barSeen := [(0,2,[1]),(5,2,[1])]} : State)
    let g : Nat := m.group.toNat
    ∃ y, s.synGroup g = some y ∧
      y.job = m.job ∧
      m.kind = 3 ∧
      y.down.getLsbD p = true ∧
      s.fabric.relSeen.contains (g, m.epoch) = false ∧
      (s.barSeenOf g m.epoch).contains p.val = true := by decide +kernel
theorem witness_GroupBarriersCombineAndRelease_2 :
    let p : PortId := 1
    let m : SynMsg := m3
    let s : State := (st' : State)
    let g : Nat := m.group.toNat
    ∃ y, s.synGroup g = some y ∧
      y.job = m.job ∧
      m.kind = 3 ∧
      y.down.getLsbD p = true ∧
      s.fabric.relSeen.contains (g, m.epoch) = false ∧
      (s.barSeenOf g m.epoch).contains p.val = false ∧
      ¬ (s.barNeeds g y).all (s.barSeenOf g m.epoch ++ [p.val]).contains := by decide +kernel
theorem witness_GroupBarriersCombineAndRelease_3 :
    let p : PortId := 1
    let m : SynMsg := m3
    let s : State := (st'.modFabric fun f => {f with barSeen := [(0,2,[selfArrival,2])]} : State)
    let g : Nat := m.group.toNat
    ∃ y, s.synGroup g = some y ∧
      y.job = m.job ∧
      m.kind = 3 ∧
      y.down.getLsbD p = true ∧
      s.fabric.relSeen.contains (g, m.epoch) = false ∧
      (s.barSeenOf g m.epoch).contains p.val = false ∧
      (s.barNeeds g y).all (s.barSeenOf g m.epoch ++ [p.val]).contains ∧
      ∃ q, y.up = some q ∧
        (s.port q).st = .up := by decide +kernel
theorem witness_GroupBarriersCombineAndRelease_4 :
    let p : PortId := 0
    let m : SynMsg := ({m3 with kind := 4} : SynMsg)
    let s : State := (fab.modFabric fun f => {f with relSeen := [(0,2)]} : State)
    let g : Nat := m.group.toNat
    ∃ y, s.synGroup g = some y ∧
      y.job = m.job ∧
      m.kind = 4 ∧
      y.up = some p.val ∧
      s.fabric.relSeen.contains (g, m.epoch) = true := by decide +kernel
theorem witness_GroupBarriersCombineAndRelease_5 :
    let p : PortId := 0
    let m : SynMsg := ({m3 with kind := 4} : SynMsg)
    let s : State := (st' : State)
    let g : Nat := m.group.toNat
    ∃ y, s.synGroup g = some y ∧
      y.job = m.job ∧
      m.kind = 4 ∧
      y.up = some p.val ∧
      s.fabric.relSeen.contains (g, m.epoch) = false := by decide +kernel
end GroupBarriersCombineAndRelease
/-! Hypotheses of `Obligations.CollectivesWaitForEveryRank`. -/
namespace CollectivesWaitForEveryRank
def P (st : PortState) : Port := { st, width := 8, enabled := true, delayNs := 100 }
def fab : State := { base with fabric := { ports := [(0,P .up),(1,P .up),(2,P .up),(3,P .training)], node := some 3, routes := [(3, 0x2000), (7, 0x10), (9, 0x12)], syn := [(0, some g0),(5,some {g0 with up := none})] } }
def dd (op : Nat) (peer : Nat := 0) : Desc := dsc (9+op) 4 [(0x10,8,5*2097152),(0x18,8,6*2097152),(0x20,4,4),(0x24,1,1),(0x25,1,op),(0x26,1,3),(0x28,2,peer)]
def st (g : ColGroup) (ds : List Desc) : State := { (sA fab) with queues := [(0,hq 0 ds)] }.modFabric fun f => {f with col := [(1,some g)]}
def after (op : Nat) (g : ColGroup) (peer : Nat := 0) : State := match exec (colInstr 0 0 (9+op) op) (st g [dd op peer]) with | .next t => t | _ => base
def runs : List (String × State) := [1,2,3,4].flatMap fun op => [("run", after op cg),("run",after op {cg with ranks := [3,7,9]}),("r1", after op {cg with rank := 1})]
def ck (n off : Nat) (job : Nat := 77) : LinkPacket := sealPacket { dest := 3, src := 7, cls := 2, kind := kColData, len := BitVec.ofNat 10 n, job := BitVec.ofNat 32 job, epoch := 7, period := 4, addr := BitVec.ofNat 48 off, payload := (List.range n).map (BitVec.ofNat 8) }
def smpDesc : List (String × (Desc)) := ([1,2,3,4].map fun op => ("",dd op)) ++ ([1,2,3,4].map fun op => ("",{dd op with dispatched := true, tStart := 1000000000000}))
def smpState : List (String × (State)) := ([1,2,3,4].flatMap fun op => [("d",st cg [dd op]),("d3",st {cg with rank := 1} [dd op])]) ++ runs ++ [("b",(after 1 cg).modFabric fun f => {f with running := f.running.map fun r => {r with op := 7}})]
theorem witness_CollectivesWaitForEveryRank_1 :
    let f : FnId := 0
    let slot : SlotId := 0
    let id : Nat := 10
    let d : Desc := pick smpDesc 0 (dd 1)
    let s : State := pick smpState 0 base
    let g : ColGroup := cg
    ColReady s f slot id d g ∧
    let op : Nat := clOp d
    1 ≤ op ∧
    op ≤ 4 ∧
    2 ≤ g.ranks.length ∧
    g.rank < g.ranks.length ∧
    s.fabric.early = [] ∧
    (s.ctx (s.queue f slot).ctx).st ≠ .free ∧
    (∀ r ∈ s.fabric.running, ¬ (r.group = clGroup d ∧ r.seq = g.seq)) := by decide +kernel
theorem witness_CollectivesWaitForEveryRank_2 :
    let k : LinkPacket := (ck 16 0 78 : LinkPacket)
    let s : State := pick smpState 0 base
    ColArrives s k ∧
    s.linkCtx k = none := by decide +kernel
theorem witness_CollectivesWaitForEveryRank_3 :
    let k : LinkPacket := (ck 16 0 : LinkPacket)
    let tag : ColTag := { group := 1, rank := 1, seq := 3, digest := 5 }
    let s : State := pick smpState 0 base
    let g : ColGroup := cg
    ColArrives s k ∧
    s.linkCtx k = some g.ctx ∧
    s.colGroup tag.group = some g ∧
    tag.rank < g.ranks.length ∧
    s.runningOf tag.group tag.seq = none := by decide +kernel
theorem witness_CollectivesWaitForEveryRank_4 :
    let k : LinkPacket := (ck 16 0 : LinkPacket)
    let tag : ColTag := { group := 1, rank := 1, seq := 3, digest := 6 }
    let s : State := ((st cg [{ dd 1 with dispatched := true }]).modFabric fun f => { f with running := [{ f := 0, slot := 0, desc := 10, group := 1, seq := 3, op := 1, digest := 5, contrib := [(0, List.replicate 16 1)], got := [(0, [(0, 16)])] }] } : State)
    let g : ColGroup := cg
    ColArrives s k ∧
    s.linkCtx k = some g.ctx ∧
    s.colGroup tag.group = some g ∧
    tag.rank < g.ranks.length ∧
    ∃ r, s.runningOf tag.group tag.seq = some r ∧
      ∃ d, s.desc r.f r.slot r.desc = some d ∧
        d.id = r.desc ∧
        tag.digest ≠ r.digest ∧
        (s.ctx (s.queue r.f r.slot).ctx).st = .running := by decide +kernel
theorem witness_CollectivesWaitForEveryRank_5 :
    let k : LinkPacket := (ck 16 0 : LinkPacket)
    let tag : ColTag := { group := 1, rank := 1, seq := 3, digest := 5 }
    let s : State := ((st cg [{ dd 7 with dispatched := true }]).modFabric fun f => { f with running := [{ f := 0, slot := 0, desc := 16, group := 1, seq := 3, op := 7, digest := 5, contrib := [(0, List.replicate 16 1)], got := [(0, [(0, 16)])] }] } : State)
    let g : ColGroup := cg
    ColArrives s k ∧
    s.linkCtx k = some g.ctx ∧
    s.colGroup tag.group = some g ∧
    tag.rank < g.ranks.length ∧
    ∃ r, s.runningOf tag.group tag.seq = some r ∧
      ∃ d, s.desc r.f r.slot r.desc = some d ∧
        d.id = r.desc ∧
        tag.digest = r.digest ∧
        r.op = 7 := by decide +kernel
theorem witness_CollectivesWaitForEveryRank_6 :
    let k : LinkPacket := (ck 16 0 : LinkPacket)
    let tag : ColTag := { group := 1, rank := 1, seq := 3, digest := 5 }
    let s : State := ((st cg [{ dd 1 with dispatched := true }]).modFabric fun f => { f with running := [{ f := 0, slot := 0, desc := 10, group := 1, seq := 3, op := 1, digest := 5, contrib := [(1, List.replicate 16 1)], got := [(1, [(0, 16)])] }] } : State)
    let g : ColGroup := cg
    ColArrives s k ∧
    s.linkCtx k = some g.ctx ∧
    s.colGroup tag.group = some g ∧
    tag.rank < g.ranks.length ∧
    ∃ r, s.runningOf tag.group tag.seq = some r ∧
      ∃ d, s.desc r.f r.slot r.desc = some d ∧
        d.id = r.desc ∧
        tag.digest = r.digest ∧
        r.op ≤ 4 ∧
        r.group = tag.group.val ∧
        ¬ (List.range g.ranks.length).all (contributed (addPiece r tag.rank k.addr.toNat k.payload) d) ∧
        k.payload ≠ [] := by decide +kernel
theorem witness_CollectivesWaitForEveryRank_7 :
    let k : LinkPacket := (ck 16 0 : LinkPacket)
    let tag : ColTag := { group := 1, rank := 1, seq := 3, digest := 5 }
    let s : State := ((st cg [{ dd 1 with dispatched := true }]).modFabric fun f => { f with running := [{ f := 0, slot := 0, desc := 10, group := 1, seq := 3, op := 1, digest := 5, contrib := [(0, List.replicate 16 1)], got := [(0, [(0, 16)])] }] } : State)
    let g : ColGroup := cg
    ColArrives s k ∧
    s.linkCtx k = some g.ctx ∧
    s.colGroup tag.group = some g ∧
    tag.rank < g.ranks.length ∧
    ∃ r, s.runningOf tag.group tag.seq = some r ∧
      ∃ d, s.desc r.f r.slot r.desc = some d ∧
        d.id = r.desc ∧
        tag.digest = r.digest ∧
        r.op ≤ 4 ∧
        r.group = tag.group.val ∧
        (List.range g.ranks.length).all (contributed (addPiece r tag.rank k.addr.toNat k.payload) d) := by decide +kernel
end CollectivesWaitForEveryRank
/-! Hypotheses of `Obligations.IntegerRingSumsWrap`. -/
namespace IntegerRingSumsWrap
theorem witness_IntegerRingSumsWrap_1 :
    let dtype : Nat := 3
    let vals : List Nat := ([1,2,0xFFFFFFFF] : List Nat)
    (dtype = 3 ∨ dtype = 4) ∧
    vals ≠ [] ∧
    (∀ v ∈ vals, v < 2 ^ (8 * elemBytes dtype)) := by decide +kernel
end IntegerRingSumsWrap
/-! Hypotheses of `Obligations.GroupBarriersAndTransfers` (TransfersAndBarriersBegin). -/
namespace TransfersAndBarriersBegin
def P (st : PortState) : Port := { st, width := 8, enabled := true, delayNs := 100 }
def fab : State := { base with fabric := { ports := [(0,P .up),(1,P .up),(2,P .up),(3,P .training)], node := some 3, routes := [(3, 0x2000), (7, 0x10), (9, 0x12)], syn := [(0, some g0),(5,some {g0 with up := none})] } }
def dd (op : Nat) (peer : Nat := 1) : Desc := dsc (9+op) 4 [(0x10,8,5*2097152),(0x18,8,6*2097152+500),(0x20,4,200),(0x24,1,1),(0x25,1,op),(0x26,1,3),(0x28,2,peer)]
def st (g : ColGroup) (ds : List Desc) : State := { (sA fab) with queues := [(0,hq 0 ds)] }.modFabric fun f => {f with col := [(1,some g)], syn := [(0,some {up := some 0, down := 0, job := 77}),(1,some {up := none, down := 0, job := 77})]}
def after (op : Nat) : State := match exec (colInstr 0 0 (9+op) op) (st cg [dd op]) with | .next t => t | _ => base
def last (s : State) : State := s.modFabric fun f => {f with running := f.running.map fun r => {r with left := 1, issued := r.issued.take 1}}
def big : Desc := { dd 6 with bytes := patch (dd 6).bytes 0x20 (leBytes 4 500000) }
def ak (a : Nat) : LinkPacket := sealPacket { dest := 3, src := 7, cls := 1, kind := kWriteAck, len := 12, job := 77, epoch := 7, period := 4, addr := BitVec.ofNat 48 a, xtag := 14 }
def smpDesc : List (String × (Desc)) := ([5,6,7].map fun op => ("",dd op)) ++ [("",big)]
def smpState : List (String × (State)) := [5,6,7].flatMap (fun op => [("d",st cg [dd op]),("e",st {cg with synGroup := 1} [dd op])]) ++ [("a",after 5),("l",last (after 5)),("big",st cg [big])]
def smpCollective : List (String × (Collective)) := ((after 5).fabric.running ++ (last (after 5)).fabric.running).map fun r => ("",r)
theorem witness_TransfersAndBarriersBegin_1 :
    let f : FnId := 0
    let slot : SlotId := 0
    let id : Nat := 14
    let d : Desc := pick smpDesc 0 (dd 5)
    let s : State := pick smpState 0 base
    let g : ColGroup := cg
    ColReady s f slot id d g ∧
    let op : Nat := clOp d
    (op = 5 ∨ op = 6) ∧
    ∃ node, g.ranks[clPeer d]? = some node ∧
      node < 16384 ∧
      clDst d + clBytes d ≤ 2 ^ 48 ∧
      s.fabric.held = none ∧
      s.flowRoom = true ∧
      (s.ctx (s.queue f slot).ctx).st ≠ .free ∧
      s.keptBytes (s.dieFor (BitVec.ofNat 14 node)) + clBytes d
      + 28 * (cutAt 512 (clDst d) (clBytes d)).length ≤ 33554432 := by decide +kernel
theorem witness_TransfersAndBarriersBegin_2 :
    let k : LinkPacket := (ak (6*2097152+500) : LinkPacket)
    let s : State := (pick smpState 7 base).modFabric fun f => { f with running := f.running.map fun r => { r with digest := 5 } }
    let r : Collective := { pick smpCollective 1 dCol with digest := 5 }
    let c : Nat × Nat := ((6*2097152+500,12) : Nat × Nat)
    k.trailer = lpCheck k ∧
    rtLocal (s.route k.dest) = true ∧
    k.kind = kWriteAck ∧
    k.cls = 1 ∧
    ((s.rxFlow k).isSome = true ∨ s.flowRoom = true) ∧
    (s.acceptSeq k).1 = true ∧
    ∃ n, s.linkCtx k = some n ∧
      s.fabric.running = [r] ∧
      r.op = 5 ∧
      r.desc % 65536 = k.xtag.toNat ∧
      (s.queue r.f r.slot).ctx = n ∧
      ∃ d, s.desc r.f r.slot r.desc = some d ∧
        d.id = r.desc ∧
        c ∈ r.issued ∧
        c.1 % 2 ^ 48 = k.addr.toNat ∧
        r.left = 1 := by decide +kernel
theorem witness_TransfersAndBarriersBegin_3 :
    let k : LinkPacket := (ak (6*2097152+500) : LinkPacket)
    let s : State := (pick smpState 6 base).modFabric fun f => { f with running := f.running.map fun r => { r with digest := 5 } }
    let r : Collective := { pick smpCollective 0 dCol with digest := 5 }
    let c : Nat × Nat := ((6*2097152+500,12) : Nat × Nat)
    k.trailer = lpCheck k ∧
    rtLocal (s.route k.dest) = true ∧
    k.kind = kWriteAck ∧
    k.cls = 1 ∧
    ((s.rxFlow k).isSome = true ∨ s.flowRoom = true) ∧
    (s.acceptSeq k).1 = true ∧
    ∃ n, s.linkCtx k = some n ∧
      s.fabric.running = [r] ∧
      r.op = 5 ∧
      r.desc % 65536 = k.xtag.toNat ∧
      (s.queue r.f r.slot).ctx = n ∧
      ∃ d, s.desc r.f r.slot r.desc = some d ∧
        d.id = r.desc ∧
        c ∈ r.issued ∧
        c.1 % 2 ^ 48 = k.addr.toNat ∧
        1 < r.left ∧
        r.todo = [] := by decide +kernel
theorem witness_TransfersAndBarriersBegin_4 :
    let f : FnId := 0
    let slot : SlotId := 0
    let id : Nat := 16
    let s : State := pick smpState 4 base
    ∃ d, s.desc f slot id = some d ∧
      d.id = id ∧
      d.type = 4 ∧
      d.dispatched = false ∧
      (s.queue f slot).reaches id = true ∧
      s.fabric.running = [] ∧
      s.fabric.early = [] ∧
      clOp d = 7 ∧
      ∃ g, s.colGroup (clGroup d) = some g ∧
        g.ctx = (s.queue f slot).ctx ∧
        ∃ y, s.synGroup g.synGroup = some y ∧
          y.down = 0 ∧
          s.barSeenOf g.synGroup y.barSeq = [] ∧
          s.fabric.relSeen.contains (g.synGroup, y.barSeq) = false ∧
          ∃ q, y.up = some q ∧
            (s.port q).st = .up := by decide +kernel
theorem witness_TransfersAndBarriersBegin_5 :
    let f : FnId := 0
    let slot : SlotId := 0
    let id : Nat := 16
    let s : State := pick smpState 5 base
    ∃ d, s.desc f slot id = some d ∧
      d.id = id ∧
      d.type = 4 ∧
      d.dispatched = false ∧
      (s.queue f slot).reaches id = true ∧
      s.fabric.running = [] ∧
      s.fabric.early = [] ∧
      clOp d = 7 ∧
      ∃ g, s.colGroup (clGroup d) = some g ∧
        g.ctx = (s.queue f slot).ctx ∧
        ∃ y, s.synGroup g.synGroup = some y ∧
          y.down = 0 ∧
          s.barSeenOf g.synGroup y.barSeq = [] ∧
          s.fabric.relSeen.contains (g.synGroup, y.barSeq) = false ∧
          y.up = none := by decide +kernel
end TransfersAndBarriersBegin
end Sys2Proof.Tests.Synchronization
end

