-- ==== Sys2Proof/Tests/TensorOperations.lean ====
section
/-! SUPPORT. TensorOperations: for the obligations about it, states and operands that meet the hypotheses of each clause. -/
open Sys2Proof Sys2Proof.Machine
namespace Sys2Proof.Tests.TensorOperations
set_option Elab.async false
def td (base region fmt rows cols rs bs : Nat) (mx or st : Nat := 0) (sr sb : Nat := 0) : BitVec 128 :=
  BitVec.ofNat 128 (base + region*2^20 + fmt*2^25 + mx*2^29 + or*2^30 + st*2^31 + rows*2^32 + cols*2^48 + rs*2^64 + bs*2^84 + sr*2^104 + sb*2^109)
def rg (base size : Nat) (c : Bool := false) : Region := { base, size, owner := 0xFFFF, circular := c, ctx := 0 }
def t0 : Tile := { regions := [(1, rg 0 1024), (2, rg 2048 4096), (3, rg 8192 1000 true)] }
def tds : Tab (BitVec 128) := [(0, td 0 1 8 16 16 4 0), (1, td 64 1 8 16 16 4 0), (2, td 0 2 9 16 16 16 0), (3, td 0 2 1 16 16 16 0),
  (4, td 0 3 8 16 16 4 0 0 0 1), (5, td 128 1 3 16 16 8 0), (6, td 0 2 11 16 1 2 0), (7, td 0 1 7 16 16 16 0), (8, td 0 1 15 16 16 16 0), (9, td 0 1 8 0 16 4 0), (10, td 0 5 8 16 16 4 0)]
def enc (op f3 rest : Nat) : Word := BitVec.ofNat 32 (op + f3 * 2^12 + rest)
def tmmW (a b c x1 slot out mode : Nat) : Word := enc 0x2B mode (slot*2^7 + out * 2^11 + x1*2^15 + a*2^20 + b*2^24 + c*2^28)
def initW (slot imm rs : Nat) : Word := enc 0x0B 1 (rs*2^15 + slot*2^20 + imm*2^24)
def storeW (slot d rnd z : Nat) : Word := enc 0x0B 2 (slot*2^20+z*2^26+rnd*2^27+d*2^28)
def vredW (d s op rnd : Nat) : Word := enc 0x0B 3 (rnd*2^20+op*2^21+s*2^24+d*2^28)
def vcvtW (d s rnd : Nat) : Word := enc 0x0B 4 (rnd*2^20+s*2^24+d*2^28)
def st0 : State := { (base.modCore 0 fun x => { x with td := tds, x := [(1, 1), (2, 0x40001), (3,0x80001)] }).setTile 0 t0 with
  mem := [(spadBase, 3), (spadBase + 1, 0xFF), (spadBase+260, 2), (spadBase+ 300, 7)], freeCtr := 9
  slots := [(2, { anchor := 4, mode := 1, elems := [5,6,7] })] }
/-- `st0` with 460 words of data in the ring, from word 40 on. -/
def ring : State := st0.setRegion 0 3 { rg 8192 1000 true with head := ⟨500, false⟩, rhead := ⟨500, false⟩, tail := ⟨40, false⟩, rtail := ⟨40, false⟩ }
def busy (n : Nat) : State := st0.modCore 0 fun x => { x with btx := (List.range n).map fun i => { id := i, op := .acmInit 2 (BitVec.ofNat 8 i), executed := i % 2 == 0 }, nextBtx := n }
def words : List Word := [tmmW 0 1 0 1 2 0 0, tmmW 0 1 0 1 2 0 1, tmmW 0 1 2 1 2 1 1, tmmW 5 5 3 1 4 0 2, tmmW 0 8 3 1 2 0 0, tmmW 0 10 0 1 2 0 0, tmmW 9 1 0 1 2 0 0, tmmW 4 1 0 1 2 0 1,
  initW 3 5 1, storeW 2 2 0 0, storeW 2 3 1 1, storeW 2 8 0 0, storeW 2 9 0 0, storeW 2 4 0 0, vredW 6 0 0 0, vredW 3 5 0 1, vredW 6 9 0 0, vcvtW 3 0 1, vcvtW 5 0 0, vcvtW 9 0 0, vcvtW 3 10 0]
def cs : List Instr := words.flatMap fun w => [.tmm at0 w, .acmInit at0 w, .acmStore at0 w, .vred at0 w, .vcvt at0 w]
def smpInstr : List (String × (Instr)) := cs.map fun w => ("", w)
def smpWord : List (String × (Word)) := words.map fun w => ("", w)
/-! Hypotheses of `Obligations.TensorIssue` (TensorIssueGoesInFlight). -/
namespace TensorIssueGoesInFlight
theorem witness_TensorIssueGoesInFlight_1 :
    let c : Instr := pick smpInstr 0 (.perstAssert)
    let a : At := at0
    let w : Word := pick smpWord 0 0
    let s : State := st0
    tensorAt c = some (a, w) ∧
    (s.core a.core).canIssue = true ∧
    (s.core a.core).btx.length < 8 ∧
    goes (tensorPlan c s) := by decide +kernel
end TensorIssueGoesInFlight
/-! Hypotheses of `Obligations.TensorIssue` (TensorIssueFaultsHoldsAndSkips). -/
namespace TensorIssueFaultsHoldsAndSkips
theorem witness_TensorIssueFaultsHoldsAndSkips_1 :
    let c : Instr := pick smpInstr 30 (.perstAssert)
    let a : At := at0
    let w : Word := pick smpWord 6 0
    let s : State := st0
    tensorAt c = some (a, w) ∧
    (s.core a.core).canIssue = true ∧
    (s.core a.core).btx.length < 8 ∧
    tensorPlan c s = .nothing := by decide +kernel
theorem witness_TensorIssueFaultsHoldsAndSkips_2 :
    let c : Instr := pick smpInstr 20 (.perstAssert)
    let a : At := at0
    let w : Word := pick smpWord 4 0
    let s : State := st0
    tensorAt c = some (a, w) ∧
    (s.core a.core).canIssue = true ∧
    (s.core a.core).btx.length < 8 ∧
    tensorPlan c s = .fault 1 [8] ∧
    4 ≤ (s.core a.core).csr.mtvec.toNat ∧
    (s.core a.core).inTrap = false := by decide +kernel
theorem witness_TensorIssueFaultsHoldsAndSkips_3 :
    let c : Instr := pick smpInstr 0 (.perstAssert)
    let a : At := at0
    let w : Word := pick smpWord 0 0
    let s : State := busy 8
    tensorAt c = some (a, w) ∧
    (s.core a.core).canIssue = true ∧
    8 ≤ (s.core a.core).btx.length ∧
    tensorPlan c s ≠ .illegal := by decide +kernel
end TensorIssueFaultsHoldsAndSkips
/-! Hypotheses of `Obligations.TensorEffects` (TensorTakesEffectAtBase). -/
namespace TensorTakesEffectAtBase
theorem witness_TensorTakesEffectAtBase_1 :
    let a : At := at0
    let w : Word := storeW 2 2 0 0
    let c : Instr := .acmStore a w
    let s : State := st0
    ((c = .acmStore a w ∨ c = .vred a w ∨ c = .vcvt a w) ∧
      (s.core a.core).canIssue = true ∧
      (match tensorPlan c s with
        | .go op d1 d2 d3 _ => decide (∀ u ∈ (issued s a op d1 d2 d3).uses, u.1.stream = false)
        | _ => false) = true) ∧
    QuietTile s a.core :=
  ⟨by decide +kernel, fun _ _ => get_all (α := Core) (p := fun x => x.btx = []) (by decide +kernel) rfl⟩
/-- A streamed source, a streamed destination and a TMM: the claims are granted at the pointers of the ring. -/
theorem witness_TensorTakesEffectAtBase_2 :
    let a : At := at0
    let s : State := ring
    (∀ c ∈ ([.acmStore a (storeW 2 4 0 0), .vcvt a (vcvtW 3 4 0), .tmm a (tmmW 4 1 2 1 2 1 1), .tmm a (tmmW 0 1 0 1 2 0 0)] : List Instr),
      (s.core a.core).canIssue = true ∧ s.crossCheckRuns (sectorOfCore a.core) = false ∧
      (match tensorPlan c s with
        | .go op d1 d2 d3 _ =>
          let x := s.claimStreams a.core (s.core a.core).nextBtx (issued s a op d1 d2 d3).batch (issued s a op d1 d2 d3).uses
          (bases x.2 (issued s a op d1 d2 d3).uses x.1).all (·.isSome)
        | _ => false) = true) ∧
    QuietTile s a.core :=
  ⟨by decide +kernel, fun _ _ => get_all (α := Core) (p := fun x => x.btx = []) (by decide +kernel) rfl⟩
end TensorTakesEffectAtBase
/-! Hypotheses of `Obligations.TensorEffects` (AcmInitClearsTheSlot). -/
namespace AcmInitClearsTheSlot
theorem witness_AcmInitClearsTheSlot_1 :
    let a : At := at0
    let w : Word := pick smpWord 8 0
    let s : State := st0
    (s.core a.core).canIssue = true ∧
    (s.core a.core).btx = [] ∧
    bits w.toNat 6 0 = 0b0001011 ∧
    bits w.toNat 14 12 = 1 ∧
    bits w.toNat 11 7 = 0 := by decide +kernel
end AcmInitClearsTheSlot
/-! Hypotheses of `Obligations.TmmAndElements` (TmmAccumulatesOneBlock). -/
namespace TmmAccumulatesOneBlock
theorem witness_TmmAccumulatesOneBlock_1 :
    let a : At := at0
    let w : Word := pick smpWord 0 0
    let s : State := st0
    ((s.core a.core).canIssue = true ∧
      (match s.planTmm a.core w with
        | .go (.tmm slot _ false _ _ _ _) d1 d2 _ _ =>
            decide ((TD.ofBits d1).stream = false ∧ (TD.ofBits d2).stream = false ∧ slot < 16)
        | _ => false) = true) ∧
    QuietTile s a.core :=
  ⟨by decide +kernel, fun _ _ => get_all (α := Core) (p := fun x => x.btx = []) (by decide +kernel) rfl⟩
end TmmAccumulatesOneBlock
/-! Hypotheses of `Obligations.TmmAndElements` (TmmStoresItsBlocks). -/
namespace TmmStoresItsBlocks
/-- One block, its operands at BASE and with A streamed at a pointer inside the ring. -/
theorem witness_TmmStoresItsBlocks_1 :
    let a : At := at0
    let s : State := ring
    (∀ x ∈ [(tmmW 0 1 2 1 2 1 1, [0, 64, 0]), (tmmW 4 1 2 1 2 1 1, [40, 64, 0])],
      (s.core a.core).canIssue = true ∧ s.crossCheckRuns (sectorOfCore a.core) = false ∧
      Cells.wf s.mem = true ∧
      (match s.planTmm a.core x.1 with
        | .go (.tmm slot _ true _ _ _ ctrl) d1 d2 d3 _ =>
          let y := s.claimStreams a.core (s.core a.core).nextBtx (bits ctrl.toNat 15 0)
            [(TD.ofBits d1, false), (TD.ofBits d2, false), (TD.ofBits d3, true)]
          decide (slot < 16 ∧ bits ctrl.toNat 15 0 = 1 ∧ (TD.ofBits d1).outer = 16 ∧ (TD.ofBits d2).outer = 16 ∧
            bases y.2 [(TD.ofBits d1, false), (TD.ofBits d2, false), (TD.ofBits d3, true)] y.1 = x.2.map some ∧
            (s.region (tileOf a.core) (TD.ofBits d3).region).base
              + (s.region (tileOf a.core) (TD.ofBits d3).region).size ≤ 786432)
        | _ => false) = true) ∧
    QuietTile s a.core :=
  ⟨by decide +kernel, fun _ _ => get_all (α := Core) (p := fun x => x.btx = []) (by decide +kernel) rfl⟩
end TmmStoresItsBlocks
/-! Hypotheses of `Obligations.TmmAndElements` (ElementWriteReadBack). -/
namespace ElementWriteReadBack
def smpTD : List (String × (TD)) := (tds.map fun t => ("", TD.ofBits t.2)) ++ [("w6", {TD.ofBits (td 0 3 5 16 16 3 0) with stream := false}), ("w5b", TD.ofBits (td 0 3 6 16 7 3 0))]
theorem witness_ElementWriteReadBack_1 :
    let s : State := st0
    let t : Nat := 0
    let d : TD := pick smpTD 0 (TD.ofBits 0)
    let base : Nat := 0
    let b : Nat := 0
    let r : Nat := 0
    let c : Nat := 0
    t < 512 ∧
    Cells.wf s.mem = true ∧
    (s.region t d.region).base + (s.region t d.region).size ≤ 786432 ∧
    d.width ∈ [4, 6, 8, 16, 32, 64] ∧
    base + b * d.batchStride + r * d.rowStride + d.rw ≤ (s.region t d.region).size ∧
    c < d.cols ∧
    let c' : Nat := 1
    c' < d.cols ∧
    c' ≠ c := by decide +kernel
end ElementWriteReadBack
/-! Hypotheses of `Obligations.SyncAndRetire` (RetireAndHeldIssueComplete). -/
namespace RetireAndHeldIssueComplete
def h0 : State := st0.modCore 0 fun x => { x with wait := some (.btxIssue (words.head!)), pc := 0x10 }
theorem witness_RetireAndHeldIssueComplete_1 :
    let c : CoreId := 0
    let id : Nat := 0
    let s : State := busy 3
    (s.core c).run ≠ .drained ∧
    ∃ i, (s.core c).btx.find? (·.id == id) = some i ∧
      i.executed = true := by decide +kernel
theorem witness_RetireAndHeldIssueComplete_2 :
    let c : CoreId := 0
    let s : State := h0
    let w : Word := (words.head! : Word)
    (s.core c).run = .running ∧
    (s.core c).wait = some (.btxIssue w) ∧
    (s.core c).btx.length < 8 ∧
    goes (s.planWord c w) := by decide +kernel
end RetireAndHeldIssueComplete
end Sys2Proof.Tests.TensorOperations
end

