-- ==== Sys2Proof/Tests/TensorRegisters.lean ====
section
/-! SUPPORT. TensorRegisters: for the obligations about it, states and operands that meet the hypotheses of each clause. -/
open Sys2Proof Sys2Proof.Machine
namespace Sys2Proof.Tests.TensorRegisters
set_option Elab.async false
def enc (f7 f b1 b3 : Nat) (op : Nat := 0x0B) (f3 : Nat := 0) (b24 : Nat := 0) (rd : Nat := 0) : Word :=
  BitVec.ofNat 32 (op + rd * 2^7 + f3 * 2^12 + b1 * 2^15 + b3 * 2^20 + b24*2^24 + f7 * 2^25)
def st0 : State := base.modCore 0 fun x => { x with x := [(1, 0x1230), (2, 0x1234), (3, 0x20000), (4, 0xFFF0)], td := [(2, 0xAABBCCDD1122334455667788)], csr := {mtvec := 0x100} }
def smpWord : List (String × (Word)) := [("ld1", enc 0 0 1 2), ("ld4", enc 0 0 4 2), ("ld2", enc 0 0 2 2), ("ld3", enc 0 0 3 2), ("sd1", enc 1 0 1 2), ("sd4", enc 1 0 4 2), ("sd2", enc 1 0 2 2),("sd3", enc 1 0 3 2), ("setw0", enc 8 0 2 2), ("setw1", enc 9 0 2 2), ("setw3", enc 11 0 3 2), ("getw0", enc 12 0 0 2 0x0B 0 0 7), ("getw3", enc 15 0 0 2 0x0B 0 0 7)] ++ [("tfence all", BitVec.ofNat 32 (0x0B + 5*2^12 + 2^15 + 0xFFFF*2^16)), ("tfence 4", BitVec.ofNat 32 (0x0B + 5*2^12 +  4*2^16)), ("tfence 1", BitVec.ofNat 32 (0x0B + 5*2^12 + 2^16)), ("tslot 2", BitVec.ofNat 32 (0x0B + 6*2^12 + 2 * 2^20 + 6 * 2^7)), ("tslot 3", BitVec.ofNat 32 (0x0B + 6*2^12 + 3 * 2^20 + 6 * 2^7)), ("tpipe", BitVec.ofNat 32 (0x0B + 6*2^12 + 2^25 + 6 * 2^7))]
/-! Hypotheses of `Obligations.TensorDescriptorInstructions` (TdGroupRegistersComplete). -/
namespace TdGroupRegistersComplete
theorem witness_TdGroupRegistersComplete_1 :
    let a : At := at0
    let w : Word := pick smpWord 0 0
    let s : State := st0
    (s.core a.core).canIssue = true ∧
    bits w.toNat 6 0 = 0b0001011 ∧
    bits w.toNat 14 12 = 0 ∧
    bits w.toNat 24 24 = 0 ∧
    bits w.toNat 31 25 = 0 ∧
    bits w.toNat 11 7 = 0 ∧
    ((s.core a.core).reg (bits w.toNat 19 15)).toNat % 16 = 0 ∧
    ((s.core a.core).reg (bits w.toNat 19 15)).toNat < 65536 := by decide +kernel
theorem witness_TdGroupRegistersComplete_2 :
    let a : At := at0
    let w : Word := pick smpWord 8 0
    let s : State := st0
    (s.core a.core).canIssue = true ∧
    bits w.toNat 6 0 = 0b0001011 ∧
    bits w.toNat 14 12 = 0 ∧
    bits w.toNat 24 24 = 0 ∧
    let k : Nat := 0
    k < 4 ∧
    bits w.toNat 31 25 = 8 + k ∧
    bits w.toNat 11 7 = 0 := by decide +kernel
theorem witness_TdGroupRegistersComplete_3 :
    let a : At := at0
    let w : Word := pick smpWord 11 0
    let s : State := st0
    (s.core a.core).canIssue = true ∧
    bits w.toNat 6 0 = 0b0001011 ∧
    bits w.toNat 14 12 = 0 ∧
    bits w.toNat 24 24 = 0 ∧
    let k : Nat := 0
    k < 4 ∧
    bits w.toNat 31 25 = 12 + k ∧
    bits w.toNat 19 15 = 0 := by decide +kernel
end TdGroupRegistersComplete
/-! Hypotheses of `Obligations.TensorDescriptorInstructions` (TdStoreCompletes). -/
namespace TdStoreCompletes
theorem witness_TdStoreCompletes_1 :
    let a : At := at0
    let w : Word := pick smpWord 4 0
    let s : State := st0
    (s.core a.core).canIssue = true ∧
    Cells.wf s.priv = true ∧
    bits w.toNat 6 0 = 0b0001011 ∧
    bits w.toNat 14 12 = 0 ∧
    bits w.toNat 24 24 = 0 ∧
    bits w.toNat 31 25 = 1 ∧
    bits w.toNat 11 7 = 0 ∧
    ((s.core a.core).reg (bits w.toNat 19 15)).toNat % 16 = 0 ∧
    ((s.core a.core).reg (bits w.toNat 19 15)).toNat < 65536 := by decide +kernel
end TdStoreCompletes
/-! Hypotheses of `Obligations.TensorDescriptorInstructions` (TdAddressTraps). -/
namespace TdAddressTraps
theorem witness_TdAddressTraps_1 :
    let a : At := at0
    let w : Word := pick smpWord 2 0
    let s : State := st0
    (s.core a.core).canIssue = true ∧
    4 ≤ (s.core a.core).csr.mtvec.toNat ∧
    (s.core a.core).inTrap = false ∧
    bits w.toNat 6 0 = 0b0001011 ∧
    bits w.toNat 14 12 = 0 ∧
    bits w.toNat 24 24 = 0 ∧
    bits w.toNat 11 7 = 0 ∧
    bits w.toNat 31 25 = 0 ∧
    ((s.core a.core).reg (bits w.toNat 19 15)).toNat % 16 ≠ 0 := by decide +kernel
theorem witness_TdAddressTraps_2 :
    let a : At := at0
    let w : Word := pick smpWord 3 0
    let s : State := st0
    (s.core a.core).canIssue = true ∧
    4 ≤ (s.core a.core).csr.mtvec.toNat ∧
    (s.core a.core).inTrap = false ∧
    bits w.toNat 6 0 = 0b0001011 ∧
    bits w.toNat 14 12 = 0 ∧
    bits w.toNat 24 24 = 0 ∧
    bits w.toNat 11 7 = 0 ∧
    bits w.toNat 31 25 = 0 ∧
    ((s.core a.core).reg (bits w.toNat 19 15)).toNat % 16 = 0 ∧
    65536 ≤ ((s.core a.core).reg (bits w.toNat 19 15)).toNat := by decide +kernel
theorem witness_TdAddressTraps_3 :
    let a : At := at0
    let w : Word := pick smpWord 6 0
    let s : State := st0
    (s.core a.core).canIssue = true ∧
    4 ≤ (s.core a.core).csr.mtvec.toNat ∧
    (s.core a.core).inTrap = false ∧
    bits w.toNat 6 0 = 0b0001011 ∧
    bits w.toNat 14 12 = 0 ∧
    bits w.toNat 24 24 = 0 ∧
    bits w.toNat 11 7 = 0 ∧
    bits w.toNat 31 25 = 1 ∧
    ((s.core a.core).reg (bits w.toNat 19 15)).toNat % 16 ≠ 0 := by decide +kernel
theorem witness_TdAddressTraps_4 :
    let a : At := at0
    let w : Word := pick smpWord 7 0
    let s : State := st0
    (s.core a.core).canIssue = true ∧
    4 ≤ (s.core a.core).csr.mtvec.toNat ∧
    (s.core a.core).inTrap = false ∧
    bits w.toNat 6 0 = 0b0001011 ∧
    bits w.toNat 14 12 = 0 ∧
    bits w.toNat 24 24 = 0 ∧
    bits w.toNat 11 7 = 0 ∧
    bits w.toNat 31 25 = 1 ∧
    ((s.core a.core).reg (bits w.toNat 19 15)).toNat % 16 = 0 ∧
    65536 ≤ ((s.core a.core).reg (bits w.toNat 19 15)).toNat := by decide +kernel
end TdAddressTraps
/-! Hypotheses of `Obligations.SyncAndRetire` (FenceAndStatusComplete). -/
namespace FenceAndStatusComplete
def st2 : State := st0.modCore 0 fun x => { x with btx := [{ id := 0, op := .acmInit 2 0}, {id := 1, op := .acmStore 5 1 false false, td1 := 0}], nextBtx := 2 }
def ws : List (String × Word) := [("ld1", enc 0 0 1 2), ("ld4", enc 0 0 4 2), ("ld2", enc 0 0 2 2), ("ld3", enc 0 0 3 2), ("sd1", enc 1 0 1 2), ("sd4", enc 1 0 4 2), ("sd2", enc 1 0 2 2),("sd3", enc 1 0 3 2), ("setw0", enc 8 0 2 2), ("setw1", enc 9 0 2 2), ("setw3", enc 11 0 3 2), ("getw0", enc 12 0 0 2 0x0B 0 0 7), ("getw3", enc 15 0 0 2 0x0B 0 0 7)] ++ [("tfence all", BitVec.ofNat 32 (0x0B + 5*2^12 + 2^15 + 0xFFFF*2^16)), ("tfence 4", BitVec.ofNat 32 (0x0B + 5*2^12 +  4*2^16)), ("tfence 1", BitVec.ofNat 32 (0x0B + 5*2^12 + 2^16)), ("tslot 2", BitVec.ofNat 32 (0x0B + 6*2^12 + 2 * 2^20 + 6 * 2^7)), ("tslot 3", BitVec.ofNat 32 (0x0B + 6*2^12 + 3 * 2^20 + 6 * 2^7)), ("tpipe", BitVec.ofNat 32 (0x0B + 6*2^12 + 2^25 + 6 * 2^7))]
def smpWord : List (String × (Word)) := ws ++ [("",0), ("",0x00240002), ("", 2)]
theorem witness_FenceAndStatusComplete_1 :
    let a : At := at0
    let w : Word := pick smpWord 13 0
    let s : State := st0
    (s.core a.core).canIssue = true ∧
    bits w.toNat 6 0 = 0b0001011 ∧
    (∀ i ∈ (s.core a.core).btx, i.id < (s.core a.core).nextBtx) ∧
    bits w.toNat 14 12 = 5 ∧
    bits w.toNat 11 7 = 0 ∧
    (∀ i ∈ (s.core a.core).btx, (∀ k ∈ i.targets, w.getLsbD (16 + k) = false) ∧
          (w.getLsbD 15 = true → i.uses = [])) := by decide +kernel
theorem witness_FenceAndStatusComplete_2 :
    let a : At := at0
    let w : Word := pick smpWord 13 0
    let s : State := st2
    (s.core a.core).canIssue = true ∧
    bits w.toNat 6 0 = 0b0001011 ∧
    (∀ i ∈ (s.core a.core).btx, i.id < (s.core a.core).nextBtx) ∧
    bits w.toNat 14 12 = 5 ∧
    bits w.toNat 11 7 = 0 ∧
    (∃ i ∈ (s.core a.core).btx, (∃ k ∈ i.targets, k < 16 ∧ w.getLsbD (16 + k) = true) ∨
          (w.getLsbD 15 = true ∧ i.uses ≠ [])) := by decide +kernel
theorem witness_FenceAndStatusComplete_3 :
    let a : At := at0
    let w : Word := pick smpWord 16 0
    let s : State := st0
    (s.core a.core).canIssue = true ∧
    bits w.toNat 6 0 = 0b0001011 ∧
    (∀ i ∈ (s.core a.core).btx, i.id < (s.core a.core).nextBtx) ∧
    bits w.toNat 14 12 = 6 ∧
    bits w.toNat 31 24 = 0 ∧
    bits w.toNat 19 15 = 0 ∧
    (∀ i ∈ (s.core a.core).btx, bits w.toNat 23 20 ∉ i.targets) := by decide +kernel
theorem witness_FenceAndStatusComplete_4 :
    let a : At := at0
    let w : Word := pick smpWord 16 0
    let s : State := st2
    (s.core a.core).canIssue = true ∧
    bits w.toNat 6 0 = 0b0001011 ∧
    (∀ i ∈ (s.core a.core).btx, i.id < (s.core a.core).nextBtx) ∧
    bits w.toNat 14 12 = 6 ∧
    bits w.toNat 31 24 = 0 ∧
    bits w.toNat 19 15 = 0 ∧
    (∃ i ∈ (s.core a.core).btx, bits w.toNat 23 20 ∈ i.targets) := by decide +kernel
theorem witness_FenceAndStatusComplete_5 :
    let a : At := at0
    let w : Word := pick smpWord 18 0
    let s : State := st0
    (s.core a.core).canIssue = true ∧
    bits w.toNat 6 0 = 0b0001011 ∧
    (∀ i ∈ (s.core a.core).btx, i.id < (s.core a.core).nextBtx) ∧
    bits w.toNat 14 12 = 6 ∧
    bits w.toNat 31 25 = 1 ∧
    bits w.toNat 24 15 = 0 ∧
    (s.core a.core).btx.length ≤ 8 := by decide +kernel
end FenceAndStatusComplete
end Sys2Proof.Tests.TensorRegisters
end

