-- ==== Sys2Proof/Tests/TileRegisters.lean ====
section
/-! SUPPORT. TileRegisters: for the obligations about it, states and operands that meet the hypotheses of each clause. -/
open Sys2Proof Sys2Proof.Machine
namespace Sys2Proof.Tests.TileRegisters
set_option Elab.async false
def c0 : Core := { run := .running, csr := { mtvec := 0x101, mstatus := 0x8, mie := 0x800 }, sync := { barRel := true, cfg := 0x80 }, kept := {hasImage := true}, pc := 0x500 }
def stA : State := base.setCore 0 c0
def stB : State := base.modCore 0 fun x => {x with inTrap := true}
/-! Hypotheses of `Obligations.CoreTrapsAndFaults` (TrapsEnterAndReturn). -/
namespace TrapsEnterAndReturn
theorem witness_TrapsEnterAndReturn_1 :
    let c : CoreId := 0
    let s : State := stA
    s.meip c = true ∧
    (s.core c).run = .running ∧
    (s.core c).wait = none ∧
    (s.core c).csr.mstatus.getLsbD 3 = true ∧
    (s.core c).csr.mie.getLsbD 11 = true ∧
    4 ≤ (s.core c).csr.mtvec.toNat := by decide +kernel
theorem witness_TrapsEnterAndReturn_2 :
    let a : At := at0
    let s : State := stA
    (s.core a.core).canIssue = true ∧
    s.meip a.core = true := by decide +kernel
theorem witness_TrapsEnterAndReturn_3 :
    let a : At := at0
    let s : State := stB
    (s.core a.core).canIssue = true ∧
    s.meip a.core = false := by decide +kernel
theorem witness_TrapsEnterAndReturn_4 :
    let a : At := at0
    let cause : Word := 2
    let s : State := stA
    (s.core a.core).canIssue = true ∧
    4 ≤ (s.core a.core).csr.mtvec.toNat ∧
    (s.core a.core).inTrap = false ∧
    cause.getLsbD 31 = false := by decide +kernel
end TrapsEnterAndReturn
/-! Hypotheses of `Obligations.CoreTrapsAndFaults` (CoreFaultsAbortTheContext). -/
namespace CoreFaultsAbortTheContext
def stC : State := base.modCore 0 fun x => {x with csr := {}}
theorem witness_CoreFaultsAbortTheContext_1 :
    let a : At := at0
    let s : State := stC
    (s.core a.core).canIssue = true ∧
    ∃ k, s.ownerOfCore a.core = some k ∧
      k < 16 ∧
      (s.ctx k).st = .running ∧
      s.plumb.gaffer = .running ∧
      (s.core a.core).csr.mtvec.toNat < 4 := by decide +kernel
theorem witness_CoreFaultsAbortTheContext_2 :
    let a : At := at0
    let cause : Word := 2
    let s : State := stB
    (s.core a.core).canIssue = true ∧
    ∃ k, s.ownerOfCore a.core = some k ∧
      k < 16 ∧
      (s.ctx k).st = .running ∧
      s.plumb.gaffer = .running ∧
      4 ≤ (s.core a.core).csr.mtvec.toNat ∧
      (s.core a.core).inTrap = true ∧
      cause.getLsbD 31 = false := by decide +kernel
theorem witness_CoreFaultsAbortTheContext_3 :
    let a : At := at0
    let v : Word := 2
    let s : State := stA
    (s.core a.core).canIssue = true ∧
    ∃ k, s.ownerOfCore a.core = some k ∧
      k < 16 ∧
      (s.ctx k).st = .running ∧
      s.plumb.gaffer = .running ∧
      bits v.toNat 7 0 ≠ 0 := by decide +kernel
theorem witness_CoreFaultsAbortTheContext_4 :
    let a : At := at0
    let v : Word := 0x100
    let s : State := stA
    (s.core a.core).canIssue = true ∧
    ∃ k, s.ownerOfCore a.core = some k ∧
      k < 16 ∧
      (s.ctx k).st = .running ∧
      s.plumb.gaffer = .running ∧
      bits v.toNat 7 0 = 0 := by decide +kernel
end CoreFaultsAbortTheContext
/-! Hypotheses of `Obligations.KernelCalls` (KernelCallsComplete). -/
namespace KernelCallsComplete
def d0 : Desc := { id := 9, bytes := [1,0,0x34,0x12], gen := 3, period := 2, sqHead := 4, dispatched := true, tStart := 9, coresLeft := [0] }
def stK : State := { (base.modCore 0 fun x => {x with krn := { running := some 9}}) with queues := [(3, {present := true, cqEntries := 16, sqEntries := 16, cqAddr := 0x1000, cqTail := 5, descs := [d0]})] }
def stK2 : State := (base.modCore 0 fun x => {x with krn := { calls := [{pc := 0x44, args := [1,2], desc := 9}, {pc := 0x48, args := [], desc := 8}]}})
theorem witness_KernelCallsComplete_1 :
    let a : At := at0
    let s : State := stK2
    (s.core a.core).canIssue = true ∧
    (s.core a.core).krn.running = none ∧
    let k : Call := ({pc := 0x44, args := [1,2], desc := 9} : Call)
    let rest : List Call := ([{pc := 0x48, args := [], desc := 8}] : List Call)
    (s.core a.core).krn.calls = k :: rest := by decide +kernel
theorem witness_KernelCallsComplete_2 :
    let a : At := at0
    let s : State := stA
    (s.core a.core).canIssue = true ∧
    (s.core a.core).krn.running = none ∧
    (s.core a.core).krn.calls = [] := by decide +kernel
theorem witness_KernelCallsComplete_3 :
    let a : At := at0
    let s : State := stK
    (s.core a.core).canIssue = true ∧
    let f : Nat := 0
    let j : Nat := 3
    let d : Desc := d0
    (s.core a.core).krn.running = some d.id ∧
    s.findDesc d.id = some (f, j, d) ∧
    s.queue f j = { s.queue f j with descs := [d] } ∧
    d.dispatched = true ∧
    d.coresLeft = [a.core.val] := by decide +kernel
end KernelCallsComplete
/-! Hypotheses of `Obligations.RegisterAccess` (RegisterWritesFollowAccessCodes). -/
namespace RegisterWritesFollowAccessCodes
theorem witness_RegisterWritesFollowAccessCodes_1 :
    let a : At := at0
    let s : State := stA
    (s.core a.core).canIssue = true ∧
    let i : Nat := 0
    i < 4 := by decide +kernel
theorem witness_RegisterWritesFollowAccessCodes_2 :
    let a : At := at0
    let s : State := stA
    (s.core a.core).canIssue = true ∧
    ∃ o ∈ [0x14, 0x18, 0x1C, 0x20, 0x24], True := by decide +kernel
end RegisterWritesFollowAccessCodes
/-! Hypotheses of `Obligations.RegisterAccess` (ReadToClearCounts). -/
namespace ReadToClearCounts
theorem witness_ReadToClearCounts_1 :
    let a : At := at0
    let s : State := (stA.setTile 0 {misroute := 9} : State)
    (s.core a.core).canIssue = true := by decide +kernel
end ReadToClearCounts
end Sys2Proof.Tests.TileRegisters
end

/-! Register accesses through the access codes (00 R8 to R11), and that every command answers a next state. -/
namespace Sys2Proof.Machine

/-! ### Updates of one core and one tile -/

/-- Setting a core twice keeps the second value. -/
@[simp] theorem State.setCore_setCore (s : State) (c : Nat) (x y : Core) :
    (s.setCore c x).setCore c y = s.setCore c y := by
  simp [State.setCore]

/-- Setting a tile twice keeps the second value. -/
@[simp] theorem State.setTile_setTile (s : State) (t : Nat) (x y : Tile) :
    (s.setTile t x).setTile t y = s.setTile t y := by
  simp [State.setTile]

/-- The update of a tile and that of a core commute. -/
theorem State.setTile_setCore (s : State) (c t : Nat) (x : Core) (y : Tile) :
    (s.setCore c x).setTile t y = (s.setTile t y).setCore c x := rfl

/-! ### Where a register address leads (01 Table 1.12; 04 Table 4.3) -/

/-- An address above the base of register space names its offset. -/
theorem State.addrKind_regBase (s : State) (off : Nat) (h : off < 0x10000000000) :
    s.addrKind (regBase + off) = .reg off := by
  unfold State.addrKind tier1Size tier2Base tier2Size spadBase regBase
  rw [if_neg (by omega), if_neg (by omega), if_neg (by omega), if_pos (by omega)]
  exact congrArg AddrKind.reg (by omega)

/-- The register window of the core local map is the own tile's block. -/
theorem localKind_window (core k : Nat) (h : k < 0x10000) :
    localKind core (BitVec.ofNat 32 (0x40000000 + k)) = .reg k := by
  have ha : (BitVec.ofNat 32 (0x40000000 + k)).toNat = 0x40000000 + k := by
    rw [BitVec.toNat_ofNat]; omega
  simp only [localKind, ha]
  rw [if_neg (by omega), if_pos (by omega)]
  exact congrArg LocalKind.reg (by omega)

/-- The alias window of the core local map is the core's own CHN_ registers. -/
theorem localKind_alias (core k : Nat) (h : k < 0x400) :
    localKind core (BitVec.ofNat 32 (0x40010000 + k)) = .reg (0x4000 + core % 16 * 0x400 + k) := by
  have ha : (BitVec.ofNat 32 (0x40010000 + k)).toNat = 0x40010000 + k := by
    rw [BitVec.toNat_ofNat]; omega
  simp only [localKind, ha]
  rw [if_neg (by omega), if_neg (by omega), if_pos (by omega)]
  exact congrArg LocalKind.reg (by omega)

/-! ### A tile's block in register space -/

theorem tileOf_lt (c : CoreId) : tileOf c < 512 := by
  have := c.isLt
  unfold tileOf
  omega

/-- Offset `o` of the block of tile `t` lies in the tiles' part of register space, as that offset of that tile. -/
theorem tileBlock_split (t : TileId) (o : Nat) (h : o < 0x10000) :
    t.val * 0x10000 + o < 512 * 0x10000 ∧ (t.val * 0x10000 + o) / 0x10000 = t.val
      ∧ (t.val * 0x10000 + o) % 0x10000 = o := by
  have := t.isLt
  omega

theorem State.addrKind_tile (s : State) (t : TileId) (o : Nat) (h : o < 0x10000) :
    s.addrKind (regBase + t.val * 0x10000 + o) = .reg (t.val * 0x10000 + o) := by
  obtain ⟨hlt, -, -⟩ := tileBlock_split t o h
  rw [Nat.add_assoc]
  exact s.addrKind_regBase _ (by omega)

theorem State.spaceRead_tile (s : State) (t : TileId) (o : Nat) (h : o < 0x10000) :
    s.spaceRead (t.val * 0x10000 + o) = s.tileRead t.val o := by
  obtain ⟨hlt, hdiv, hmod⟩ := tileBlock_split t o h
  rw [State.spaceRead, if_pos hlt, hdiv, hmod]

theorem State.spaceWrite_tile (s : State) (g : Agent) (t : TileId) (o : Nat) (v : Word) (h : o < 0x10000) :
    s.spaceWrite g (t.val * 0x10000 + o) v = s.tileWriteReg g t o v := by
  obtain ⟨hlt, hdiv, hmod⟩ := tileBlock_split t o h
  rw [State.spaceWrite, if_pos hlt, hdiv, hmod, Fin.ofNat_val_eq_self]

theorem State.spaceRw1c_tile (s : State) (t : TileId) (o : Nat) (ev : Word) (h : o < 0x10000) :
    s.spaceRw1c (t.val * 0x10000 + o) ev = if ev = 0 then s else s.tileRw1c t.val o ev := by
  obtain ⟨hlt, hdiv, hmod⟩ := tileBlock_split t o h
  rw [State.spaceRw1c, if_pos hlt, hdiv, hmod]

/-- An event of the cycle counts on the misrouted packets of the tile (00 R11). -/
theorem State.spaceEvent_misroute (s : State) (t : TileId) :
    s.spaceEvent (t.val * 0x10000 + 0xE10)
      = s.setTile t.val { s.tile t.val with misroute := satAdd 0xFFFF (s.tile t.val).misroute 1 } := by
  obtain ⟨hlt, hdiv, hmod⟩ := tileBlock_split t 0xE10 (by decide)
  simp only [State.spaceEvent, if_pos hlt, hdiv, hmod, if_true, State.modTile_eq]

/-- A read of TIL_NET_MISROUTE gives the count and clears it. -/
theorem State.tileRead_misroute (s : State) (t : Nat) :
    s.tileRead t 0xE10
      = (BitVec.ofNat 32 (s.tile t).misroute, s.setTile t { s.tile t with misroute := 0 }) := rfl

/-! ### The two commands -/

theorem exec_registerWrite (g : Agent) (r : RegTarget) (v ev : Word) (s : State) :
    exec (.registerWrite g r v ev) s = execRegisterWrite g r v ev s := rfl

theorem exec_readToClear (g : Agent) (r : RegTarget) (event : Bool) (rd : XReg) (s : State) :
    exec (.readToClear g r event rd) s = execReadToClear g r event rd s := rfl

/-- A control packet's write of a register of a tile, with the events of its cycle. -/
theorem exec_registerWrite_net (s : State) (t : TileId) (o : Nat) (v ev : Word) (h : o < 0x10000) :
    exec (.registerWrite .net (.device (regBase + t.val * 0x10000 + o)) v ev) s
      = .next ((s.tileWriteReg .net t o v).spaceRw1c (t.val * 0x10000 + o) ev) := by
  obtain ⟨hlt, -, -⟩ := tileBlock_split t o h
  simp only [exec_registerWrite, execRegisterWrite, s.addrKind_tile t o h, if_pos hlt, s.spaceWrite_tile .net t o v h]

/-! ### Writes at a tile's block -/

/-- A write of a region's register is a write of region `n` (04 Table 4.4). -/
theorem State.tileWriteReg_region (s : State) (g : Agent) (t : TileId) (n : RegionId) (o : Nat) (v : Word)
    (h : o < 0x40) (h4 : o % 4 = 0) :
    s.tileWriteReg g t (0x2000 + n.val * 0x40 + o) v = s.regionWrite g t n o v := by
  have hn := n.isLt
  have hq : (0x2000 + n.val * 0x40 + o - 0x2000) / 0x40 = n.val := by omega
  have ho : (0x2000 + n.val * 0x40 + o) % 0x40 = o := by omega
  unfold State.tileWriteReg
  dsimp only
  rw [if_neg (by omega), if_neg (by omega), if_neg (by omega), if_neg (by omega), if_neg (by omega),
    if_neg (by omega), if_neg (by omega), if_neg (by omega), if_neg (by omega), if_pos (by omega), hq, ho,
    Fin.ofNat_val_eq_self]

/-- A write of a CHN_ register of core `c` at the block of its tile. -/
theorem State.tileWriteReg_chn (s : State) (g : Agent) (c : CoreId) (o : Nat) (v : Word)
    (h : o < 0x400) (h4 : o % 4 = 0) :
    s.tileWriteReg g (Fin.ofNat 512 (tileOf c)) (0x4000 + c.val % 16 * 0x400 + o) v = s.chnWrite g c o v := by
  have hc := c.isLt
  have hq : (0x4000 + c.val % 16 * 0x400 + o - 0x4000) / 0x400 = c.val % 16 := by omega
  have ho : (0x4000 + c.val % 16 * 0x400 + o) % 0x400 = o := by omega
  have hcore : Fin.ofNat 8192 ((Fin.ofNat 512 (tileOf c)).val * 16 + c.val % 16) = c := by
    apply Fin.ext
    simp only [Fin.val_ofNat, tileOf]
    omega
  unfold State.tileWriteReg
  dsimp only
  rw [if_neg (by omega), if_neg (by omega), if_neg (by omega), if_neg (by omega), if_neg (by omega),
    if_neg (by omega), if_neg (by omega), if_neg (by omega), if_neg (by omega), if_neg (by omega),
    if_neg (by omega), if_pos (by omega), hq, ho, hcore]

theorem State.chnWrite_txData (s : State) (g : Agent) (c : CoreId) (i : Nat) (v : Word) (h : i < 4) :
    s.chnWrite g c (0x100 + 4 * i) v = s.ownSet g c fun x => { x with txData := Tab.set x.txData i v } := by
  have hi : (0x100 + 4 * i - 0x100) / 4 = i := by omega
  unfold State.chnWrite
  dsimp only
  rw [if_neg (by omega), if_pos (by omega), hi]

/-- A core that can issue sets its own register, and its store completes. -/
theorem State.ownSet_own (s : State) (a : At) (f : Core → Core) (h : (s.core a.core).canIssue = true) :
    s.ownSet (.core a) a.core f = s.setCore a.core ((f (s.core a.core)).advance a.pc a.short) := by
  simp [State.ownSet, State.ownWrite, State.tileWrite, h]

/-- The reserved pointers, the initial pointers and the status of a region are only readable (04 Table 4.4). -/
theorem State.regionWrite_readOnly (s : State) (g : Agent) (t : TileId) (n : RegionId) (o : Nat) (v : Word)
    (h : o ∈ [0x14, 0x18, 0x1C, 0x20, 0x24]) : s.regionWrite g t n o v = s.ignored g t := by
  simp only [List.mem_cons, List.not_mem_nil, or_false] at h
  rcases h with rfl | rfl | rfl | rfl | rfl <;> rfl

/-! ### RW1C bits that events set in the cycle of a write (00 R10) -/

theorem State.tileRw1c_region (s : State) (t o : Nat) (ev : Word) (h : 0x2000 ≤ o) (h' : o < 0x2800) :
    s.tileRw1c t o ev = s := by
  unfold State.tileRw1c
  dsimp only
  rw [if_neg (by omega), if_neg (by omega), if_neg (by omega), if_neg (by omega), if_neg (by omega)]

/-- Of the message data registers no bit is RW1C. -/
theorem State.tileRw1c_txData (s : State) (c i : Nat) (ev : Word) (h : i < 4) :
    s.tileRw1c (tileOf c) (0x4000 + c % 16 * 0x400 + (0x100 + 4 * i)) ev = s.setCore c (s.core c) := by
  have hq : (0x4000 + c % 16 * 0x400 + (0x100 + 4 * i) - 0x4000) / 0x400 = c % 16 := by omega
  have ho : (0x4000 + c % 16 * 0x400 + (0x100 + 4 * i)) % 0x400 = 0x100 + 4 * i := by omega
  have hc : tileOf c * 16 + c % 16 = c := by unfold tileOf; omega
  unfold State.tileRw1c
  dsimp only
  rw [if_neg (by omega), if_neg (by omega), if_neg (by omega), if_neg (by omega), if_pos (by omega),
    hq, ho, hc, State.modCore_eq, if_neg (by omega), if_neg (by omega)]

/-! ### REGISTER_WRITE (00 R8, R10) -/

theorem exec_registerWrite_xreg (s : State) (a : At) (r : XReg) (v ev : Word)
    (h : (s.core a.core).canIssue = true) :
    exec (.registerWrite (.core a) (.xreg r) v ev) s
      = .next (s.setCore a.core (((s.core a.core).setReg r v).advance a.pc a.short)) := by
  simp [exec_registerWrite, execRegisterWrite, State.coreWrite, h]

/-- A core's store to a CHN_ register through its alias window. -/
theorem exec_registerWrite_alias (s : State) (a : At) (o : Nat) (v ev : Word) (h4 : o % 4 = 0) (ho : o < 0x400)
    (h : (s.core a.core).canIssue = true) :
    exec (.registerWrite (.core a) (.local (BitVec.ofNat 32 (0x40010000 + o))) v ev) s
      = .next ((s.chnWrite (.core a) a.core o v).spaceRw1c
          (tileOf a.core * 0x10000 + (0x4000 + a.core.val % 16 * 0x400 + o)) ev) := by
  have hoff : (0x4000 + a.core.val % 16 * 0x400 + o) % 4 = 0 := by omega
  simp only [exec_registerWrite, execRegisterWrite, State.coreWrite, h, localKind_alias _ o ho, Bool.not_true,
    Bool.false_eq_true, if_false, if_pos hoff, s.tileWriteReg_chn (.core a) a.core o v ho h4]

theorem exec_registerWrite_txData (s : State) (a : At) (i : Nat) (v ev : Word) (hi : i < 4)
    (h : (s.core a.core).canIssue = true) :
    exec (.registerWrite (.core a) (.local (BitVec.ofNat 32 (0x40010100 + 4 * i))) v ev) s
      = .next (s.setCore a.core (Core.advance { s.core a.core with
          txData := Tab.set (s.core a.core).txData i v } a.pc a.short)) := by
  have haddr : 0x40010100 + 4 * i = 0x40010000 + (0x100 + 4 * i) := by omega
  rw [haddr, exec_registerWrite_alias s a _ v ev (by omega) (by omega) h, s.chnWrite_txData _ _ i v hi,
    s.ownSet_own a _ h, State.spaceRw1c_tile _ ⟨tileOf a.core, tileOf_lt a.core⟩ _ ev (by omega),
    State.tileRw1c_txData _ _ i ev hi]
  split
  · rfl
  · rw [State.core_setCore_same, State.setCore_setCore]

/-- SPD_STATUS.BAD_WRITE (04 R130) is RW1C: a write with bit 0 set clears it, and an event of the cycle sets it. -/
theorem exec_registerWrite_badWrite (s : State) (t : TileId) (v ev : Word) :
    exec (.registerWrite .net (.device (regBase + t * 0x10000 + 0x2880)) v ev) s
      = .next (s.setTile t
          { s.tile t with badWrite := (s.tile t).badWrite && !v.getLsbD 0 || ev.getLsbD 0 }) := by
  have hw : s.tileWriteReg .net t 0x2880 v
      = s.setTile t { s.tile t with badWrite := (s.tile t).badWrite && !v.getLsbD 0 } := rfl
  have he (u : State) : u.tileRw1c t 0x2880 ev
      = u.setTile t { u.tile t with badWrite := (u.tile t).badWrite || ev.getLsbD 0 } := rfl
  rw [exec_registerWrite_net s t 0x2880 v ev (by decide), State.spaceRw1c_tile _ t _ ev (by decide), hw, he]
  split
  · next h0 => simp [h0]
  · rw [State.tile_setTile_same, State.setTile_setTile]

theorem exec_registerWrite_seqSectors (s : State) (v ev : Word) :
    exec (.registerWrite (.host 0) (.bar0 0x100004) v ev) s
      = .next { s with boot := { s.boot with seqSectors := v.setWidth 16 } } := by
  have hw : s.bar0Write 0 0x100004 v ev
      = { s with boot := { s.boot with seqSectors := v.setWidth 16 } } := rfl
  have he (u : State) : u.bar0Rw1c 0 0x100004 ev = if ev = 0 then u else u := rfl
  simp only [exec_registerWrite, execRegisterWrite, hw, he, ite_self]

theorem exec_registerWrite_region_readOnly (s : State) (t : TileId) (n : RegionId) (o : Nat) (v ev : Word)
    (h : o ∈ [0x14, 0x18, 0x1C, 0x20, 0x24]) :
    exec (.registerWrite .net (.device (regBase + t * 0x10000 + 0x2000 + n * 0x40 + o)) v ev) s = .next s := by
  have hn := n.isLt
  have hofs : ∀ o ∈ [0x14, 0x18, 0x1C, 0x20, 0x24], o < 0x40 ∧ o % 4 = 0 := by decide
  obtain ⟨ho, h4⟩ := hofs o h
  have haddr : regBase + t * 0x10000 + 0x2000 + n * 0x40 + o
      = regBase + t * 0x10000 + (0x2000 + n * 0x40 + o) := by omega
  rw [haddr, exec_registerWrite_net s t _ v ev (by omega), s.tileWriteReg_region _ t n o v ho h4,
    s.regionWrite_readOnly _ t n o v h, State.spaceRw1c_tile _ t _ ev (by omega),
    State.tileRw1c_region _ _ _ ev (by omega) (by omega), ite_self]
  rfl

/-! ### READ_TO_CLEAR (00 R8, R11) -/

/-- A core's load of TIL_NET_MISROUTE is none of the loads with a command of their own. -/
theorem State.regLoad_misroute (s : State) (a : At) (rd : XReg) :
    s.regLoad a 0xE10 rd
      = (s.tileRead (tileOf a.core) 0xE10).2.modCore a.core fun x =>
          (x.setReg rd (s.tileRead (tileOf a.core) 0xE10).1).advance a.pc a.short := by
  unfold State.regLoad
  dsimp only
  rw [if_neg (by omega), if_neg (by omega), if_neg (by omega), if_neg (by omega), if_neg (by omega)]

theorem exec_readToClear_misroute_core (s : State) (a : At) (rd : XReg) (event : Bool)
    (h : (s.core a.core).canIssue = true) :
    exec (.readToClear (.core a) (.local 0x40000E10) event rd) s
      = .next ((s.setTile (tileOf a.core)
          { s.tile (tileOf a.core) with misroute := if event then 1 else 0 }).setCore a.core
            (((s.core a.core).setReg rd (BitVec.ofNat 32 (s.tile (tileOf a.core)).misroute)).advance a.pc
              a.short)) := by
  have hk : localKind a.core 0x40000E10 = .reg 0xE10 := localKind_window a.core 0xE10 (by decide)
  have hev := fun u : State => u.spaceEvent_misroute ⟨tileOf a.core, tileOf_lt a.core⟩
  simp only [exec_readToClear, execReadToClear, h, hk, s.regLoad_misroute, s.tileRead_misroute, hev]
  cases event
  · simp
  · simp [State.setTile_setCore, satAdd]

theorem exec_readToClear_misroute_firmware (s : State) (u : TileId) (rd : XReg) (event : Bool) :
    exec (.readToClear .firmware (.device (regBase + u * 0x10000 + 0xE10)) event rd) s
      = .next ((s.setTile u { s.tile u with misroute := if event then 1 else 0 }).emit
          (.regData .firmware (BitVec.ofNat 32 (s.tile u).misroute))) := by
  simp only [exec_readToClear, execReadToClear, s.addrKind_tile u 0xE10 (by decide), State.readClear,
    s.spaceRead_tile u 0xE10 (by decide),
    s.tileRead_misroute, State.spaceEvent_misroute]
  cases event
  · simp
  · simp [satAdd]

/-! ### The obligations -/

/-- Settles O2: the meaning of every command is a next state by its definition. -/
theorem everyCommandAnswersANextState : Obligations.EveryCommandAnswersANextState := by
  unfold Obligations.EveryCommandAnswersANextState
  intro c s
  cases c <;> exact ⟨_, rfl⟩

/-- Settles O29, register by register. -/
theorem registerAccess : Obligations.RegisterAccess := by
  unfold Obligations.RegisterAccess
  refine ⟨fun a v e s h => ⟨?_, ?_, ?_, ?_, ?_⟩, fun a rd event s => ⟨fun h => ?_, fun u => ?_⟩⟩
  · exact fun r => exec_registerWrite_xreg s a r v e h
  · exact fun i hi => exec_registerWrite_txData s a i v e hi h
  · exact fun t => exec_registerWrite_badWrite s t v e
  · exact exec_registerWrite_seqSectors s v e
  · exact fun t n o ho => exec_registerWrite_region_readOnly s t n o v e ho
  · refine ⟨_, exec_readToClear_misroute_core s a rd event h, ?_, ?_, rfl⟩
    · simp
    · simp
  · refine ⟨_, exec_readToClear_misroute_firmware s u rd event, rfl, ?_, rfl⟩
    exact State.tile_setTile_same _ _ _

end Sys2Proof.Machine

/-! Number formats and EXACT accumulation (02): what normalising, rounding to nearest, conversion to a
format and the addition into an EXACT element do on the values the obligations speak of. -/
namespace Sys2Proof.Machine

/-! ### Normalised significands -/

/-- Dropping trailing zeros keeps the value m·2^e. -/
theorem normalise_exact (fuel m : Nat) (e : Int) :
    ∃ n j : Nat, normalise fuel m e = (n, e + j) ∧ m = n * 2 ^ j := by
  induction fuel generalizing m e with
  | zero => exact ⟨m, 0, by rw [normalise, Int.natCast_zero, Int.add_zero], (Nat.mul_one m).symm⟩
  | succ fuel ih =>
    by_cases h : m ≠ 0 ∧ m % 2 = 0
    · obtain ⟨n, j, hn, hm⟩ := ih (m / 2) (e + 1)
      refine ⟨n, j + 1, ?_, ?_⟩
      · rw [normalise, if_pos h, hn, Int.natCast_add, Int.add_assoc, Int.add_comm 1 j]
        rfl
      · rw [Nat.pow_succ, ← Nat.mul_assoc, ← hm]
        omega
    · exact ⟨m, 0, by rw [normalise, if_neg h, Int.natCast_zero, Int.add_zero], (Nat.mul_one m).symm⟩

theorem normalised_exact (m : Nat) (e : Int) :
    ∃ n j : Nat, normalised m e = (n, e + j) ∧ m = n * 2 ^ j :=
  normalise_exact _ m e

theorem log2_mul_two_pow (n j : Nat) (h : n ≠ 0) : (n * 2 ^ j).log2 = n.log2 + j := by
  induction j with
  | zero => rw [Nat.pow_zero, Nat.mul_one, Nat.add_zero]
  | succ j ih =>
    have hj : n * 2 ^ (j + 1) = 2 * (n * 2 ^ j) := by rw [Nat.pow_succ, Nat.mul_comm 2, Nat.mul_assoc]
    have h0 : n * 2 ^ j ≠ 0 := Nat.mul_ne_zero h (Nat.ne_of_gt (Nat.two_pow_pos j))
    rw [hj, Nat.log2_two_mul h0, ih, Nat.add_assoc]

/-- A significand in units of 2^q is the same from its normalised form. -/
theorem shift_normalised (n j : Nat) (e q : Int) (h : q ≤ e) :
    n * 2 ^ (e + j - q).toNat = n * 2 ^ j * 2 ^ (e - q).toNat := by
  have hs : (e + j - q).toNat = j + (e - q).toNat := by omega
  rw [hs, Nat.pow_add, Nat.mul_assoc]

/-! ### Rounding to nearest, ties to even (R52) -/

theorem roundsUp_rne (n frac d : Nat) :
    roundsUp .rne n frac d = true ↔ 2 ^ d < 2 * frac ∨ 2 * frac = 2 ^ d ∧ n % 2 = 1 := by
  simp only [roundsUp, Bool.or_eq_true, Bool.and_eq_true, decide_eq_true_eq]

/-! ### Conversion to a floating-point format (R56, Table 2.4) -/

/-- A magnitude whose last place is already the unit of the destination loses no bit. -/
theorem roundCode_of_unit (f : FloatFmt) (r : Rounding) (m : Nat) (e : Int) (hm : m ≠ 0)
    (hq : max ((Nat.log2 m : Int) + e - f.mw) (1 - (f.bias : Int) - f.mw) = e) :
    roundCode f r m e = (e - (1 - (f.bias : Int) - f.mw)).toNat * 2 ^ f.mw + m := by
  obtain ⟨n, j, hn, rfl⟩ := normalised_exact m e
  have hn0 : n ≠ 0 := Nat.ne_zero_of_mul_ne_zero_left hm
  have hunit : max ((Nat.log2 n : Int) + (e + j) - f.mw) (1 - (f.bias : Int) - f.mw) = e := by
    rw [log2_mul_two_pow n j hn0] at hq
    omega
  have hle : e ≤ e + j := by omega
  have hshift : n * 2 ^ (e + j - e).toNat = n * 2 ^ j := by
    rw [Int.add_comm, Int.add_sub_cancel, Int.toNat_natCast]
  simp only [roundCode, hn, hunit, if_pos hle, hshift]

theorem roundCode_subnormal (f : FloatFmt) (r : Rounding) (m : Nat) (hm : m ≠ 0) (h : m < 2 ^ f.mw) :
    roundCode f r m (1 - (f.bias : Int) - f.mw) = m := by
  have hlog : m.log2 < f.mw := (Nat.log2_lt hm).mpr h
  rw [roundCode_of_unit f r m _ hm (by omega), Int.sub_self, Int.toNat_zero, Nat.zero_mul, Nat.zero_add]

theorem two_pow_add_ne_zero (k n : Nat) : 2 ^ k + n ≠ 0 := by
  have := Nat.two_pow_pos k
  omega

theorem roundCode_normal (f : FloatFmt) (r : Rounding) (ex man : Nat) (hex : ex ≠ 0) (h : man < 2 ^ f.mw) :
    roundCode f r (2 ^ f.mw + man) ((ex : Int) - f.bias - f.mw) = ex * 2 ^ f.mw + man := by
  have hm := two_pow_add_ne_zero f.mw man
  have hlog : (2 ^ f.mw + man).log2 = f.mw := by
    rw [Nat.log2_eq_iff hm, Nat.pow_succ]; omega
  rw [roundCode_of_unit f r _ _ hm (by rw [hlog]; omega)]
  obtain ⟨x, rfl⟩ := Nat.exists_eq_succ_of_ne_zero hex
  have hx : ((x.succ : Int) - f.bias - f.mw - (1 - (f.bias : Int) - f.mw)).toNat = x := by omega
  rw [hx, Nat.succ_mul, Nat.add_assoc]

theorem toFloat_zero (f : FloatFmt) (r : Rounding) (neg : Bool) (e : Int) :
    toFloat f r (.fin neg 0 e) = (withSign f neg 0, false) := by
  simp only [toFloat, if_true]

theorem toFloat_of_code_le (f : FloatFmt) (r : Rounding) (neg : Bool) (m code : Nat) (e : Int) (hm : m ≠ 0)
    (hc : roundCode f r m e = code) (h : code ≤ f.maxCode) :
    toFloat f r (.fin neg m e) = (withSign f neg code, false) := by
  simp only [toFloat, if_neg hm, hc, if_neg (Nat.not_lt.mpr h)]

/-- The sign of an encoding, its top bit. -/
def FloatFmt.signField (f : FloatFmt) (v : Nat) : Bool := decide (v / 2 ^ (f.mw + f.ew) % 2 = 1)

/-- The exponent bits of an encoding. -/
def FloatFmt.exponentField (f : FloatFmt) (v : Nat) : Nat := v / 2 ^ f.mw % 2 ^ f.ew

/-- The mantissa bits of an encoding. -/
def FloatFmt.mantissaField (f : FloatFmt) (v : Nat) : Nat := v % 2 ^ f.mw

theorem FloatFmt.mantissaField_lt (f : FloatFmt) (v : Nat) : f.mantissaField v < 2 ^ f.mw :=
  Nat.mod_lt _ (Nat.two_pow_pos _)

theorem code_eq_fields (f : FloatFmt) (v : Nat) :
    v % 2 ^ (f.mw + f.ew) = f.exponentField v * 2 ^ f.mw + f.mantissaField v := by
  rw [Nat.pow_add, Nat.mod_mul, Nat.add_comm, Nat.mul_comm]
  rfl

theorem bit_decide_eq_one (n : Nat) (h : n < 2) : bit (decide (n = 1)) = n := by
  match n, h with
  | 0, _ | 1, _ => rfl

/-- An encoding is its sign bit above its code. -/
theorem withSign_code (f : FloatFmt) (v : Nat) (h : v < 2 ^ (1 + f.ew + f.mw)) :
    withSign f (f.signField v) (v % 2 ^ (f.mw + f.ew)) = v := by
  have hdiv : v / 2 ^ (f.mw + f.ew) < 2 := by
    have hw : 1 + f.ew + f.mw = f.mw + f.ew + 1 := by omega
    rw [hw, Nat.pow_succ'] at h
    exact (Nat.div_lt_iff_lt_mul (Nat.two_pow_pos _)).mpr h
  have hbit : bit (f.signField v) = v / 2 ^ (f.mw + f.ew) := by
    rw [FloatFmt.signField, Nat.mod_eq_of_lt hdiv]
    exact bit_decide_eq_one _ hdiv
  rw [withSign, hbit, Nat.div_add_mod']

/-- The value of a finite encoding, from its fields (R44, R45). -/
theorem decodeFloat_finite (f : FloatFmt) (v : Nat) (h : v % 2 ^ (f.mw + f.ew) ≤ f.maxCode) :
    decodeFloat f v =
      if f.exponentField v = 0 then
        .fin (f.signField v) (f.mantissaField v) (1 - (f.bias : Int) - f.mw)
      else .fin (f.signField v) (2 ^ f.mw + f.mantissaField v) ((f.exponentField v : Int) - f.bias - f.mw) :=
  if_neg (Nat.not_lt.mpr h)

/-- Conversion undoes decoding: a zero, a subnormal and a normal value each come back as sign and code. -/
theorem toFloat_decodeFloat (f : FloatFmt) (r : Rounding) (v : Nat) (h : v % 2 ^ (f.mw + f.ew) ≤ f.maxCode) :
    toFloat f r (decodeFloat f v) = (withSign f (f.signField v) (v % 2 ^ (f.mw + f.ew)), false) := by
  have hman := f.mantissaField_lt v
  rw [decodeFloat_finite f v h]
  rw [code_eq_fields f v] at h ⊢
  split
  · next hex =>
    rw [hex, Nat.zero_mul, Nat.zero_add] at h ⊢
    by_cases h0 : f.mantissaField v = 0
    · rw [h0, toFloat_zero]
    · exact toFloat_of_code_le f r _ _ _ _ h0 (roundCode_subnormal f r _ h0 hman) h
  · next hex =>
    exact toFloat_of_code_le f r _ _ _ _ (two_pow_add_ne_zero _ _) (roundCode_normal f r _ _ hex hman) h

/-! ### Addition into an EXACT element (R64) -/

theorem abs_le_exactMax (s : Int) (h : s.natAbs < 2 ^ 127) : -exactMax ≤ s ∧ s ≤ exactMax := by
  unfold exactMax
  omega

/-- Every value of an element but the NaN marker comes back from its 128 bits. -/
theorem toInt_ofInt_exact (s : Int) (hl : -exactMax ≤ s) (hu : s ≤ exactMax) :
    (BitVec.ofInt 128 s).toInt = s := by
  unfold exactMax at *
  rw [BitVec.toInt_ofInt, Int.bmod_eq_of_le (by omega) (by omega)]

theorem exactAdd_inRange (el : BitVec 128) (u : Int) (hl : -exactMax ≤ el.toInt + u)
    (hu : el.toInt + u ≤ exactMax) : exactAdd el u = (BitVec.ofInt 128 (el.toInt + u), false) := by
  simp only [exactAdd, if_neg (Int.not_lt.mpr hl), if_neg (Int.not_lt.mpr hu)]

theorem exactAdd_above (el : BitVec 128) (u : Int) (h : exactMax < el.toInt + u) :
    exactAdd el u = (BitVec.ofInt 128 exactMax, true) := by
  simp only [exactAdd, if_pos h]

theorem exactAdd_below (el : BitVec 128) (u : Int) (h : el.toInt + u < -exactMax) :
    exactAdd el u = (BitVec.ofInt 128 (-exactMax), true) := by
  have hu : ¬ exactMax < el.toInt + u := by unfold exactMax at *; omega
  simp only [exactAdd, if_neg hu, if_pos h]

/-! ### Terms into an EXACT element (R63, R66) -/

/-- R63: a term that is a whole number of units and fits the window is placed as it is. -/
theorem placeTerm_exact (a i e : Int) (he : a - 88 ≤ e) (h : (i * 2 ^ (e - (a - 88)).toNat).natAbs < 2 ^ 127) :
    placeTerm a i e = (i * 2 ^ (e - (a - 88)).toNat, false, false) := by
  obtain ⟨n, j, hn, hi⟩ := normalised_exact i.natAbs e
  have hle : a - 88 ≤ e + j := by omega
  have hunits : n * 2 ^ (e + j - (a - 88)).toNat = i.natAbs * 2 ^ (e - (a - 88)).toNat := by
    rw [shift_normalised n j e _ he, ← hi]
  have hfit : ¬ 2 ^ 127 ≤ i.natAbs * 2 ^ (e - (a - 88)).toNat := by
    rw [Int.natAbs_mul, Int.natAbs_pow] at h
    exact Nat.not_le.mpr h
  have hcast : ((i.natAbs * 2 ^ (e - (a - 88)).toNat : Nat) : Int) = i.natAbs * 2 ^ (e - (a - 88)).toNat := by
    rw [Int.natCast_mul, Int.natCast_pow]
    rfl
  simp only [placeTerm, hn, if_pos hle, hunits, hfit, decide_false, Bool.false_eq_true, if_false, hcast,
    Prod.mk.injEq, and_true]
  split
  · next hneg => rw [Int.ofNat_natAbs_of_nonpos (Int.le_of_lt hneg), Int.neg_mul, Int.neg_neg]
  · next hpos => rw [Int.natAbs_of_nonneg (Int.not_lt.mp hpos)]

/-- An element holding a value of the window is not the NaN marker. -/
theorem ofInt_ne_nanMarker (s : Int) (h : s.natAbs < 2 ^ 127) : BitVec.ofInt 128 s ≠ nanMarker := by
  intro heq
  obtain ⟨hl, hu⟩ := abs_le_exactMax s h
  have hs := toInt_ofInt_exact s hl hu
  have hnan : nanMarker.toInt = -(2 ^ 127) := by decide
  rw [heq, hnan] at hs
  omega

/-- One term that needs no rounding, into an element whose new sum stays in the window. -/
theorem exactTerm_exact (anchor : BitVec 8) (t : Int × Int) (s : Int) (he : anchor.toInt - 88 ≤ t.2)
    (ht : (termUnits anchor t).natAbs < 2 ^ 127) (hs : s.natAbs < 2 ^ 127)
    (hsum : (s + termUnits anchor t).natAbs < 2 ^ 127) :
    exactTerm anchor (BitVec.ofInt 128 s) (.num t.1 t.2)
      = (BitVec.ofInt 128 (s + termUnits anchor t), {}) := by
  obtain ⟨hl, hu⟩ := abs_le_exactMax s hs
  obtain ⟨hl', hu'⟩ := abs_le_exactMax _ hsum
  have hval := toInt_ofInt_exact s hl hu
  have hadd := exactAdd_inRange (BitVec.ofInt 128 s) (termUnits anchor t) (hval.symm ▸ hl') (hval.symm ▸ hu')
  have hplace : placeTerm anchor.toInt t.1 t.2 = (termUnits anchor t, false, false) :=
    placeTerm_exact _ _ _ he ht
  simp only [exactTerm, hplace, if_neg (ofInt_ne_nanMarker s hs), hadd, hval, Bool.or_false]

/-- The accumulation of R66 from any partial sum `s`: no prefix leaves the window, no flag is set. -/
theorem foldl_exactTerm (anchor : BitVec 8) (l : List (Int × Int)) (s : Int)
    (he : ∀ t ∈ l, anchor.toInt - 88 ≤ t.2) (ht : ∀ t ∈ l, (termUnits anchor t).natAbs < 2 ^ 127)
    (hs : ∀ k, (s + ((l.take k).map (termUnits anchor)).sum).natAbs < 2 ^ 127) :
    l.foldl (fun (a : BitVec 128 × AccFlags) (t : Int × Int) =>
        ((exactTerm anchor a.1 (.num t.1 t.2)).1, a.2.or (exactTerm anchor a.1 (.num t.1 t.2)).2))
      (BitVec.ofInt 128 s, {}) = (BitVec.ofInt 128 (s + (l.map (termUnits anchor)).sum), {}) := by
  induction l generalizing s with
  | nil => rw [List.map_nil, List.sum_nil, Int.add_zero, List.foldl_nil]
  | cons t l ih =>
    obtain ⟨he, hel⟩ := List.forall_mem_cons.mp he
    obtain ⟨ht, htl⟩ := List.forall_mem_cons.mp ht
    have hs0 : s.natAbs < 2 ^ 127 := by simpa using hs 0
    have hs1 : (s + termUnits anchor t).natAbs < 2 ^ 127 := by simpa using hs 1
    have hstep := exactTerm_exact anchor t s he ht hs0 hs1
    have hrest (k : Nat) : (s + termUnits anchor t + ((l.take k).map (termUnits anchor)).sum).natAbs < 2 ^ 127 := by
      simpa [Int.add_assoc] using hs (k + 1)
    rw [List.foldl_cons, hstep]
    exact (ih _ hel htl hrest).trans (by rw [List.map_cons, List.sum_cons, Int.add_assoc])

theorem sum_termUnits_perm (anchor : BitVec 8) {l l' : List (Int × Int)} (h : l.Perm l') :
    (l.map (termUnits anchor)).sum = (l'.map (termUnits anchor)).sum := by
  induction h with
  | nil => rfl
  | cons t _ ih => rw [List.map_cons, List.sum_cons, ih, List.map_cons, List.sum_cons]
  | swap t u l =>
    simp only [List.map_cons, List.sum_cons]
    omega
  | trans _ _ ih ih' => exact ih.trans ih'

/-! ### The obligations -/

/-- Settles O7, range by range of the true sum. -/
theorem exactAdditionSaturates : Obligations.ExactAdditionSaturates := by
  unfold Obligations.ExactAdditionSaturates
  intro el u _
  refine ⟨fun hl hu => ?_, fun h => ?_, fun h => ?_, fun w h hw hw' => ?_⟩
  · rw [exactAdd_inRange el u hl hu]
    exact ⟨toInt_ofInt_exact _ hl hu, rfl⟩
  · rw [exactAdd_above el u h]
    exact ⟨by decide, rfl⟩
  · rw [exactAdd_below el u h]
    exact ⟨by decide, rfl⟩
  · have hsat : (exactAdd el u).1.toInt = exactMax := by
      rw [exactAdd_above el u h]; decide
    have hl : -exactMax ≤ exactMax + w := by unfold exactMax; omega
    have hu : exactMax + w ≤ exactMax := by omega
    rw [exactAdd_inRange _ w (hsat ▸ hl) (hsat ▸ hu), hsat]
    exact ⟨toInt_ofInt_exact _ hl hu, rfl⟩

/-- Settles O8: the sum of the units is the same in either order, and the accumulation takes it term by
term from 0. -/
theorem exactSumsAreExactInAnyOrder : Obligations.ExactSumsAreExactInAnyOrder := by
  unfold Obligations.ExactSumsAreExactInAnyOrder
  intro anchor l l' hperm he hs ht
  rw [sum_termUnits_perm anchor hperm, ← Int.zero_add (List.sum _)]
  exact foldl_exactTerm anchor l' 0 (fun t h => he t (hperm.mem_iff.mpr h)) (fun t h => ht t (hperm.mem_iff.mpr h))
    (fun k => (Int.zero_add _).symm ▸ hs k)

/-- Settles O9: the distance is the discarded part or what it lacks to a unit. -/
theorem roundsToNearestEven : Obligations.RoundsToNearestEven := by
  unfold Obligations.RoundsToNearestEven
  intro m d k n _ hk hn
  have hlt : m % 2 ^ d < 2 ^ d := Nat.mod_lt _ (Nat.two_pow_pos d)
  have hm : (m : Int) = k * 2 ^ d + (m % 2 ^ d : Nat) := by
    rw [hk]; exact_mod_cast (Nat.div_add_mod' m (2 ^ d)).symm
  have hup := roundsUp_rne k (m % 2 ^ d) d
  generalize m % 2 ^ d = frac at *
  split at hn
  · next h =>
    have hdist : (m : Int) - n * 2 ^ d = frac - (2 ^ d : Nat) := by rw [hm, hn]; grind
    rw [hdist]
    have := hup.mp h
    omega
  · next h =>
    have hdist : (m : Int) - n * 2 ^ d = frac := by rw [hm, hn, Int.add_comm, Int.add_sub_cancel]
    rw [hdist]
    have := mt hup.mpr h
    omega

/-- Settles O10: decoding gives sign and code, and conversion puts the sign back above the code. The
-0 encodings stand on the model's reading of R46 (log 51). -/
theorem finiteElementsConvertToThemselves : Obligations.FiniteElementsConvertToThemselves := by
  unfold Obligations.FiniteElementsConvertToThemselves
  intro _ f r v _ hv hcode
  rw [toFloat_decodeFloat f r v hcode, withSign_code f v hv]

end Sys2Proof.Machine
